-- ==== Sys2Proof/Word.lean ====
section
/-! DEFINITION. The words of the machine: bytes, 32-bit registers and 64-bit words (00_scope.md R6). -/
namespace Sys2Proof

/-- A byte of DRAM. -/
abbrev Byte := BitVec 8
/-- A 32-bit register word. -/
abbrev Word := BitVec 32
/-- A 64-bit word of a record or of a wide value. -/
abbrev Word64 := BitVec 64
/-- The payload of one 132-bit link block (11_lanes_and_host_link.md R375). -/
abbrev Block := BitVec 128

end Sys2Proof
end

