-- ==== Sys2Proof/Syntax.lean ====
section
/-! DEFINITION. Syntax: the commands of the block. -/
namespace Sys2Proof

/-- A Poine Link packet: the header fields of Table 11.9 and its data blocks (11_lanes_and_host_link.md R390).
LEN is the number of blocks. -/
structure Packet where
  type : BitVec 6
  tag : BitVec 12 := 0
  status : BitVec 3 := 0
  data : Word := 0
  addr : Word64 := 0
  blocks : List Block := []
deriving DecidableEq, Repr, Inhabited

/-- The fields of a PTP Announce message that master selection compares (10_time_base_and_alignment.md R355). -/
structure AnnounceMsg where
  priority1 : Nat
  clockClass : Nat
  accuracy : Nat
  variance : Nat
  priority2 : Nat
  gmid : Nat
  steps : Nat
  sender : Nat
  domain : Nat
  logSync : Int
  /-- It came over UDP and IPv4; and its announced log Announce interval. -/
  udp : Bool
  logAnnounce : Int
deriving DecidableEq, Repr, Inhabited

/-- A protected SRAM item of Table 15.1 that reads with an error (15_dependability.md R477). -/
inductive SramItem where
  /-- A word of a control store as an engine reads it: 0 horizontal, 1 nano-store, 2 micro-pointer store, 3 directory; and its routine. -/
  | control (e : Fin 16) (store : Fin 4) (addr : Fin 8192) (routine : Fin 320)
  /-- The line of an engine's pleat cache or prefetch buffer that it reads next. -/
  | cache (e : Fin 16)
  /-- The quad FIFO or a cuff entry buffer of a site's burst. -/
  | quad (site : Fin 16)
  /-- A closed line of a site's capture buffer, or of an acquisition unit's buffer, by its place in the buffer. -/
  | capture (site : Fin 16) (n : Nat)
  | acquisition (u : Fin 16) (n : Nat)
  /-- The line in play of a source unit's buffer. -/
  | source (n : Fin 8)
  /-- A port's link buffers, queues, outbound record area or mailbox. -/
  | link (p : Fin 8)
  /-- The descriptor table, the ready queues or the delay list. -/
  | descriptors
  /-- Service-core memory. -/
  | service
deriving DecidableEq, Repr, Inhabited

/-- The results of one item of a calibration run in its two passes, a pair per value; none: no reference edge, or no lock (13_calibration.md R434). -/
abbrev PassItem := Option (List (Int × Int))

/-- A register with fields of type RC, which its owner's read clears (00_scope.md R8). -/
inductive RcReg where
  | trap (e : Fin 16)
  | cserr (e : Fin 16)
  | collcnt (c : Fin 128)
  | lanErr (l : Fin 29)
deriving DecidableEq, Repr

/-- The commands of the block, one per row of spec/opcode_table.json, with the row's rule and summary.
A port number `p` is the sender of a register access or a packet, and `w` the word written. -/
inductive Instr where
  /-- VEC (R47): Engine executes a VEC instruction, emitting 1 to 65,536 payload vectors, each with an optional per-vector timing set. -/
  | vec (e : Fin 16) (corr : Option (Fin 4 × Fin 8192))
  /-- RPT (R47): Engine executes RPT, emitting one payload vector IMM+1 times as numbered vectors. -/
  | rpt (e : Fin 16)
  /-- LOOP (R49): Engine executes LOOP, opening a loop of IMM+1 iterations and emitting any vector it carries once. -/
  | loop (e : Fin 16)
  /-- ENDL (R49): Engine executes ENDL, closing or repeating the innermost loop; in streamed code it may rewind the ring. -/
  | endl (e : Fin 16)
  /-- CALL (R51): Engine executes CALL, pushing a frame and transferring to a relative or absolute target. -/
  | call (e : Fin 16)
  /-- RET (R51): Engine executes RET, popping a frame, closing the loops opened since the push and returning. -/
  | ret (e : Fin 16)
  /-- JMP (R50): Engine executes JMP, closing POP loops and transferring to the target. -/
  | jmp (e : Fin 16)
  /-- JIF (R55): Engine executes a conditional jump, testing an immediate, state or lagged compare-class condition. -/
  | jif (e : Fin 16)
  /-- JIF_SYNC_RESOLVE (R56): A synchronised JIF resolves its branch once the results of every vector below j have returned. -/
  | jifSyncResolve (e : Fin 16) (extra : Nat)
  /-- MATCH (R58): Engine executes MATCH, emitting numbered repetitions of V that are each tested by the condition. -/
  | matchStart (e : Fin 16)
  /-- MATCH_END (R59): A MATCH ends on a match or a timeout, sets MATCHED, transfers under Table 2.7 and may log a MATCH entry. -/
  | matchEnd (e : Fin 16) (emitted : Nat)
  /-- WAITT (R60): Engine executes WAITT, holding the site on unnumbered pad emissions until a time or a stitch event. -/
  | waitt (e : Fin 16)
  /-- WAITT_TARGET_REACHED (R61): The cuffs reach the WAITT target and start the next vector at it, cutting the last pad or recording WAITT_LATE. -/
  | waittTargetReached (e : Fin 16)
  /-- WAITT_TIMEOUT (R62): The WAITT stitch-event timeout elapses, the next vector follows and a WAITT_TIMEOUT entry is written. -/
  | waittTimeout (e : Fin 16)
  /-- TSET (R63): Engine executes TSET, changing the site's default timing set. -/
  | tset (e : Fin 16)
  /-- CAPON (R64): Engine executes CAPON, turning the capture state on with a record mode. -/
  | capon (e : Fin 16)
  /-- CAPOFF (R64): Engine executes CAPOFF, turning the capture state off. -/
  | capoff (e : Fin 16)
  /-- TRIG (R65): Engine executes TRIG, arming or disarming an acquisition unit from the vector R45 places. -/
  | trig (e : Fin 16)
  /-- WAVE (R65): Engine executes WAVE, sending a start, redirect or stop request to a source unit at that vector's T0. -/
  | wave (e : Fin 16)
  /-- MARK (R66): Engine executes MARK, writing a marker entry to the ledger. -/
  | mark (e : Fin 16)
  /-- STREAM (R67): Engine executes STREAM, pushing a frame and continuing at the read pointer of the site's stream ring. -/
  | stream (e : Fin 16)
  /-- UOP (R69): Engine executes UOP, invoking a declared user micro-routine with its flags, argument, payload and condition. -/
  | uop (e : Fin 16) (words : Nat)
  /-- HALT (R70): Engine executes HALT, emitting its vector as the last one and ending the burst. -/
  | halt (e : Fin 16)
  /-- TWIN_TRAP (R96): A double-bit error in a horizontal word with a twin traps and resumes at the twin in the lining. -/
  | twinTrap (e : Fin 16) (addr : Fin 4096) (corr : Option (Fin 4 × Fin 8192))
  /-- LINING_REDIRECT (R95): A dispatch to a routine that runs from its lining form starts at MP_BASE with no frame saved. -/
  | liningRedirect (e : Fin 16)
  /-- POISON_TRAP (R100): Poisoned DRAM data reaches its consuming word and the burst ends ABORTED_FAULT with DRAM_UNCORR. -/
  | poisonTrap (e : Fin 16)
  /-- CSTORE_UNCORR_TRAP (R94): An uncorrectable control-store error with no twin ends the burst with CSTORE_UNCORR. -/
  | cstoreUncorrTrap (e : Fin 16) (store : Fin 4) (addr : Fin 8192) (corr : Option (Fin 4 × Fin 8192))
  /-- CSTORE_FIELD_TRAP (R80): A microword with a reserved encoding issues and ends the burst with CSTORE_FIELD. -/
  | cstoreFieldTrap (e : Fin 16)
  /-- HOST_ABORT_INTERRUPT (R98): The engine takes a host abort at its next safe point and emits nothing more. -/
  | hostAbortInterrupt (e : Fin 16)
  /-- ARMING_REQUEST_INTERRUPT (R94): The engine takes an arming request interrupt and begins arming. -/
  | armingRequestInterrupt (e : Fin 16)
  /-- SERVICE_REQUEST_INTERRUPT (R99): The engine takes a service request interrupt and runs a service routine. -/
  | serviceRequestInterrupt (e : Fin 16)
  /-- CSTORE_REPAIR (R88): Service cores rewrite a control-store word that had a double-bit error from the retained image. -/
  | cstoreRepair (e : Fin 16) (ok : Bool)
  /-- UCODE_PACKAGE_LOAD (R87): Once no engine is dispatched, the service cores load a verified standard microcode package into all engines and the nano-store. -/
  | ucodePackageLoad
  /-- CSTORE_WORD_COMMIT (R110): A write of 32-bit word 5 in a control-store window commits the staged microword and computes CHECK. -/
  | cstoreWordCommit (p : Fin 8) (k : Fin 73728) (w : Word)
  /-- ENGINE_DISPATCH_RECEIVED (R160): A dispatch command reaches the engine, which connects the yoke, makes the dispatch checks and loads user routines. -/
  | engineDispatchReceived (e : Fin 16)
  /-- ARMING_COMPLETE (R515): Prefetch and cuff buffers reach their arming levels and the burst's start time is fixed. -/
  | armingComplete (e : Fin 16)
  /-- VECTOR_RELEASE (R13): A cuff's mirror of local time reaches the next T0 and the cuffs of the site release a vector. -/
  | vectorRelease (site : Fin 16)
  /-- DRIVE_EDGE (R120): A drive edge's time arrives on a channel's timeline and acts on the driver enable or data. -/
  | driveEdge (c : Fin 128)
  /-- STROBE_OPEN (R121): A strobe window opens and the cuff latches CH and CL as the vector's raw states. -/
  | strobeOpen (c : Fin 128) (ch : Bool) (cl : Bool)
  /-- STROBE_CLOSE (R121): A strobe window closes and the compare result is decided. -/
  | strobeClose (c : Fin 128) (moved : Bool)
  /-- COMPARE_RESULT_RETURN (R252): A vector's compare results return to the fail-flag unit and feed flags, capture, acquisition and the ledger. -/
  | compareResultReturn (site : Fin 16) (drained : List (Nat × Nat))
  /-- BURST_END (R70): The last released period ends and its compares return; channels go idle and END is written. -/
  | burstEnd (e : Fin 16)
  /-- MIRROR_CHECK (R15): At an alignment mark, each island checks its local-time mirror and reloads it on a mismatch. -/
  | mirrorCheck (i : Fin 41) (diff : Int)
  /-- SSC_APPLY (R22): At the next modulation cycle after a GLB_SSC write, the island's PLL glides into or out of spreading. -/
  | sscApply
  /-- ISLAND_MONITOR_SAMPLE (R26): Every 100 µs the device samples the island monitors and computes the worst gradient change. -/
  | islandMonitorSample (l : List (BitVec 16 × BitVec 16))
  /-- SEAM_PARITY_ERROR (R20): A seam item arrives with bad parity; the receiving island fences the seam and reports it. -/
  | seamParityError (n : Fin 98)
  /-- SITE_DECLARE (R155): SCH_SITECMD.DECLARE checks the staged declaration for BUSY, OVERLAP, PAIRING and EMPTY. -/
  | siteDeclare (p : Fin 8) (site : Fin 16) (w : Word)
  /-- DECLARATION_TAKE_EFFECT (R156): After the site's release and last wipe end, a passed declaration takes effect. -/
  | declarationTakeEffect (site : Fin 16)
  /-- SITE_RESET (R158): SCH_SITECMD.RESET cancels uncommitted descriptors, aborts the running burst and drops registrations. -/
  | siteReset (p : Fin 8) (site : Fin 16) (w : Word)
  /-- SITE_WIPE (R455): After the site's completion record and buffer drains, the site's bolts, caches and buffers are wiped. -/
  | siteWipe (site : Fin 16)
  /-- SITE_WIPE_END (R158): The site reset's wipe ends, the host flags clear and the site leaves the resetting state. -/
  | siteWipeEnd (site : Fin 16)
  /-- SITE_TRIG (R177): SCH_SITECMD.TRIG raises host trigger event 0x20 for the site's event starts. -/
  | siteTrig (p : Fin 8) (site : Fin 16) (w : Word)
  /-- PARTITION_LOCK (R159): A write of SCH_PLOCK.LOCK = 1 locks declarations, engine enables and quotas. -/
  | partitionLock (p : Fin 8) (w : Word)
  /-- REGISTER_GO (R162): SCH_LDCTL.GO starts registration of a loadable for a site. -/
  | registerGo (p : Fin 8) (w : Word)
  /-- REGISTRATION_END (R162): Registration finishes its checks and measurement, assigning an index or failing with a code. -/
  | registrationEnd (p : Fin 8)
  /-- LOADABLE_DROP (R163): SCH_LDCTL.DROP frees a registry entry after its checks. -/
  | loadableDrop (p : Fin 8) (w : Word)
  /-- SUBMIT (R165): A write of SCH_SUBMIT7 submits a descriptor, which is checked, accepted, refused, held or answered INVALID. -/
  | submit (p : Fin 8) (w : Word)
  /-- HELD_SUBMISSION_RETRY (R170): When the block lifts, a held submission is checked again and accepted or answered INVALID. -/
  | heldSubmissionRetry
  /-- SCHEDULER_TICK (R173): At each tick the scheduler arms release comparators and the time base records its anchor. -/
  | schedulerTick
  /-- DELAY_LIST_RELEASE (R173): A descriptor's release time arrives and it leaves the delay list into its site's pending set. -/
  | delayListRelease
  /-- READY_QUEUE_ENTRY (R174): An idle site's highest-priority pending descriptor moves into its ready queue. -/
  | readyQueueEntry (site : Fin 16)
  /-- DISPATCH_COMMIT (R175): In a scheduler cycle the dispatcher commits at most one ready descriptor to an engine. -/
  | dispatchCommit (skip : BitVec 16)
  /-- CANCEL (R179): A write of SCH_CANCEL cancels or aborts the named descriptor, depending on where it stands. -/
  | cancel (p : Fin 8) (w : Word)
  /-- START_DEADLINE_PASSED (R178): Local time passes T − 40 ns for a MISS = 1 start and the descriptor or arming is abandoned as skipped. -/
  | startDeadlinePassed (slot : Fin 4096)
  /-- HOST_FLAG_WRITE (R187): A write-masked write of SCH_HFLAG sets or clears the site's host flags. -/
  | hostFlagWrite (p : Fin 8) (site : Fin 16) (w : Word)
  /-- ALLOC (R206): DRC_BCMD.ALLOC allocates a range of user bolts to a site, all or nothing. -/
  | alloc (p : Fin 8) (w : Word)
  /-- FREE (R207): DRC_BCMD.FREE checks a range of bolts and wipes and frees it. -/
  | free (p : Fin 8) (w : Word)
  /-- BOLT_WIPE_END (R207): A bolt wipe ends and the bolt is marked free. -/
  | boltWipeEnd
  /-- WRITE_DRAIN_START (R210): A write queue reaches HIGH or its oldest line waits 1 µs and a drain starts. -/
  | writeDrainStart (c : Fin 32)
  /-- WRITE_DRAIN_END (R210): A draining write queue falls to LOW and the drain ends. -/
  | writeDrainEnd (c : Fin 32)
  /-- DRAM_READ_RETURN (R213): A DRAM read returns its line, corrected or poisoned, to its requester. -/
  | dramReadReturn (line : Fin 805306368) (outcome : Fin 3)
  /-- REFRESH_DUE (R219): A group's refresh interval elapses and its refresh is issued, postponed or forced. -/
  | refreshDue (g : Fin 4) (heavy : Bool)
  /-- REFRESH_ANNOUNCE (R220): A refresh is announced to real-time readers 500 ns before it starts. -/
  | refreshAnnounce (g : Fin 4) (heavy : Bool)
  /-- REFRESH_START (R216): A group refresh begins and occupies its eight pseudo-channels. -/
  | refreshStart (g : Fin 4)
  /-- REFRESH_END (R216): A group refresh completes after tRFC. -/
  | refreshEnd
  /-- STACK_TEMP_POLL (R217): Every 1 ms the controller reads the stack temperature and selects the refresh rate. -/
  | stackTempPoll (t : BitVec 16)
  /-- DRAM_SCRUB_READ (R223): The scrub reads a line and rewrites it corrected or poisoned. -/
  | dramScrubRead (outcome : Fin 3)
  /-- SELF_REFRESH_ENTER (R224): DRC_PWR.ENTER starts self-refresh entry, or is refused. -/
  | selfRefreshEnter (p : Fin 8) (w : Word)
  /-- SELF_REFRESH_ENTRY_END (R225): Queues have drained and the stack enters self-refresh. -/
  | selfRefreshEntryEnd
  /-- SELF_REFRESH_EXIT (R226): DRC_PWR.EXIT starts exit from self-refresh. -/
  | selfRefreshExit (p : Fin 8) (w : Word)
  /-- SELF_REFRESH_EXIT_END (R227): Exit completes, bolts outside the retained part are marked LOST and held requests issue. -/
  | selfRefreshExitEnd
  /-- RING_ENABLE (R228): DRC_SRCFG.ENABLE enables a stream ring if all its bolts are allocated to the site. -/
  | ringEnable (p : Fin 8) (site : Fin 16) (w : Word)
  /-- RESETPOS (R228): DRC_SRCFG.RESETPOS returns the ring positions to 0 and G to size. -/
  | resetpos (p : Fin 8) (site : Fin 16) (w : Word)
  /-- UNMARK (R232): DRC_SRCFG.UNMARK clears the rewind mark. -/
  | unmark (p : Fin 8) (site : Fin 16) (w : Word)
  /-- MARK_SET (R232): A write of DRC_SRMARKHI sets a rewind mark, valid, lost or ignored. -/
  | markSet (p : Fin 8) (site : Fin 16) (w : Word)
  /-- CAPTURE_ENABLE (R256): An ACQ_CAPCFG.EN write enables capture if the region's bolts are allocated to the site. -/
  | captureEnable (p : Fin 8) (site : Fin 16) (w : Word)
  /-- GRANT_WRITE (R259): A grant write is applied, or ignored with GRANT_OVER if the sum would exceed 1,000. -/
  | grantWrite (p : Fin 8) (capture : Bool) (n : Fin 16) (w : Word)
  /-- ACQ_ARM (R261): ACQ_CTL.ARM checks the unit's configuration and arms it. -/
  | acqArm (p : Fin 8) (u : Fin 16) (w : Word)
  /-- ACQ_DISARM (R262): ACQ_CTL.DISARM ends the acquisition at the next item. -/
  | acqDisarm (p : Fin 8) (u : Fin 16) (w : Word)
  /-- ACQ_FORCE (R263): ACQ_CTL.FORCE gives a host trigger at the next offered item. -/
  | acqForce (p : Fin 8) (u : Fin 16) (w : Word)
  /-- ENVELOPE_LOAD_END (R261): The envelope table load at arming ends and items begin to be offered. -/
  | envelopeLoadEnd (u : Fin 16)
  /-- CAPTURE_SAMPLE_ARRIVAL (R260): A sample arrives on a capture stream and is offered to every armed unit attached to it. -/
  | captureSampleArrival (n : Fin 8) (x : BitVec 16) (drained : List (Nat × Nat))
  /-- ACQ_DRAIN_END (R270): The unit's record buffer has drained after offered items stop. -/
  | acqDrainEnd (u : Fin 16)
  /-- LEDGER_ACK (R273): A write of GLB_LGACKHI acknowledges ledger entries. -/
  | ledgerAck (p : Fin 8) (w : Word)
  /-- SEAL (R276): GLB_LGCTL.SEAL closes the ledger span and writes SEAL and SEAL_LOG entries. -/
  | sealSpan (p : Fin 8) (w : Word)
  /-- SEAL_SIGNED (R276): The seal digest is signed and four SEAL_SIG entries are written, or the seal fails. -/
  | sealSigned
  /-- SRC_STREAM_ENABLE (R286): SRC_SPER.EN = 1 starts the slot grid at the anchor, or fails with ENFAIL. -/
  | srcStreamEnable (p : Fin 8) (n : Fin 8) (w : Word)
  /-- SRC_STREAM_DISABLE (R298): SRC_SPER.EN = 0 stops sample blocks and halts the unit. -/
  | srcStreamDisable (p : Fin 8) (n : Fin 8) (w : Word)
  /-- SOURCE_SLOT (R291): A slot time arrives and the unit sends an idle, played or substituted sample and advances its oscillator. -/
  | sourceSlot (n : Fin 8) (fetched : Nat) (beyond : Bool)
  /-- SRC_START (R295): SRC_CTL.START starts an entry, timed or untimed, or redirects a playing unit. -/
  | srcStart (p : Fin 8) (n : Fin 8) (w : Word)
  /-- SRC_REDIRECT (R296): SRC_CTL.REDIRECT requests a switch to ENTRY at an eligible pass end. -/
  | srcRedirect (p : Fin 8) (n : Fin 8) (w : Word)
  /-- SRC_STOP (R296): SRC_CTL.STOP requests a stop at the switch boundary. -/
  | srcStop (p : Fin 8) (n : Fin 8) (w : Word)
  /-- SRC_HALT (R298): SRC_CTL.HALT sends IDLE at once and makes the unit idle. -/
  | srcHalt (p : Fin 8) (n : Fin 8) (w : Word)
  /-- STAMP_INPUT_EDGE (R311, R314): A signal's edge reaches the stamp inputs that watch it; each detects it and holds it off, merges it or stamps it. -/
  | stampInputEdge (c : Fin 136) (low rising : Bool) (code pcode : Fin 2048)
  /-- STAMP_DEQUEUE (R323): A stamp leaves its queue to the record buffer and the interval and frequency units. -/
  | stampDequeue (i : Fin 136) (drained : List (Nat × Nat))
  /-- TDC_LOOP_MEASURE (R318): Every 64 base-clock cycles the replica interpolator measures a period and trims the charge current. -/
  | tdcLoopMeasure (i : Fin 136) (err : BitVec 16) (idac : BitVec 12)
  /-- STAMP_LINE_TIMEOUT (R322): A stamp record line that has waited 1 µs unfilled is written as it stands. -/
  | stampLineTimeout (site : Fin 16) (drained : List (Nat × Nat))
  /-- STAMPER_ENABLE (R313): TDC_IN.EN going from 0 to 1 restarts the edge index and input counters. -/
  | stamperEnable (p : Fin 8) (i : Fin 136) (w : Word)
  /-- STAMP_REGION_ENABLE (R321): TDC_RCTL.EN enables stamp records if the region's bolts are allocated to the site. -/
  | stampRegionEnable (p : Fin 8) (site : Fin 16) (w : Word)
  /-- STAMP_REGION_CLEAR (R322): TDC_RCTL.CLEAR returns the stamp write position to the region start. -/
  | stampRegionClear (p : Fin 8) (site : Fin 16) (w : Word)
  /-- INTERVAL_ARM (R324): TDC_IVCTL.ARM checks and arms an interval unit. -/
  | intervalArm (p : Fin 8) (u : Fin 16) (w : Word)
  /-- INTERVAL_DISARM (R324): TDC_IVCTL.DISARM ends the interval run. -/
  | intervalDisarm (p : Fin 8) (u : Fin 16) (w : Word)
  /-- FREQ_ARM (R328): TDC_FQCTL.ARM checks and arms a frequency unit. -/
  | freqArm (p : Fin 8) (u : Fin 16) (w : Word)
  /-- FREQ_DISARM (R333): TDC_FQCTL.DISARM returns the unit to idle with no result. -/
  | freqDisarm (p : Fin 8) (u : Fin 16) (w : Word)
  /-- FREQ_GATE_CLOSE (R328): A frequency unit's gate closes. -/
  | freqGateClose (u : Fin 16)
  /-- FREQ_FIT_COMPLETE (R330): The least-squares fit completes and period, frequency and residual are reported. -/
  | freqFitComplete (u : Fin 16)
  /-- TIME_SET (R343): A write of TIM_SET2 requests a step of local time and holds dispatch. -/
  | timeSet (p : Fin 8) (w : Word)
  /-- STEP_APPLY (R343): At the first tick boundary with no burst dispatched, pending steps are applied to local time. -/
  | stepApply
  /-- XTAL_TEMP_READ (R340): Every 10 ms the crystal temperature is read and TCOMP recomputed. -/
  | xtalTempRead (temp : BitVec 16)
  /-- AGEING_ADD (R341): Every 3,200,000,000 base-clock cycles TIM_AGE is added to the integrator and ρ. -/
  | ageingAdd
  /-- RATE_SET (R349): A write of TIM_RSET sets ρ and the integrator, or is ignored while a source is chosen. -/
  | rateSet (p : Fin 8) (w : Word)
  /-- SERVO_SOURCE_APPLY (R346): At the next tick boundary a new servo source takes effect and the state becomes acquiring or off. -/
  | servoSourceApply
  /-- SERVO_MEASUREMENT (R347): The servo takes an offset measurement, steers ρ, may request a step and may change lock state. -/
  | servoMeasurement
  /-- SERVO_HOLDOVER (R347): Eight expected intervals pass with no measurement and the servo enters holdover. -/
  | servoHoldover
  /-- RING_REQUEST_SEND (R352): At every PERIOD-th tick a follower sends a REQUEST upstream. -/
  | ringRequestSend
  /-- RING_REQUEST_RECEIVE (R352): The upstream part stamps a REQUEST and sends REPLY and REPLY_TIME. -/
  | ringRequestReceive (lane : Fin 4) (b : Block) (turn : BitVec 48)
  /-- RING_REPLY_RECEIVE (R352): A follower stamps a reply and computes offset and path delay. -/
  | ringReplyReceive (lane : Fin 4) (reply : Block) (time : Block)
  /-- STITCH_EVENT_RAISE (R353): TIM_SEV.GO raises a stitch event and sends an EVENT block. -/
  | stitchEventRaise (p : Fin 8) (w : Word)
  /-- STITCH_EVENT_RECEIVE (R353): An EVENT block arrives on the upstream lane and is forwarded or dropped. -/
  | stitchEventReceive (lane : Fin 4) (b : Block)
  /-- STITCH_EVENT_DELIVER (R354): Local time reaches T and stitch event n is delivered to engines and the scheduler. -/
  | stitchEventDeliver
  /-- PTP_ANNOUNCE (R355): Firmware receives an Announce message and runs master selection. -/
  | ptpAnnounce (m : AnnounceMsg)
  /-- PTP_SYNC (R356): A Sync message arrives and is stamped at the MAC. -/
  | ptpSync (sender : Nat) (seq : Nat) (phase : Nat) (t1 : Option Int) (corr : Int)
  /-- PTP_FOLLOW_UP (R355): A Follow_Up message of a two-step master is received. -/
  | ptpFollowUp (sender : Nat) (seq : Nat) (t1 : Int) (corr : Int)
  /-- PTP_DELAY_REQ (R355): Firmware sends a Delay_Req at the master's interval and it is stamped at the MAC. -/
  | ptpDelayReq
  /-- PTP_DELAY_RESP (R357): A Delay_Resp arrives and the exchange's offset and delay are computed and passed to the servo. -/
  | ptpDelayResp (sender : Nat) (seq : Nat) (t4 : Int) (corr : Int) (interval : Int)
  /-- PTP_OTHER_MESSAGE (R355): A management or signalling message is received and ignored. -/
  | ptpOtherMessage
  /-- PTP_PORT_RESTART (R369): Firmware restarts the PTP port with the settings of TIM_PTP. -/
  | ptpPortRestart
  /-- COMPARE_COUNT_WRITE (R359): A TIM_CMPMODE.COUNT write configures the compare units, or is ignored while a unit is armed. -/
  | compareCountWrite (p : Fin 8) (w : Word)
  /-- COMPARE_ARM (R360): TIM_CMPCTL.ARM reads the target and arms a compare unit. -/
  | compareArm (p : Fin 8) (n : Fin 64) (w : Word)
  /-- COMPARE_DISARM (R370): TIM_CMPCTL.DISARM disarms a compare unit. -/
  | compareDisarm (p : Fin 8) (n : Fin 64) (w : Word)
  /-- COMPARE_FIRE (R361): Local time reaches a compare target and the unit fires its interrupt or stitch action. -/
  | compareFire (n : Fin 64)
  /-- TPO_ARM (R362): TIM_TPOCTL.ARM starts a pulse train, or is ignored with BAD. -/
  | tpoArm (p : Fin 8) (k : Fin 4) (w : Word)
  /-- TPO_DISARM (R362): TIM_TPOCTL.DISARM stops the output after the current pulse. -/
  | tpoDisarm (p : Fin 8) (k : Fin 4) (w : Word)
  /-- TPO_PULSE (R362): A pulse's leading edge time arrives and the output pulses for WIDTH. -/
  | tpoPulse (k : Fin 4)
  /-- TCI_EDGE (R363): A filtered rising edge on TCIn is stamped, queued and used as start event 0x10 + n. -/
  | tciEdge (k : Fin 4) (stable : Nat)
  /-- ALIGNMENT_MARKER (R377): A lane receives an alignment marker, checks BIP and SEQ and advances marker lock and deskew. -/
  | alignmentMarker (l : Fin 28) (b : Block) (apart : Nat) (bip : BitVec 16) (hdr : BitVec 16) (track : Fin 3)
  /-- CDR_LOCK (R378): A lane recovers its clock and settles its filter, leaving CDR. -/
  | cdrLock (l : Fin 28) (step : Fin 32)
  /-- BLOCK_LOCK (R378): A lane counts 64 consecutive valid headers and reaches block lock. -/
  | blockLock (l : Fin 28) (hdr : BitVec 16)
  /-- LOCK_LOSS (R378): A lane loses CDR, block or marker lock and returns to an earlier stage. -/
  | lockLoss (l : Fin 28) (hdr : BitVec 16)
  /-- RATE_HUNT_TIMEOUT (R379): A hunting lane stays in CDR for 10 ms and moves to the next rate. -/
  | rateHuntTimeout (l : Fin 24)
  /-- RATE_STEP_TIMEOUT (R388): A port is not up within 20 ms of a rate step and returns to the previous rate. -/
  | rateStepTimeout (p : Fin 8)
  /-- IDLE (R375): An IDLE control block is received. -/
  | idle (l : Fin 28)
  /-- ACK (R393): An ACK is received and acknowledged packets are released from the replay buffer. -/
  | ack (p : Fin 8) (b : Block)
  /-- NAK (R393): A NAK is received and the sender resends from the named number. -/
  | nak (p : Fin 8) (b : Block)
  /-- CREDIT (R394): A CREDIT block is received and the difference from its last total is taken. -/
  | credit (p : Fin 8) (b : Block)
  /-- XOFF (R396): An XOFF block stops a class or stream sites on a v1 link. -/
  | xoff (p : Fin 8) (b : Block)
  /-- XON (R396): An XON block resumes a class or stream sites on a v1 link. -/
  | xon (p : Fin 8) (b : Block)
  /-- NEG (R387): A NEG block is received, the port comes up at the common version and the session continues or restarts. -/
  | neg (p : Fin 8) (b : Block)
  /-- LSET (R381): An LSET announces the partner's active lane set from a named marker. -/
  | lset (p : Fin 8) (b : Block)
  /-- LREQ (R382): An LREQ names the lanes the partner can use and the device announces a new set. -/
  | lreq (p : Fin 8) (b : Block)
  /-- RATE (R388): A RATE block names a rate and marker after which every lane changes rate. -/
  | rate (p : Fin 8) (b : Block)
  /-- NEG_SEND (R387): Every 256 blocks after deskew the device sends a NEG on every active lane. -/
  | negSend (p : Fin 8)
  /-- CREDIT_REPEAT (R394): At least every 256 blocks the device repeats each class's credit totals or v1 flow state. -/
  | creditRepeat (p : Fin 8)
  /-- ACK_TIMER (R393): At least every 1 µs or 32 packets the receiver sends an ACK. -/
  | ackTimer (p : Fin 8)
  /-- REPLAY_TIMEOUT (R393): Fifty microseconds pass without an advancing ACK and the sender resends from the oldest unacknowledged packet. -/
  | replayTimeout (p : Fin 8)
  /-- REG_RD (R414): A REG_RD packet reads a register and returns a CPL with the word. -/
  | regRd (p : Fin 8) (seq : Fin 4096) (k : Packet)
  /-- REG_WR (R414): A REG_WR packet writes a register after the access checks and returns a CPL with status. -/
  | regWr (p : Fin 8) (seq : Fin 4096) (k : Packet)
  /-- MEM_RD (R391): A MEM_RD packet reads DRAM and returns the data in a CPL. -/
  | memRd (p : Fin 8) (seq : Fin 4096) (k : Packet)
  /-- MEM_WR (R208): A MEM_WR packet writes DRAM if the port may write the bolt, or is refused. -/
  | memWr (p : Fin 8) (seq : Fin 4096) (k : Packet)
  /-- STRM (R392): A STRM packet enters the site's stream ring at W, or is discarded. -/
  | strm (p : Fin 8) (seq : Fin 4096) (k : Packet)
  /-- DBELL (R405): A DBELL packet sets a doorbell bit and wakes the service cores. -/
  | dbell (p : Fin 8) (seq : Fin 4096) (k : Packet)
  /-- QRD (R401): A QRD packet takes up to the requested event words and returns them in a CPL. -/
  | qrd (p : Fin 8) (seq : Fin 4096) (k : Packet)
  /-- MSI (R406): The OR of enabled interrupt causes rises and an MSI packet is sent. -/
  | msi (p : Fin 8)
  /-- MSI_HOLDOFF_END (R406): The MSI holdoff ends and a due MSI is sent if the OR is still 1. -/
  | msiHoldoffEnd (p : Fin 8)
  /-- IRQSTAT_WRITE (R406): A write to LNK_IRQSTAT clears causes and sends another MSI if the OR stays 1. -/
  | irqstatWrite (p : Fin 8) (w : Word)
  /-- EVENT_WORD_ENTER (R399): A chain stage frees and a word moves from the outbound record area into the event chain. -/
  | eventWordEnter (p : Fin 8)
  /-- EVENT_QUEUE_READ (R400): The owner's read of LNK_EVQLO takes the head word into the held word. -/
  | eventQueueRead (p : Fin 8)
  /-- COMMAND_PUSH (R403): A write of LNK_CMDQHI pushes the staged command word without an end mark. -/
  | commandPush (p : Fin 8) (w : Word)
  /-- COMMAND_PUSH_END (R403): A write of LNK_CMDQHIE pushes the staged command word with the end mark. -/
  | commandPushEnd (p : Fin 8) (w : Word)
  /-- EVFLUSH (R404): LNK_QCTL.EVFLUSH discards every word in the event chain and counts it. -/
  | evflush (p : Fin 8) (w : Word)
  /-- CMDFLUSH (R404): LNK_QCTL.CMDFLUSH discards untaken command packets and the packet in progress. -/
  | cmdflush (p : Fin 8) (w : Word)
  /-- ECHO (R410): Service command ECHO returns its argument words. -/
  | echo (p : Fin 8) (busy : Bool)
  /-- FWINFO (R410): Service command FWINFO returns firmware and package versions and the firmware measurement. -/
  | fwinfo (p : Fin 8) (busy : Bool)
  /-- PTPINFO (R410): Service command PTPINFO returns PTP state, grandmaster, offset and delay. -/
  | ptpinfo (p : Fin 8) (busy : Bool)
  /-- RASREAD (R410): Service command RASREAD returns up to 7 RAS records from a position. -/
  | rasread (p : Fin 8) (busy : Bool)
  /-- LOGREAD (R410): Service command LOGREAD returns up to 3 measurement-log entries from a position. -/
  | logread (p : Fin 8) (busy : Bool)
  /-- SERVICE_RESPONSE_POST (R410): A service response waiting for outbound room is posted once room returns. -/
  | serviceResponsePost (p : Fin 8)
  /-- LANE_ENABLE (R378): A LAN_CTL.EN write turns a lane on or off. -/
  | laneEnable (p : Fin 8) (l : Fin 29) (w : Word)
  /-- LANE_RETRAIN (R378): LAN_CTL.RETRAIN restarts a lane from CDR. -/
  | laneRetrain (p : Fin 8) (l : Fin 29) (w : Word)
  /-- LANE_RATE_WRITE (R379): A LAN_CTL.RATE write changes the lane rate and restarts it from CDR. -/
  | laneRateWrite (p : Fin 8) (l : Fin 29) (rate : Fin 4)
  /-- LOOPBACK_SET (R386): A LAN_CTL.LPBK write puts a lane in a loopback after it leaves its bundle. -/
  | loopbackSet (p : Fin 8) (l : Fin 29) (mode : Fin 8)
  /-- PORT_MAP_WRITE (R380): A LNK_PMAP write moves lanes between ports at once. -/
  | portMapWrite (p : Fin 8) (i : Fin 2) (w : Word)
  /-- MAILBOX_SELECT (R425): A MBX_SEL write selects a wide value and starts a latch, or sets BADSEL, BUSY or DROPPED. -/
  | mailboxSelect (p : Fin 8) (w : Word)
  /-- MAILBOX_LATCH_COMPLETE (R425): The selected value is captured whole and VALID becomes 1. -/
  | mailboxLatchComplete (p : Fin 8)
  /-- MAILBOX_LAST_READ (R426): The owner reads MBX_DATA(WORDS − 1) and VALID clears. -/
  | mailboxLastRead (p : Fin 8)
  /-- CLEAR_ON_READ (R8): The owner reads an RC field, which returns its count and clears it. -/
  | clearOnRead (p : Fin 8) (x : RcReg)
  /-- ASSIGNMENT_WRITE (R429): A GLB_ACQSITE or GLB_SRCSITE write reassigns idle units to sites. -/
  | assignmentWrite (p : Fin 8) (i : Fin 3) (w : Word)
  /-- REGISTER_WRITE (R414): A write to a register with no row of its own passes the access checks and acts as its type states. -/
  | registerWrite (p : Fin 8) (a : BitVec 26) (w : Word)
  /-- CAL_RUN (R434): CAL_CMD.RUN starts a calibration run of a quantity and holds the affected sites. -/
  | calRun (p : Fin 8) (w : Word)
  /-- CAL_PASSES_BEGIN (R438): Once the affected sites are idle, pass A of a run begins. -/
  | calPassesBegin
  /-- CAL_RUN_END (R434): Pass B ends and the run is accepted into the shadow set or rejected with a code. -/
  | calRunEnd (pass : List PassItem)
  /-- CAL_COMMIT (R440): CAL_CMD.COMMIT starts a host commit of the shadow values of a quantity. -/
  | calCommit (p : Fin 8) (w : Word)
  /-- CAL_COMMIT_APPLY (R437): At its apply point a commit copies its snapshot into the active values. -/
  | calCommitApply
  /-- CAL_DISCARD (R439): CAL_CMD.DISCARD ends the current calibration operation and lifts the hold. -/
  | calDiscard (p : Fin 8) (w : Word)
  /-- VIN_SAMPLE (R450): Every 10 µs VIN is measured and VIN_LOW is raised below 8.7 V. -/
  | vinSample (vin : BitVec 16) (pin : BitVec 16) (rails : List (BitVec 16)) (cores : List (BitVec 16))
  /-- POWER_FAIL (R450): VIN below 8.2 V for 2 µs or a rail out of its window for 1 µs parks outputs and holds power-on reset. -/
  | powerFail (rail : Option (Fin 8)) (low : Nat)
  /-- POWER_ON_RESET (R452): VIN rises above 8.8 V, or a power fail ends, and the power-on sequence runs. -/
  | powerOnReset
  /-- RESET_N_ASSERT (R451): RESET_N low for at least 1 µs starts a cold reset. -/
  | resetNAssert (low : Nat)
  /-- COLD (R451): GLB_RST.COLD starts a cold reset. -/
  | cold (p : Fin 8) (w : Word)
  /-- WARM (R453): GLB_RST.WARM starts a warm reset that ends every descriptor before the wipe. -/
  | warm (p : Fin 8) (w : Word)
  /-- RELEASE_POINT (R339): At the release point local time becomes 0, the servo is off and units are disarmed. -/
  | releasePoint (profile : Option (List Byte)) (flash : List Byte)
  /-- READY (R452): Boot, DRAM wipe and package load end, GLB_STAT.READY becomes 1 and GLB_BOOTTIME is recorded. -/
  | ready (pkg : List Byte) (passed : BitVec 16)
  /-- WATCHDOG_EXPIRY (R454): The watchdog times out without a kick and starts a warm reset. -/
  | watchdogExpiry
  /-- KICK (R454): GLB_WDOG.KICK restarts the watchdog. -/
  | kick (p : Option (Fin 8)) (w : Word)
  /-- STANDBY (R456): GLB_PWR.STANDBY runs the standby sequence, or is refused. -/
  | standby (p : Fin 8) (w : Word)
  /-- RESUME (R458): GLB_PWR.RESUME reverses the standby sequence. -/
  | resume (p : Fin 8) (w : Word)
  /-- WAKE_N_FALL (R458): A falling edge on WAKE_N starts resume. -/
  | wakeNFall (high : Nat) (low : Nat)
  /-- RESUME_DISPATCH_RESTART (R458): Once DRAM has exited and cuff PLLs are locked, dispatch and delay-list release restart. -/
  | resumeDispatchRestart
  /-- LIFECYCLE_TRANSITION (R461): TRU_LCREQ.GO performs an allowed life-cycle transition and a cold reset, or fails. -/
  | lifecycleTransition (p : Fin 8) (w : Word) (cut : Bool)
  /-- IMAGE_START (R468): TRU_IMGCTL.START begins an image load of a kind. -/
  | imageStart (p : Fin 8) (w : Word)
  /-- IMAGE_DATA (R468): A TRU_IMGDATA write appends 4 bytes to the image load. -/
  | imageData (p : Fin 8) (w : Word)
  /-- IMAGE_FINISH (R468): TRU_IMGCTL.FINISH starts the check of the loaded image. -/
  | imageFinish (p : Fin 8) (w : Word)
  /-- IMAGE_ABORT (R468): TRU_IMGCTL.ABORT drops the image load. -/
  | imageAbort (p : Fin 8) (w : Word)
  /-- IMAGE_CHECK_END (R466): The image checks end; firmware runs via warm reset, a package loads, or the image is rejected. -/
  | imageCheckEnd
  /-- SVN_WRITE (R469): A TRU_SVN write raises minimum SVNs or revokes a key, or is refused. -/
  | svnWrite (p : Fin 8) (w : Word)
  /-- LOG_SELECT (R471): A TRU_LOGSEL write selects a measurement-log entry and updates LOG_GONE and the data words. -/
  | logSelect (p : Fin 8) (w : Word)
  /-- QUOTE_GO (R472): TRU_QCTL.GO snapshots the nonce and queues a quote. -/
  | quoteGo (p : Fin 8) (w : Word)
  /-- QUOTE_SIGNED (R472): The trust engine builds and signs the quote body and sets DONE, or fails with NOKEY. -/
  | quoteSigned
  /-- SRAM_ERROR (R477): A protected SRAM item reads with an error and acts under Table 15.1. -/
  | sramError (x : SramItem) (corrected : Bool) (island : Fin 41) (addr : BitVec 64)
  /-- CUFF_PLL_LOCK_LOST (R478): A cuff loses PLL lock and the bursts of its sites end with PLL_LOST. -/
  | cuffPllLockLost (k : Fin 8)
  /-- SRAM_SCRUB_READ (R480): The SRAM scrub reads a word and rewrites, invalidates or repairs it. -/
  | sramScrubRead (x : SramItem) (outcome : Fin 3) (island : Fin 41) (addr : BitVec 64)
  /-- WITHDRAW (R483): RAS_ENGCMD.WITHDRAW withdraws an engine and ends its burst and descriptors that require it. -/
  | withdraw (p : Fin 8) (w : Word)
  /-- REINSTATE (R484): RAS_ENGCMD.REINSTATE starts a march test on a withdrawn engine. -/
  | reinstate (p : Fin 8) (w : Word)
  /-- MARCH_TEST_END (R484): The march test ends and the engine is reinstated or stays withdrawn. -/
  | marchTestEnd (pass : Bool)
  /-- RAS_LOG_SELECT (R489): A RAS_LOGSEL write selects the RAS record shown in RAS_LOGDATA. -/
  | rasLogSelect (p : Fin 8) (w : Word)
  /-- TAP_RESET (R507): TRST_N or a TAP reset returns the boundary cells and releases the balls to the core. -/
  | tapReset (trst : Option Nat)
  /-- BYPASS (R506): JTAG instruction BYPASS selects the bypass register. -/
  | bypass (tdi : Bool)
  /-- IDCODE (R506): JTAG instruction IDCODE shifts out 0x1912_8567. -/
  | idcode
  /-- SAMPLE_PRELOAD (R506): JTAG instruction SAMPLE/PRELOAD samples and preloads the boundary cells. -/
  | samplePreload (sample : List Bool) (preload : List Bool)
  /-- EXTEST (R507): JTAG instruction EXTEST gives the balls to the boundary cells and holds dispatch. -/
  | extest (sample : List Bool) (shifted : List Bool)
  /-- CLAMP (R507): JTAG instruction CLAMP holds the balls at preloaded values and holds dispatch. -/
  | clamp (tdi : Bool)
  /-- HIGHZ (R507): JTAG instruction HIGHZ leaves the balls undriven and holds dispatch. -/
  | highz (tdi : Bool)
  /-- EXTEST_PULSE (R507): JTAG instruction EXTEST_PULSE tests AC-coupled pairs and holds dispatch. -/
  | extestPulse (sample : List Bool) (shifted : List Bool)
  /-- EXTEST_TRAIN (R507): JTAG instruction EXTEST_TRAIN tests AC-coupled pairs with a pulse train and holds dispatch. -/
  | extestTrain (sample : List Bool) (shifted : List Bool)
  /-- TIMING_SET_COMMIT (R130): A write of CUF_TSCOMMIT.GO snapshots the staged period, edges and formats of a set for a site and starts validation, or is ignored with BUSY. -/
  | timingSetCommit (p : Fin 8) (site : Fin 16) (w : Word)
  /-- TIMING_SET_INVALIDATE (R133): A write of CUF_TSCOMMIT.INVAL clears the valid bit of a set for a site, or is ignored with BUSY while a burst is dispatched. -/
  | timingSetInvalidate (p : Fin 8) (site : Fin 16) (w : Word)
  /-- TIMING_SET_VALIDATION_END (R131): Validation of a timing-set commit ends within 2 µs; it either records a reject code or applies the snapshot, at once or from the apply point. -/
  | timingSetValidationEnd (site : Fin 16)
  /-- CUFF_PLL_LOCK (R478): A cuff's 3.2 GHz PLL regains lock, CUF_PLL.LOCK becomes 1, and the scheduler may again commit to the affected sites. -/
  | cuffPllLock (k : Fin 8)
  /-- FREQ_GATE_OPEN (R328): Local time reaches a frequency unit's gate open time, and TDC_FQSTAT.STATE goes from waiting for the gate to gate open. -/
  | freqGateOpen (u : Fin 16)
  /-- BAD_CRC (R393): A received packet has a bad CRC or a sequence gap, so the receiver sends NAK and discards packets until the expected number arrives. -/
  | badCrc (p : Fin 8)
deriving DecidableEq, Repr

end Sys2Proof
end

