-- ==== Sys2Proof/Decode.lean ====
section
/-! DEFINITION. Decode: the commands that spec/opcode_table.json gives bits to. -/
namespace Sys2Proof

/-- The command that the bits of a word of the opcode table spell: the table gives no row bits, so there is none. -/
def decodeTableWord (_nbits _w : Nat) : Option Instr := none

end Sys2Proof
end

