-- ==== Sys2Proof/Machine/Bits.lean ====
section
/-! DEFINITION. Bit fields of words, signed numbers, and little-endian bytes (00_scope.md R6). -/
namespace Sys2Proof.Machine

/-- The number in bits [hi:lo] of a word. -/
def bits {n : Nat} (w : BitVec n) (hi lo : Nat) : Nat := w.toNat / 2 ^ lo % 2 ^ (hi + 1 - lo)

/-- Bit `i` of a word as a Bool. -/
def bit {n : Nat} (w : BitVec n) (i : Nat) : Bool := w.getLsbD i

/-- A number with bits [hi:lo] replaced by the low bits of `v`. -/
def setBitsN (w hi lo v : Nat) : Nat :=
  w - w / 2 ^ lo % 2 ^ (hi + 1 - lo) * 2 ^ lo + v % 2 ^ (hi + 1 - lo) * 2 ^ lo

/-- A word with bits [hi:lo] replaced by the low bits of `v`. -/
def setBits {n : Nat} (w : BitVec n) (hi lo v : Nat) : BitVec n := BitVec.ofNat n (setBitsN w.toNat hi lo v)

/-- A word with bit `i` replaced. -/
def setBit {n : Nat} (w : BitVec n) (i : Nat) (b : Bool) : BitVec n := setBits w i i b.toNat

/-- A word whose bits are the fields (low bit, width, value) of a layout table; the fields do not overlap. -/
def pack (n : Nat) (fs : List (Nat × Nat × Nat)) : BitVec n :=
  BitVec.ofNat n ((fs.map fun f => f.2.2 % 2 ^ f.2.1 * 2 ^ f.1).sum)

/-- The `k` low bits of a number read as a signed number in two's complement. -/
def signed (k v : Nat) : Int :=
  if v % 2 ^ k < 2 ^ (k - 1) then (v % 2 ^ k : Nat) else (v % 2 ^ k : Nat) - (2 ^ k : Nat)

/-- A signed number as `k` bits in two's complement. -/
def unsigned (k : Nat) (x : Int) : Nat := (x % (2 ^ k : Nat)).toNat

/-- A number held at the greatest value of `k` bits: counters that saturate. -/
def sat (k v : Nat) : Nat := min v (2 ^ k - 1)

/-- A number held between two bounds. -/
def clampInt (lo hi x : Int) : Int := max lo (min hi x)

/-- R6: the `k` bytes of a number, lowest first. -/
def toBytes : Nat → Nat → List Byte
  | 0, _ => []
  | k + 1, v => BitVec.ofNat 8 v :: toBytes k (v / 256)

/-- R6: the number whose bytes, lowest first, are the list. -/
def ofBytes : List Byte → Nat
  | [] => 0
  | b :: bs => b.toNat + 256 * ofBytes bs

/-- The 64-bit word in bytes [8i+7 : 8i] of a list of bytes. -/
def qwordAt (bs : List Byte) (i : Nat) : Word64 := BitVec.ofNat 64 (ofBytes ((bs.drop (8 * i)).take 8))

/-- Bit `i` of a number that is a set of indices. -/
def inSet (m i : Nat) : Bool := m.testBit i

/-- The indices below `n` that a set holds, in ascending order. -/
def members (n m : Nat) : List Nat := (List.range n).filter (inSet m ·)

/-- The set of the indices of a list. -/
def setOf (l : List Nat) : Nat := l.foldl (fun m i => m ||| 2 ^ i) 0

/-- The number of elements of a set below `n`. -/
def card (n m : Nat) : Nat := (members n m).length

/-- A field of eight bits whose 0 means 256. -/
def or256 (v : Nat) : Nat := if v = 0 then 256 else v

end Sys2Proof.Machine
end

