-- ==== Sys2Proof/Machine/Digest.lean ====
section
/-! DEFINITION. SHA-256 and CRC-32, which the spec names for its measurements, seals, quotes and saved images
(02_asell_programs.md R74, 07_capture_and_acquisition.md R276, 14_power_reset_and_trust.md R464, R470). -/
namespace Sys2Proof.Machine

/-! ### SHA-256 (FIPS 180-4) -/

/-- A word rotated right. -/
def rotr (x : Word) (k : Nat) : Word := (x >>> k) ||| (x <<< (32 - k))

/-- Eight 32-bit words written as one number, the first in its highest bits. -/
def shaEight (v : Nat) : List Word := (List.range 8).map fun i => BitVec.ofNat 32 (v / 2 ^ (224 - 32 * i))

/-- The 64 round constants, the first 32 bits of the fractional parts of the cube roots of the first 64 primes,
eight to a number. -/
def shaRounds : List Word :=
  [0x428a2f9871374491b5c0fbcfe9b5dba53956c25b59f111f1923f82a4ab1c5ed5,
   0xd807aa9812835b01243185be550c7dc372be5d7480deb1fe9bdc06a7c19bf174,
   0xe49b69c1efbe47860fc19dc6240ca1cc2de92c6f4a7484aa5cb0a9dc76f988da,
   0x983e5152a831c66db00327c8bf597fc7c6e00bf3d5a7914706ca635114292967,
   0x27b70a852e1b21384d2c6dfc53380d13650a7354766a0abb81c2c92e92722c85,
   0xa2bfe8a1a81a664bc24b8b70c76c51a3d192e819d6990624f40e3585106aa070,
   0x19a4c1161e376c082748774c34b0bcb5391c0cb34ed8aa4a5b9cca4f682e6ff3,
   0x748f82ee78a5636f84c878148cc7020890befffaa4506cebbef9a3f7c67178f2].flatMap shaEight

/-- The initial hash value, the same bits of the square roots of the first eight primes. -/
def shaInit : List Word := shaEight 0x6a09e667bb67ae853c6ef372a54ff53a510e527f9b05688c1f83d9ab5be0cd19

/-- The message schedule: `k` further words after those of the list, which is newest first. -/
def shaSchedule : Nat → List Word → List Word
  | 0, w => w.reverse
  | k + 1, w =>
    let g (i : Nat) : Word := (w[i]?).getD 0
    let s0 := rotr (g 14) 7 ^^^ rotr (g 14) 18 ^^^ (g 14 >>> 3)
    let s1 := rotr (g 1) 17 ^^^ rotr (g 1) 19 ^^^ (g 1 >>> 10)
    shaSchedule k ((g 15 + s0 + g 6 + s1) :: w)

/-- One round. -/
def shaRound (s : List Word) (kw : Word × Word) : List Word :=
  match s with
  | [a, b, c, d, e, f, g, h] =>
    let t1 := h + (rotr e 6 ^^^ rotr e 11 ^^^ rotr e 25) + ((e &&& f) ^^^ (~~~e &&& g)) + kw.1 + kw.2
    let t2 := (rotr a 2 ^^^ rotr a 13 ^^^ rotr a 22) + ((a &&& b) ^^^ (a &&& c) ^^^ (b &&& c))
    [t1 + t2, a, b, c, d + t1, e, f, g]
  | _ => s

/-- A big-endian word of four bytes. -/
def shaWord (bs : List Byte) : Word := bs.foldl (fun w b => (w <<< 8) ||| b.setWidth 32) 0

/-- The sixteen words of a block, newest first. -/
def shaBlockWords (bs : List Byte) : List Word := ((List.range 16).map fun i => shaWord ((bs.drop (4 * i)).take 4)).reverse

/-- The hash value after a block of 64 bytes. -/
def shaBlock (h : List Word) (bs : List Byte) : List Word :=
  let w := shaSchedule 48 (shaBlockWords bs)
  (h.zip ((shaRounds.zip w).foldl shaRound h)).map fun p => p.1 + p.2

/-- The hash value after the first `n` blocks of a message. -/
def shaBlocks : Nat → List Word → List Byte → List Word
  | 0, h, _ => h
  | n + 1, h, bs => shaBlocks n (shaBlock h (bs.take 64)) (bs.drop 64)

/-- The padded message. -/
def shaPad (bs : List Byte) : List Byte :=
  bs ++ [0x80] ++ List.replicate ((119 - bs.length % 64) % 64) 0 ++ (toBytes 8 (8 * bs.length)).reverse

/-- SHA-256 as a number whose little-endian bytes are the digest's bytes in order (00_scope.md R6). -/
def sha256 (bs : List Byte) : Nat :=
  let m := shaPad bs
  ofBytes ((shaBlocks (m.length / 64) shaInit m).flatMap fun w => (toBytes 4 w.toNat).reverse)

/-- The 32 bytes of a digest. -/
def digestBytes (v : Nat) : List Byte := toBytes 32 v

/-! ### CRC-32 -/

/-- Eight steps of the reflected polynomial 0xEDB88320. -/
def crcSteps : Nat → Nat → Nat
  | 0, c => c
  | k + 1, c => crcSteps k (if c % 2 = 1 then (c / 2) ^^^ 0xEDB88320 else c / 2)

/-- CRC-32 as IEEE 802.3 defines it. -/
def crc32 (bs : List Byte) : Nat :=
  (bs.foldl (fun c b => crcSteps 8 (c ^^^ b.toNat)) 0xFFFFFFFF) ^^^ 0xFFFFFFFF

end Sys2Proof.Machine
end

