-- ==== Sys2Proof/Machine/Ecdsa.lean ====
section
/-! DEFINITION. ECDSA over P-256 with SHA-256 as FIPS 186-5 defines it, with the deterministic nonce of RFC 6979 and s at most n/2
(14_power_reset_and_trust.md R463, R464). -/
namespace Sys2Proof.Machine

/-! ### The curve -/

/-- P-256: the field prime, the group order, the coefficient b (a is -3), and the generator's coordinates. -/
def fieldP : Nat := 2 ^ 256 - 2 ^ 224 + 2 ^ 192 + 2 ^ 96 - 1
def orderN : Nat := 0xffffffff00000000ffffffffffffffffbce6faada7179e84f3b9cac2fc632551
def curveB : Nat := 0x5ac635d8aa3a93e7b3ebbd55769886bc651d06b0cc53b0f63bce3c3e27d2604b
def genX : Nat := 0x6b17d1f2e12c4247f8bce6e563a440f277037d812deb33a0f4a13945d898c296
def genY : Nat := 0x4fe342e2fe1a7f9b8ee7eb4a7c0f9e162bce33576b315ececbb6406837bf51f5

/-- A power modulo `m`; the exponent has at most as many bits as the first argument says. -/
def powMod (m : Nat) : Nat → Nat → Nat → Nat
  | 0, _, _ => 1
  | k + 1, b, e => (if e % 2 = 1 then b else 1) * powMod m k (b * b % m) (e / 2) % m

/-- The inverse modulo a prime of at most 256 bits. -/
def invMod (m a : Nat) : Nat := powMod m 256 (a % m) (m - 2)

/-- A difference modulo `m`. -/
def subMod (m a b : Nat) : Nat := (a + (m - b % m)) % m

/-- A point in Jacobian coordinates; z is 0 at infinity. -/
structure Point where
  x : Nat
  y : Nat
  z : Nat

def Point.infinity : Point := ⟨1, 1, 0⟩
def Point.generator : Point := ⟨genX, genY, 1⟩

/-- Twice a point. -/
def Point.double (q : Point) : Point :=
  let p := fieldP
  let d := q.z * q.z % p
  let g := q.y * q.y % p
  let u := q.x * g % p
  let a := 3 * subMod p q.x d * (q.x + d) % p
  let x := subMod p (a * a) (8 * u)
  ⟨x, subMod p (a * subMod p (4 * u) x) (8 * g * g), 2 * q.y * q.z % p⟩

/-- The sum of two points. -/
def Point.add (q r : Point) : Point :=
  if q.z = 0 then r
  else if r.z = 0 then q
  else
    let p := fieldP
    let zq := q.z * q.z % p
    let zr := r.z * r.z % p
    let u1 := q.x * zr % p
    let s1 := q.y * zr * r.z % p
    let h := subMod p (r.x * zq) u1
    let t := subMod p (r.y * zq * q.z) s1
    if h = 0 then (if t = 0 then q.double else .infinity)
    else
      let h2 := h * h % p
      let h3 := h2 * h % p
      let v := u1 * h2 % p
      let x := subMod p (t * t) (h3 + 2 * v)
      ⟨x, subMod p (t * subMod p v x) (s1 * h3), h * q.z * r.z % p⟩

/-- A multiple of a point: `k` bits of the factor, the lowest first. -/
def Point.times : Nat → Nat → Point → Point
  | 0, _, _ => .infinity
  | k + 1, n, q =>
    let r := Point.times k (n / 2) q.double
    if n % 2 = 1 then q.add r else r

/-- The affine coordinates of a point other than infinity. -/
def Point.affine (q : Point) : Nat × Nat :=
  let i := invMod fieldP q.z
  let i2 := i * i % fieldP
  (q.x * i2 % fieldP, q.y * i2 * i % fieldP)

/-- R463: the public key of a private scalar: x, and y above it. -/
@[irreducible] def publicKey (key : Nat) : Nat :=
  let q := (Point.generator.times 256 key).affine
  q.1 + 2 ^ 256 * q.2

/-! ### The nonce (RFC 6979) -/

/-- 32 bytes as a number, and a number as 32 bytes, the highest first. -/
def ofBig (bs : List Byte) : Nat := ofBytes bs.reverse
def toBig (v : Nat) : List Byte := (toBytes 32 v).reverse

/-- SHA-256 in bytes, and HMAC with a key of 32 bytes. -/
def shaBytes (bs : List Byte) : List Byte := digestBytes (sha256 bs)
def hmac (key bs : List Byte) : List Byte :=
  let pad (c : Byte) : List Byte := key.map (· ^^^ c) ++ List.replicate 32 c
  shaBytes (pad 0x5c ++ shaBytes (pad 0x36 ++ bs))

/-- FIPS 186-5: the signature under a nonce, where it is one; s is at most n/2 (R464). -/
def signWith (key e k : Nat) : Option (Nat × Nat) :=
  let r := ((Point.generator.times 256 k).affine).1 % orderN
  let s := invMod orderN k * (e + r * key) % orderN
  if k = 0 ∨ orderN ≤ k ∨ r = 0 ∨ s = 0 then none else some (r, if orderN / 2 < s then orderN - s else s)

/-- RFC 6979, step h: candidates for the nonce, until one gives a signature (DESIGN CHOICE, log 9). -/
def nonceSign (key e : Nat) : Nat → List Byte → List Byte → Nat × Nat
  | 0, _, _ => (0, 0)
  | n + 1, k, v =>
    let v := hmac k v
    match signWith key e (ofBig v) with
    | some g => g
    | none =>
      let k := hmac k (v ++ [0])
      nonceSign key e n k (hmac k v)

/-- R464: the signature r, s of a digest, in the form of `sha256`, under a private scalar. -/
@[irreducible] def ecdsaSign (key digest : Nat) : Nat × Nat :=
  let e := ofBig (digestBytes digest) % orderN
  let x := toBig key ++ toBig e
  let v := List.replicate 32 1
  let k := hmac (List.replicate 32 0) (v ++ [0] ++ x)
  let v := hmac k v
  let k := hmac k (v ++ [1] ++ x)
  nonceSign key e 256 k (hmac k v)

/-! ### Verification -/

/-- Whether x, y is a point of the curve. -/
def onCurve (x y : Nat) : Bool :=
  decide (x < fieldP) && decide (y < fieldP) && decide (y * y % fieldP = subMod fieldP (x * x * x + curveB) (3 * x))

/-- R464: whether r, s is a signature of a digest under a public key. -/
@[irreducible] def ecdsaVerify (pub digest : Nat) (sig : Nat × Nat) : Bool :=
  let x := pub % 2 ^ 256
  let y := pub / 2 ^ 256
  if sig.1 = 0 ∨ orderN ≤ sig.1 ∨ sig.2 = 0 ∨ orderN ≤ sig.2 ∨ !onCurve x y then false
  else
    let w := invMod orderN sig.2
    let q := (Point.generator.times 256 (ofBig (digestBytes digest) % orderN * w % orderN)).add (Point.times 256 (sig.1 * w % orderN) ⟨x, y, 1⟩)
    q.z ≠ 0 && q.affine.1 % orderN = sig.1

end Sys2Proof.Machine
end

