-- ==== Sys2Proof/Config.lean ====
section
/-! DEFINITION. Config: what the spec leaves open or to the outside, as constants without a body.
No proof can see a value of them (DESIGN CHOICE, log 7, DESIGN CHOICE, log 9, DESIGN CHOICE, log 10). -/
namespace Sys2Proof.Config

/-- The k-th free value, a number: the values the spec leaves open (DESIGN CHOICE, log 7). -/
opaque freeNat (k : Nat) : Nat
/-- The k-th free choice between two outcomes the spec leaves open (DESIGN CHOICE, log 7). -/
opaque freeBool (k : Nat) : Bool
/-- Whether the deskew of a stamp input is added to its stamps, or taken from them: the spec gives no sign (DESIGN CHOICE, log 7). -/
opaque skewAdds : Bool
/-- The check bits of a microword's bits [167:0]: a Hamming code whose matrix the spec does not give (R81). -/
opaque hammingCheck (w : Nat) : Nat
/-- Words of the standard microcode package of a measurement: horizontal word, nano-word, micro-pointer and the low bits of
a directory entry (03_engines_and_microcode.md R86; DESIGN CHOICE, log 10). -/
opaque stdHorizontal (image addr : Nat) : Nat
opaque stdNano (image addr : Nat) : Nat
opaque stdPointer (image addr : Nat) : Nat
opaque stdDirectory (image entry : Nat) : Nat
/-- The package's twin map: the micro-pointer and run offset of a horizontal word's equivalent, as in Table 3.4 (R86, DESIGN CHOICE, log 10). -/
opaque stdTwin (image addr : Nat) : Nat
/-- The boundary cell of a ball: the description file, which the spec leaves to Oalum, gives their order
(16_electrical_and_package.md R506; DESIGN CHOICE, log 78). -/
opaque boundaryCell (ball : Nat) : Nat
/-- What the device's random source gives for a private scalar (14_power_reset_and_trust.md R463; DESIGN CHOICE, log 9). -/
opaque randomScalar (k : Nat) : Nat
/-- The part's serial number, and the hashes of the vendor keys in its one-time-programmable store (R465, R466; DESIGN CHOICE, log 70). -/
opaque serial : Nat
opaque vendorHash (j : Nat) : Nat
/-- The measurement of a firmware image or of a package: the spec does not give the bytes it covers (R470; DEDUCED, log 71). -/
opaque imageMeasure (img : List Byte) : Nat
/-- GLB_VERUCODE.LOADED, 16 bits, of a package's 32-bit VERSION: the spec does not give the mapping (12_register_interface.md R428; DEDUCED, log 72). -/
opaque loadedVersion (version : Nat) : Nat

end Sys2Proof.Config
end

