-- ==== Sys2Proof/Machine/RegMap.lean ====
section
/-! DEFINITION. The register map: one constructor of `Reg` per register of the spec's register tables,
its byte address, the register an address decodes to (12_register_interface.md R411, R412), and the masks
and the reset value that the register tables give its fields. -/
namespace Sys2Proof.Machine

/-- The registers of the 64 MiB register space, under the spec's names.
The arguments of a constructor are the indices of the register's array, in the order of its address formula. -/
inductive Reg where
  /-- 12_register_interface.md R428. -/
  | GLB_ID
  /-- 12_register_interface.md R428. -/
  | GLB_REV
  /-- 12_register_interface.md R428. -/
  | GLB_STAT
  /-- 12_register_interface.md R428. -/
  | GLB_VERLOAD
  /-- 12_register_interface.md R428. -/
  | GLB_VERUCODE
  /-- 12_register_interface.md R428. -/
  | GLB_VERLINK
  /-- 12_register_interface.md R428. -/
  | GLB_VERLEDGER
  /-- 12_register_interface.md R428. -/
  | GLB_VERFW
  /-- 12_register_interface.md R428. -/
  | GLB_ACQSITE (i : Nat)
  /-- 12_register_interface.md R428. -/
  | GLB_SRCSITE
  /-- 14_power_reset_and_trust.md R473. -/
  | GLB_RST
  /-- 14_power_reset_and_trust.md R473. -/
  | GLB_RSTCAUSE
  /-- 14_power_reset_and_trust.md R473. -/
  | GLB_PWR
  /-- 14_power_reset_and_trust.md R473. -/
  | GLB_PWRSTAT
  /-- 14_power_reset_and_trust.md R473. -/
  | GLB_VIN
  /-- 14_power_reset_and_trust.md R473. -/
  | GLB_WDOG
  /-- 14_power_reset_and_trust.md R473. -/
  | GLB_RAIL (k : Nat)
  /-- 14_power_reset_and_trust.md R473. -/
  | GLB_VTRIM (i : Nat)
  /-- 01_burst_path.md R28. -/
  | GLB_SSC
  /-- 01_burst_path.md R29. -/
  | GLB_GRAD
  /-- 01_burst_path.md R30. -/
  | GLB_GRADPAIR
  /-- 01_burst_path.md R31. -/
  | GLB_ISLE (i : Nat)
  /-- 07_capture_and_acquisition.md R282. -/
  | GLB_LGCTL
  /-- 07_capture_and_acquisition.md R282. -/
  | GLB_LGSTAT
  /-- 07_capture_and_acquisition.md R282. -/
  | GLB_LGACKLO
  /-- 07_capture_and_acquisition.md R282. -/
  | GLB_LGACKHI
  /-- 05_sites_and_dispatch.md R188. -/
  | SCH_CTL
  /-- 05_sites_and_dispatch.md R189. -/
  | SCH_STAT
  /-- 05_sites_and_dispatch.md R190. -/
  | SCH_ENGEN
  /-- 05_sites_and_dispatch.md R191. -/
  | SCH_PLOCK
  /-- 05_sites_and_dispatch.md R192. -/
  | SCH_SUBMIT (p : Nat) (i : Nat)
  /-- 05_sites_and_dispatch.md R193. -/
  | SCH_CANCEL (p : Nat)
  /-- 05_sites_and_dispatch.md R194. -/
  | SCH_QUOTA (p : Nat)
  /-- 05_sites_and_dispatch.md R195. -/
  | SCH_PSTAT (p : Nat)
  /-- 05_sites_and_dispatch.md R196. -/
  | SCH_LDBOLT (p : Nat)
  /-- 05_sites_and_dispatch.md R196. -/
  | SCH_LDCTL (p : Nat)
  /-- 05_sites_and_dispatch.md R196. -/
  | SCH_LDSTAT (p : Nat)
  /-- 05_sites_and_dispatch.md R197. -/
  | SCH_SITECH (s : Nat) (i : Nat)
  /-- 05_sites_and_dispatch.md R198. -/
  | SCH_SITECTL (s : Nat)
  /-- 05_sites_and_dispatch.md R199. -/
  | SCH_SITESTAT (s : Nat)
  /-- 05_sites_and_dispatch.md R200. -/
  | SCH_HFLAG (s : Nat)
  /-- 05_sites_and_dispatch.md R201. -/
  | SCH_SITECMD (s : Nat)
  /-- 03_engines_and_microcode.md R103. -/
  | ENG_STAT (e : Nat)
  /-- 03_engines_and_microcode.md R104. -/
  | ENG_TRAP (e : Nat)
  /-- 03_engines_and_microcode.md R105. -/
  | ENG_CSERR (e : Nat)
  /-- 03_engines_and_microcode.md R106. -/
  | ENG_STRETCH (e : Nat)
  /-- 03_engines_and_microcode.md R107. -/
  | ENG_UREG (e : Nat)
  /-- 03_engines_and_microcode.md R108. -/
  | ENG_CTL (e : Nat)
  /-- 04_timing_sets_and_edges.md R143. -/
  | CUF_EDGE_LO (c : Nat) (t : Nat) (g : Nat)
  /-- 04_timing_sets_and_edges.md R143. -/
  | CUF_EDGE_HI (c : Nat) (t : Nat) (g : Nat)
  /-- 04_timing_sets_and_edges.md R144. -/
  | CUF_FMT (c : Nat) (t : Nat)
  /-- 04_timing_sets_and_edges.md R145. -/
  | CUF_CHSTAT (c : Nat)
  /-- 04_timing_sets_and_edges.md R146. -/
  | CUF_CHCTL (c : Nat)
  /-- 04_timing_sets_and_edges.md R147. -/
  | CUF_COLLCNT (c : Nat)
  /-- 04_timing_sets_and_edges.md R148. -/
  | CUF_PERIOD_LO (s : Nat) (t : Nat)
  /-- 04_timing_sets_and_edges.md R148. -/
  | CUF_PERIOD_HI (s : Nat) (t : Nat)
  /-- 04_timing_sets_and_edges.md R149. -/
  | CUF_TSCOMMIT (s : Nat)
  /-- 04_timing_sets_and_edges.md R150. -/
  | CUF_TSSTAT (s : Nat)
  /-- 04_timing_sets_and_edges.md R151. -/
  | CUF_TSVALID (s : Nat) (i : Nat)
  /-- 04_timing_sets_and_edges.md R152. -/
  | CUF_SYMMAP (k : Nat) (n : Nat)
  /-- 04_timing_sets_and_edges.md R153. -/
  | CUF_PLL (k : Nat)
  /-- 07_capture_and_acquisition.md R278. -/
  | ACQ_CTL (u : Nat)
  /-- 07_capture_and_acquisition.md R278. -/
  | ACQ_STAT (u : Nat)
  /-- 07_capture_and_acquisition.md R278. -/
  | ACQ_ATTACH (u : Nat)
  /-- 07_capture_and_acquisition.md R278. -/
  | ACQ_GRANT (u : Nat)
  /-- 07_capture_and_acquisition.md R279. -/
  | ACQ_TRIG (u : Nat)
  /-- 07_capture_and_acquisition.md R279. -/
  | ACQ_TLEVEL (u : Nat)
  /-- 07_capture_and_acquisition.md R279. -/
  | ACQ_PRE (u : Nat)
  /-- 07_capture_and_acquisition.md R279. -/
  | ACQ_POST (u : Nat)
  /-- 07_capture_and_acquisition.md R279. -/
  | ACQ_DEC (u : Nat)
  /-- 07_capture_and_acquisition.md R279. -/
  | ACQ_MASKCTL (u : Nat)
  /-- 07_capture_and_acquisition.md R279. -/
  | ACQ_RBASE (u : Nat)
  /-- 07_capture_and_acquisition.md R279. -/
  | ACQ_ENVTAB (u : Nat)
  /-- 07_capture_and_acquisition.md R280. -/
  | ACQ_GRP (u : Nat) (i : Nat)
  /-- 07_capture_and_acquisition.md R280. -/
  | ACQ_PWORD (u : Nat)
  /-- 07_capture_and_acquisition.md R280. -/
  | ACQ_PCARE (u : Nat)
  /-- 07_capture_and_acquisition.md R280. -/
  | ACQ_EXPECT (u : Nat)
  /-- 07_capture_and_acquisition.md R280. -/
  | ACQ_ECARE (u : Nat)
  /-- 07_capture_and_acquisition.md R280. -/
  | ACQ_GOPEN (u : Nat) (i : Nat)
  /-- 07_capture_and_acquisition.md R280. -/
  | ACQ_GCLOSE (u : Nat) (i : Nat)
  /-- 07_capture_and_acquisition.md R280. -/
  | ACQ_MINMAX (u : Nat)
  /-- 07_capture_and_acquisition.md R280. -/
  | ACQ_MEAN (u : Nat)
  /-- 07_capture_and_acquisition.md R280. -/
  | ACQ_RMS (u : Nat)
  /-- 07_capture_and_acquisition.md R281. -/
  | ACQ_CAPBASE (s : Nat)
  /-- 07_capture_and_acquisition.md R281. -/
  | ACQ_CAPCFG (s : Nat)
  /-- 07_capture_and_acquisition.md R281. -/
  | ACQ_CAPGRANT (s : Nat)
  /-- 07_capture_and_acquisition.md R281. -/
  | ACQ_CAPSTAT (s : Nat)
  /-- 07_capture_and_acquisition.md R281. -/
  | ACQ_SPER (n : Nat)
  /-- 08_waveform_source.md R304. -/
  | SRC_CTL (n : Nat)
  /-- 08_waveform_source.md R305. -/
  | SRC_STAT (n : Nat)
  /-- 08_waveform_source.md R306. -/
  | SRC_CFG (n : Nat)
  /-- 08_waveform_source.md R307. -/
  | SRC_SPER (n : Nat)
  /-- 08_waveform_source.md R308. -/
  | SRC_RBASE (n : Nat)
  /-- 08_waveform_source.md R308. -/
  | SRC_TBASE (n : Nat)
  /-- 08_waveform_source.md R308. -/
  | SRC_TSTART (n : Nat) (i : Nat)
  /-- 06_pattern_memory.md R239. -/
  | DRC_STAT
  /-- 06_pattern_memory.md R240. -/
  | DRC_WQ
  /-- 06_pattern_memory.md R241. -/
  | DRC_REF
  /-- 06_pattern_memory.md R242. -/
  | DRC_TEMP
  /-- 06_pattern_memory.md R243. -/
  | DRC_TREF
  /-- 06_pattern_memory.md R244. -/
  | DRC_PWR
  /-- 06_pattern_memory.md R245. -/
  | DRC_SCRUB
  /-- 06_pattern_memory.md R246. -/
  | DRC_BRANGE
  /-- 06_pattern_memory.md R246. -/
  | DRC_BCMD
  /-- 06_pattern_memory.md R246. -/
  | DRC_BSTAT
  /-- 06_pattern_memory.md R247. -/
  | DRC_BMAP (i : Nat)
  /-- 06_pattern_memory.md R248. -/
  | DRC_SRBASE (s : Nat)
  /-- 06_pattern_memory.md R248. -/
  | DRC_SRCFG (s : Nat)
  /-- 06_pattern_memory.md R249. -/
  | DRC_SRMARKLO (s : Nat)
  /-- 06_pattern_memory.md R249. -/
  | DRC_SRMARKHI (s : Nat)
  /-- 06_pattern_memory.md R250. -/
  | DRC_SRSTAT (s : Nat)
  /-- 10_time_base_and_alignment.md R367. -/
  | TIM_STAT
  /-- 10_time_base_and_alignment.md R367. -/
  | TIM_CTL
  /-- 10_time_base_and_alignment.md R367. -/
  | TIM_RSET
  /-- 10_time_base_and_alignment.md R367. -/
  | TIM_AGE
  /-- 10_time_base_and_alignment.md R367. -/
  | TIM_TCOMP
  /-- 10_time_base_and_alignment.md R367. -/
  | TIM_XTEMP
  /-- 10_time_base_and_alignment.md R367. -/
  | TIM_SERVO
  /-- 10_time_base_and_alignment.md R367. -/
  | TIM_LOCK
  /-- 10_time_base_and_alignment.md R368. -/
  | TIM_RING
  /-- 10_time_base_and_alignment.md R368. -/
  | TIM_RINGSTAT
  /-- 10_time_base_and_alignment.md R368. -/
  | TIM_SEVCFG
  /-- 10_time_base_and_alignment.md R368. -/
  | TIM_SEV
  /-- 10_time_base_and_alignment.md R368. -/
  | TIM_SEVSTAT
  /-- 10_time_base_and_alignment.md R369. -/
  | TIM_PTP
  /-- 10_time_base_and_alignment.md R369. -/
  | TIM_PTPSTAT
  /-- 10_time_base_and_alignment.md R369. -/
  | TIM_PTPASYM
  /-- 10_time_base_and_alignment.md R370. -/
  | TIM_CMPMODE
  /-- 10_time_base_and_alignment.md R367. -/
  | TIM_SET (i : Nat)
  /-- 10_time_base_and_alignment.md R370. -/
  | TIM_CMPOWN (i : Nat)
  /-- 10_time_base_and_alignment.md R370. -/
  | TIM_CMPCTL (n : Nat)
  /-- 10_time_base_and_alignment.md R370. -/
  | TIM_CMPT (n : Nat) (i : Nat)
  /-- 10_time_base_and_alignment.md R371. -/
  | TIM_TPOCTL (k : Nat)
  /-- 10_time_base_and_alignment.md R371. -/
  | TIM_TPOSTART (k : Nat) (i : Nat)
  /-- 10_time_base_and_alignment.md R371. -/
  | TIM_TPOPER0 (k : Nat)
  /-- 10_time_base_and_alignment.md R371. -/
  | TIM_TPOPER1 (k : Nat)
  /-- 10_time_base_and_alignment.md R371. -/
  | TIM_TPOWIDTH (k : Nat)
  /-- 10_time_base_and_alignment.md R371. -/
  | TIM_TPOCOUNT (k : Nat)
  /-- 10_time_base_and_alignment.md R371. -/
  | TIM_TCICTL (k : Nat)
  /-- 10_time_base_and_alignment.md R371. -/
  | TIM_TCISTAT (k : Nat)
  /-- 09_time_measurement.md R331. -/
  | TDC_STAT
  /-- 09_time_measurement.md R331. -/
  | TDC_IN (i : Nat)
  /-- 09_time_measurement.md R331. -/
  | TDC_HOLD (i : Nat)
  /-- 09_time_measurement.md R331. -/
  | TDC_ISTAT (i : Nat)
  /-- 09_time_measurement.md R331. -/
  | TDC_LOOP (i : Nat)
  /-- 09_time_measurement.md R332. -/
  | TDC_RBASE (s : Nat)
  /-- 09_time_measurement.md R332. -/
  | TDC_RCTL (s : Nat)
  /-- 09_time_measurement.md R332. -/
  | TDC_RSTAT (s : Nat)
  /-- 09_time_measurement.md R333. -/
  | TDC_IVCFG (u : Nat)
  /-- 09_time_measurement.md R333. -/
  | TDC_IVCTL (u : Nat)
  /-- 09_time_measurement.md R333. -/
  | TDC_IVSTAT (u : Nat)
  /-- 09_time_measurement.md R333. -/
  | TDC_IVLIM (u : Nat)
  /-- 09_time_measurement.md R333. -/
  | TDC_FQCFG (u : Nat)
  /-- 09_time_measurement.md R333. -/
  | TDC_FQCTL (u : Nat)
  /-- 09_time_measurement.md R333. -/
  | TDC_FQSTAT (u : Nat)
  /-- 09_time_measurement.md R333. -/
  | TDC_GOPEN (u : Nat) (w : Nat)
  /-- 09_time_measurement.md R333. -/
  | TDC_GCLOSE (u : Nat) (w : Nat)
  /-- 11_lanes_and_host_link.md R407. -/
  | LAN_CTL (l : Nat)
  /-- 11_lanes_and_host_link.md R407. -/
  | LAN_STAT (l : Nat)
  /-- 11_lanes_and_host_link.md R407. -/
  | LAN_EQ (l : Nat)
  /-- 11_lanes_and_host_link.md R407. -/
  | LAN_TXEQ (l : Nat)
  /-- 11_lanes_and_host_link.md R407. -/
  | LAN_ERRCFG (l : Nat)
  /-- 11_lanes_and_host_link.md R407. -/
  | LAN_ERR (l : Nat)
  /-- 11_lanes_and_host_link.md R407. -/
  | LAN_MAC0
  /-- 11_lanes_and_host_link.md R407. -/
  | LAN_MAC1
  /-- 11_lanes_and_host_link.md R408. -/
  | LNK_GSTAT
  /-- 11_lanes_and_host_link.md R408. -/
  | LNK_BOARDID
  /-- 11_lanes_and_host_link.md R408. -/
  | LNK_PMAP (i : Nat)
  /-- 11_lanes_and_host_link.md R408. -/
  | LNK_PSTAT (p : Nat)
  /-- 11_lanes_and_host_link.md R408. -/
  | LNK_PERR (p : Nat)
  /-- 11_lanes_and_host_link.md R408. -/
  | LNK_QCTL (p : Nat)
  /-- 11_lanes_and_host_link.md R408. -/
  | LNK_QSTAT (p : Nat)
  /-- 11_lanes_and_host_link.md R408. -/
  | LNK_EVQLO (p : Nat)
  /-- 11_lanes_and_host_link.md R408. -/
  | LNK_EVQHI (p : Nat)
  /-- 11_lanes_and_host_link.md R408. -/
  | LNK_CMDQLO (p : Nat)
  /-- 11_lanes_and_host_link.md R408. -/
  | LNK_CMDQHI (p : Nat)
  /-- 11_lanes_and_host_link.md R408. -/
  | LNK_CMDQHIE (p : Nat)
  /-- 11_lanes_and_host_link.md R408. -/
  | LNK_IRQEN (p : Nat)
  /-- 11_lanes_and_host_link.md R408. -/
  | LNK_IRQSTAT (p : Nat)
  /-- 11_lanes_and_host_link.md R408. -/
  | LNK_IRQMOD (p : Nat)
  /-- 11_lanes_and_host_link.md R408. -/
  | LNK_MSIADDRLO (p : Nat)
  /-- 11_lanes_and_host_link.md R408. -/
  | LNK_MSIADDRHI (p : Nat)
  /-- 11_lanes_and_host_link.md R408. -/
  | LNK_MSIDATA (p : Nat)
  /-- 11_lanes_and_host_link.md R408. -/
  | LNK_DBELL (p : Nat)
  /-- 12_register_interface.md R427. -/
  | MBX_SEL (p : Nat)
  /-- 12_register_interface.md R427. -/
  | MBX_STAT (p : Nat)
  /-- 12_register_interface.md R427. -/
  | MBX_DATA (p : Nat) (w : Nat)
  /-- 13_calibration.md R446. -/
  | CAL_CMD
  /-- 13_calibration.md R446. -/
  | CAL_STAT
  /-- 13_calibration.md R446. -/
  | CAL_DUE
  /-- 13_calibration.md R446. -/
  | CAL_LINSEL
  /-- 13_calibration.md R446. -/
  | CAL_QSTAT (q : Nat)
  /-- 13_calibration.md R447. -/
  | CAL_DRV (a : Nat) (c : Nat)
  /-- 13_calibration.md R447. -/
  | CAL_STB (a : Nat) (c : Nat)
  /-- 13_calibration.md R447. -/
  | CAL_SKEW (a : Nat) (i : Nat)
  /-- 13_calibration.md R447. -/
  | CAL_BOARD (a : Nat) (c : Nat)
  /-- 13_calibration.md R447. -/
  | CAL_PHASE (k : Nat)
  /-- 13_calibration.md R447. -/
  | CAL_BASET (a : Nat) (n : Nat)
  /-- 13_calibration.md R447. -/
  | CAL_LTX (a : Nat) (l : Nat)
  /-- 13_calibration.md R447. -/
  | CAL_LRX (a : Nat) (l : Nat)
  /-- 13_calibration.md R447. -/
  | CAL_LEXT0 (a : Nat) (l : Nat)
  /-- 13_calibration.md R447. -/
  | CAL_LEXT1 (a : Nat) (l : Nat)
  /-- 13_calibration.md R447. -/
  | CAL_XC (a : Nat) (m : Nat)
  /-- 14_power_reset_and_trust.md R474. -/
  | TRU_STAT
  /-- 14_power_reset_and_trust.md R474. -/
  | TRU_LCREQ
  /-- 14_power_reset_and_trust.md R474. -/
  | TRU_LCSTAT
  /-- 14_power_reset_and_trust.md R474. -/
  | TRU_IMGCTL
  /-- 14_power_reset_and_trust.md R474. -/
  | TRU_IMGDATA
  /-- 14_power_reset_and_trust.md R474. -/
  | TRU_IMGSTAT
  /-- 14_power_reset_and_trust.md R474. -/
  | TRU_SVN
  /-- 14_power_reset_and_trust.md R474. -/
  | TRU_LOGSEL
  /-- 14_power_reset_and_trust.md R474. -/
  | TRU_LOGDATA (w : Nat)
  /-- 14_power_reset_and_trust.md R474. -/
  | TRU_IDKEY (w : Nat)
  /-- 14_power_reset_and_trust.md R474. -/
  | TRU_QNONCE (p : Nat) (w : Nat)
  /-- 14_power_reset_and_trust.md R474. -/
  | TRU_QCTL (p : Nat)
  /-- 14_power_reset_and_trust.md R474. -/
  | TRU_QSTAT (p : Nat)
  /-- 14_power_reset_and_trust.md R474. -/
  | TRU_QBODY (p : Nat) (w : Nat)
  /-- 15_dependability.md R489. -/
  | RAS_STAT
  /-- 15_dependability.md R489. -/
  | RAS_CTL
  /-- 15_dependability.md R489. -/
  | RAS_ALERTEN
  /-- 15_dependability.md R489. -/
  | RAS_ENGCFG
  /-- 15_dependability.md R489. -/
  | RAS_ENGCMD
  /-- 15_dependability.md R489. -/
  | RAS_ENGSTAT
  /-- 15_dependability.md R489. -/
  | RAS_SCRUB
  /-- 15_dependability.md R489. -/
  | RAS_LOGSEL
  /-- 15_dependability.md R489. -/
  | RAS_LOGSTAT
  /-- 15_dependability.md R489. -/
  | RAS_LOGDATA (w : Nat)
  /-- 15_dependability.md R489. -/
  | RAS_SEAMFENCE (i : Nat)
deriving DecidableEq, Repr

/-- The byte address of a register (the layout tables of the chapters). -/
def Reg.addr : Reg → Nat
  | .GLB_ID => 0x0
  | .GLB_REV => 0x4
  | .GLB_STAT => 0x8
  | .GLB_VERLOAD => 0x10
  | .GLB_VERUCODE => 0x14
  | .GLB_VERLINK => 0x18
  | .GLB_VERLEDGER => 0x1C
  | .GLB_VERFW => 0x20
  | .GLB_ACQSITE i => 0x40 + 0x4 * i
  | .GLB_SRCSITE => 0x48
  | .GLB_RST => 0x200
  | .GLB_RSTCAUSE => 0x204
  | .GLB_PWR => 0x208
  | .GLB_PWRSTAT => 0x20C
  | .GLB_VIN => 0x210
  | .GLB_WDOG => 0x214
  | .GLB_RAIL k => 0x220 + 0x4 * k
  | .GLB_VTRIM i => 0x240 + 0x4 * i
  | .GLB_SSC => 0x300
  | .GLB_GRAD => 0x304
  | .GLB_GRADPAIR => 0x308
  | .GLB_ISLE i => 0x400 + 0x4 * i
  | .GLB_LGCTL => 0x600
  | .GLB_LGSTAT => 0x604
  | .GLB_LGACKLO => 0x608
  | .GLB_LGACKHI => 0x60C
  | .SCH_CTL => 0x100000
  | .SCH_STAT => 0x100004
  | .SCH_ENGEN => 0x100008
  | .SCH_PLOCK => 0x10000C
  | .SCH_SUBMIT p i => 0x101000 + 0x100 * p + 0x4 * i
  | .SCH_CANCEL p => 0x101020 + 0x100 * p
  | .SCH_QUOTA p => 0x101024 + 0x100 * p
  | .SCH_PSTAT p => 0x101028 + 0x100 * p
  | .SCH_LDBOLT p => 0x101040 + 0x100 * p
  | .SCH_LDCTL p => 0x101044 + 0x100 * p
  | .SCH_LDSTAT p => 0x101048 + 0x100 * p
  | .SCH_SITECH s i => 0x104000 + 0x40 * s + 0x4 * i
  | .SCH_SITECTL s => 0x104010 + 0x40 * s
  | .SCH_SITESTAT s => 0x104014 + 0x40 * s
  | .SCH_HFLAG s => 0x104018 + 0x40 * s
  | .SCH_SITECMD s => 0x10401C + 0x40 * s
  | .ENG_STAT e => 0x200000 + 0x10000 * e
  | .ENG_TRAP e => 0x200004 + 0x10000 * e
  | .ENG_CSERR e => 0x200008 + 0x10000 * e
  | .ENG_STRETCH e => 0x20000C + 0x10000 * e
  | .ENG_UREG e => 0x200010 + 0x10000 * e
  | .ENG_CTL e => 0x200014 + 0x10000 * e
  | .CUF_EDGE_LO c t g => 0x300000 + 0x2000 * c + 0x40 * t + 0x8 * g
  | .CUF_EDGE_HI c t g => 0x300004 + 0x2000 * c + 0x40 * t + 0x8 * g
  | .CUF_FMT c t => 0x300030 + 0x2000 * c + 0x40 * t
  | .CUF_CHSTAT c => 0x301000 + 0x2000 * c
  | .CUF_CHCTL c => 0x301004 + 0x2000 * c
  | .CUF_COLLCNT c => 0x301008 + 0x2000 * c
  | .CUF_PERIOD_LO s t => 0x301400 + 0x2000 * s + 0x8 * t
  | .CUF_PERIOD_HI s t => 0x301404 + 0x2000 * s + 0x8 * t
  | .CUF_TSCOMMIT s => 0x301600 + 0x2000 * s
  | .CUF_TSSTAT s => 0x301604 + 0x2000 * s
  | .CUF_TSVALID s i => 0x301608 + 0x2000 * s + 0x4 * i
  | .CUF_SYMMAP k n => 0x301800 + 0x20000 * k + 0x4 * n
  | .CUF_PLL k => 0x301840 + 0x20000 * k
  | .ACQ_CTL u => 0x400000 + 0x10000 * u
  | .ACQ_STAT u => 0x400004 + 0x10000 * u
  | .ACQ_ATTACH u => 0x400008 + 0x10000 * u
  | .ACQ_GRANT u => 0x40000C + 0x10000 * u
  | .ACQ_TRIG u => 0x400010 + 0x10000 * u
  | .ACQ_TLEVEL u => 0x400014 + 0x10000 * u
  | .ACQ_PRE u => 0x400018 + 0x10000 * u
  | .ACQ_POST u => 0x40001C + 0x10000 * u
  | .ACQ_DEC u => 0x400020 + 0x10000 * u
  | .ACQ_MASKCTL u => 0x400024 + 0x10000 * u
  | .ACQ_RBASE u => 0x400028 + 0x10000 * u
  | .ACQ_ENVTAB u => 0x40002C + 0x10000 * u
  | .ACQ_GRP u i => 0x400030 + 0x10000 * u + 0x4 * i
  | .ACQ_PWORD u => 0x400040 + 0x10000 * u
  | .ACQ_PCARE u => 0x400044 + 0x10000 * u
  | .ACQ_EXPECT u => 0x400048 + 0x10000 * u
  | .ACQ_ECARE u => 0x40004C + 0x10000 * u
  | .ACQ_GOPEN u i => 0x400050 + 0x10000 * u + 0x4 * i
  | .ACQ_GCLOSE u i => 0x400060 + 0x10000 * u + 0x4 * i
  | .ACQ_MINMAX u => 0x400070 + 0x10000 * u
  | .ACQ_MEAN u => 0x400074 + 0x10000 * u
  | .ACQ_RMS u => 0x400078 + 0x10000 * u
  | .ACQ_CAPBASE s => 0x408000 + 0x10000 * s
  | .ACQ_CAPCFG s => 0x408004 + 0x10000 * s
  | .ACQ_CAPGRANT s => 0x408008 + 0x10000 * s
  | .ACQ_CAPSTAT s => 0x40800C + 0x10000 * s
  | .ACQ_SPER n => 0x409000 + 0x10000 * n
  | .SRC_CTL n => 0x500000 + 0x10000 * n
  | .SRC_STAT n => 0x500004 + 0x10000 * n
  | .SRC_CFG n => 0x500008 + 0x10000 * n
  | .SRC_SPER n => 0x50000C + 0x10000 * n
  | .SRC_RBASE n => 0x500010 + 0x10000 * n
  | .SRC_TBASE n => 0x500014 + 0x10000 * n
  | .SRC_TSTART n i => 0x500018 + 0x10000 * n + 0x4 * i
  | .DRC_STAT => 0x600000
  | .DRC_WQ => 0x600004
  | .DRC_REF => 0x600008
  | .DRC_TEMP => 0x60000C
  | .DRC_TREF => 0x600010
  | .DRC_PWR => 0x600014
  | .DRC_SCRUB => 0x600018
  | .DRC_BRANGE => 0x600020
  | .DRC_BCMD => 0x600024
  | .DRC_BSTAT => 0x600028
  | .DRC_BMAP i => 0x601000 + 0x4 * i
  | .DRC_SRBASE s => 0x608000 + 0x40 * s
  | .DRC_SRCFG s => 0x608004 + 0x40 * s
  | .DRC_SRMARKLO s => 0x608008 + 0x40 * s
  | .DRC_SRMARKHI s => 0x60800C + 0x40 * s
  | .DRC_SRSTAT s => 0x608010 + 0x40 * s
  | .TIM_STAT => 0x700000
  | .TIM_CTL => 0x700004
  | .TIM_RSET => 0x700014
  | .TIM_AGE => 0x700018
  | .TIM_TCOMP => 0x70001C
  | .TIM_XTEMP => 0x700020
  | .TIM_SERVO => 0x700024
  | .TIM_LOCK => 0x700028
  | .TIM_RING => 0x700030
  | .TIM_RINGSTAT => 0x700034
  | .TIM_SEVCFG => 0x700038
  | .TIM_SEV => 0x70003C
  | .TIM_SEVSTAT => 0x700040
  | .TIM_PTP => 0x700050
  | .TIM_PTPSTAT => 0x700054
  | .TIM_PTPASYM => 0x700058
  | .TIM_CMPMODE => 0x700060
  | .TIM_SET i => 0x700008 + 0x4 * i
  | .TIM_CMPOWN i => 0x700080 + 0x4 * i
  | .TIM_CMPCTL n => 0x701000 + 0x10 * n
  | .TIM_CMPT n i => 0x701004 + 0x10 * n + 0x4 * i
  | .TIM_TPOCTL k => 0x702000 + 0x40 * k
  | .TIM_TPOSTART k i => 0x702004 + 0x40 * k + 0x4 * i
  | .TIM_TPOPER0 k => 0x702010 + 0x40 * k
  | .TIM_TPOPER1 k => 0x702014 + 0x40 * k
  | .TIM_TPOWIDTH k => 0x702018 + 0x40 * k
  | .TIM_TPOCOUNT k => 0x70201C + 0x40 * k
  | .TIM_TCICTL k => 0x703000 + 0x10 * k
  | .TIM_TCISTAT k => 0x703004 + 0x10 * k
  | .TDC_STAT => 0x780000
  | .TDC_IN i => 0x781000 + 0x10 * i
  | .TDC_HOLD i => 0x781004 + 0x10 * i
  | .TDC_ISTAT i => 0x781008 + 0x10 * i
  | .TDC_LOOP i => 0x78100C + 0x10 * i
  | .TDC_RBASE s => 0x782000 + 0x10 * s
  | .TDC_RCTL s => 0x782004 + 0x10 * s
  | .TDC_RSTAT s => 0x782008 + 0x10 * s
  | .TDC_IVCFG u => 0x783000 + 0x10 * u
  | .TDC_IVCTL u => 0x783004 + 0x10 * u
  | .TDC_IVSTAT u => 0x783008 + 0x10 * u
  | .TDC_IVLIM u => 0x78300C + 0x10 * u
  | .TDC_FQCFG u => 0x784000 + 0x40 * u
  | .TDC_FQCTL u => 0x784004 + 0x40 * u
  | .TDC_FQSTAT u => 0x784008 + 0x40 * u
  | .TDC_GOPEN u w => 0x784010 + 0x40 * u + 0x4 * w
  | .TDC_GCLOSE u w => 0x784020 + 0x40 * u + 0x4 * w
  | .LAN_CTL l => 0x800000 + 0x1000 * l
  | .LAN_STAT l => 0x800004 + 0x1000 * l
  | .LAN_EQ l => 0x800008 + 0x1000 * l
  | .LAN_TXEQ l => 0x80000C + 0x1000 * l
  | .LAN_ERRCFG l => 0x800010 + 0x1000 * l
  | .LAN_ERR l => 0x800014 + 0x1000 * l
  | .LAN_MAC0 => 0x81C020
  | .LAN_MAC1 => 0x81C024
  | .LNK_GSTAT => 0x900000
  | .LNK_BOARDID => 0x900004
  | .LNK_PMAP i => 0x900008 + 0x4 * i
  | .LNK_PSTAT p => 0x901000 + 0x400 * p
  | .LNK_PERR p => 0x901004 + 0x400 * p
  | .LNK_QCTL p => 0x901008 + 0x400 * p
  | .LNK_QSTAT p => 0x90100C + 0x400 * p
  | .LNK_EVQLO p => 0x901010 + 0x400 * p
  | .LNK_EVQHI p => 0x901014 + 0x400 * p
  | .LNK_CMDQLO p => 0x901018 + 0x400 * p
  | .LNK_CMDQHI p => 0x90101C + 0x400 * p
  | .LNK_CMDQHIE p => 0x901020 + 0x400 * p
  | .LNK_IRQEN p => 0x901024 + 0x400 * p
  | .LNK_IRQSTAT p => 0x901028 + 0x400 * p
  | .LNK_IRQMOD p => 0x90102C + 0x400 * p
  | .LNK_MSIADDRLO p => 0x901030 + 0x400 * p
  | .LNK_MSIADDRHI p => 0x901034 + 0x400 * p
  | .LNK_MSIDATA p => 0x901038 + 0x400 * p
  | .LNK_DBELL p => 0x90103C + 0x400 * p
  | .MBX_SEL p => 0x901100 + 0x400 * p
  | .MBX_STAT p => 0x901104 + 0x400 * p
  | .MBX_DATA p w => 0x901110 + 0x400 * p + 0x4 * w
  | .CAL_CMD => 0xA00000
  | .CAL_STAT => 0xA00004
  | .CAL_DUE => 0xA00008
  | .CAL_LINSEL => 0xA0000C
  | .CAL_QSTAT q => 0xA00014 + 0x4 * q
  | .CAL_DRV a c => 0xA01000 + 0x2000 * a + 0x10 * c
  | .CAL_STB a c => 0xA01004 + 0x2000 * a + 0x10 * c
  | .CAL_SKEW a i => 0xA01008 + 0x2000 * a + 0x10 * i
  | .CAL_BOARD a c => 0xA0100C + 0x2000 * a + 0x10 * c
  | .CAL_PHASE k => 0xA01900 + 0x4 * k
  | .CAL_BASET a n => 0xA01920 + 0x2000 * a + 0x4 * n
  | .CAL_LTX a l => 0xA01A00 + 0x2000 * a + 0x10 * l
  | .CAL_LRX a l => 0xA01A04 + 0x2000 * a + 0x10 * l
  | .CAL_LEXT0 a l => 0xA01A08 + 0x2000 * a + 0x10 * l
  | .CAL_LEXT1 a l => 0xA01A0C + 0x2000 * a + 0x10 * l
  | .CAL_XC a m => 0xA01B00 + 0x2000 * a + 0x4 * m
  | .TRU_STAT => 0xB00000
  | .TRU_LCREQ => 0xB00004
  | .TRU_LCSTAT => 0xB00008
  | .TRU_IMGCTL => 0xB00010
  | .TRU_IMGDATA => 0xB00014
  | .TRU_IMGSTAT => 0xB00018
  | .TRU_SVN => 0xB0001C
  | .TRU_LOGSEL => 0xB00020
  | .TRU_LOGDATA w => 0xB00040 + 0x4 * w
  | .TRU_IDKEY w => 0xB00100 + 0x4 * w
  | .TRU_QNONCE p w => 0xB01000 + 0x100 * p + 0x4 * w
  | .TRU_QCTL p => 0xB01020 + 0x100 * p
  | .TRU_QSTAT p => 0xB01024 + 0x100 * p
  | .TRU_QBODY p w => 0xB01040 + 0x100 * p + 0x4 * w
  | .RAS_STAT => 0xC00000
  | .RAS_CTL => 0xC00004
  | .RAS_ALERTEN => 0xC00008
  | .RAS_ENGCFG => 0xC0000C
  | .RAS_ENGCMD => 0xC00010
  | .RAS_ENGSTAT => 0xC00014
  | .RAS_SCRUB => 0xC00018
  | .RAS_LOGSEL => 0xC00020
  | .RAS_LOGSTAT => 0xC00024
  | .RAS_LOGDATA w => 0xC00040 + 0x4 * w
  | .RAS_SEAMFENCE i => 0xC00080 + 0x4 * i

/-- R8, Table 0.6: which bits of a register a write stores (`rw`), clears when written 1 (`w1c`), a read clears (`rc`),
lock under the partition lock (`lk`), and command bits, which act and read 0 (`cmd`); `reset` is the reset word. -/
structure Row where
  rw : Nat := 0
  w1c : Nat := 0
  rc : Nat := 0
  lk : Nat := 0
  cmd : Nat := 0
  reset : Nat := 0
deriving DecidableEq, Repr

/-- The row of each register, from the Type and Reset columns of the register tables. -/
def Reg.row : Reg → Row
  | .GLB_ID => { reset := 0xA1A9128 }
  | .GLB_REV => { reset := 0x1000000 }
  | .GLB_STAT => { w1c := 0x60000000 }
  | .GLB_VERLOAD => { reset := 0x1030001 }
  | .GLB_VERUCODE => { reset := 0x100 }
  | .GLB_VERLINK => { reset := 0x7 }
  | .GLB_VERLEDGER => { reset := 0x100 }
  | .GLB_VERFW => { }
  | .GLB_ACQSITE i => { rw := 0xFFFFFFFF, lk := 0xFFFFFFFF, reset := if i = 0 then 0x76543210 else 0xFEDCBA98 }
  | .GLB_SRCSITE => { rw := 0xFFFFFFFF, lk := 0xFFFFFFFF, reset := 0x76543210 }
  | .GLB_RST => { cmd := 0xC0000000 }
  | .GLB_RSTCAUSE => { }
  | .GLB_PWR => { rw := 0x20000000, cmd := 0xC0000000 }
  | .GLB_PWRSTAT => { w1c := 0x30000000 }
  | .GLB_VIN => { }
  | .GLB_WDOG => { rw := 0x8000FFFF, cmd := 0x40000000, reset := 0x800003E8 }
  | .GLB_RAIL _ => { }
  | .GLB_VTRIM _ => { rw := 0x7F }
  | .GLB_SSC => { rw := 0x3 }
  | .GLB_GRAD => { rw := 0xFF, w1c := 0x80000000, reset := 0xA }
  | .GLB_GRADPAIR => { }
  | .GLB_ISLE _ => { }
  | .GLB_LGCTL => { cmd := 0x80000000 }
  | .GLB_LGSTAT => { w1c := 0x5C000000 }
  | .GLB_LGACKLO => { rw := 0xFFFFFFFF }
  | .GLB_LGACKHI => { rw := 0xFFFFFFFF }
  | .SCH_CTL => { rw := 0x80FFFFFF, reset := 0x80404003 }
  | .SCH_STAT => { }
  | .SCH_ENGEN => { rw := 0xFFFF, lk := 0xFFFF, reset := 0xFFFF }
  | .SCH_PLOCK => { rw := 0x1 }
  | .SCH_SUBMIT _ _ => { rw := 0xFFFFFFFF }
  | .SCH_CANCEL _ => { cmd := 0xFFFFFFFF }
  | .SCH_QUOTA _ => { rw := 0x1FFF, lk := 0x1FFF }
  | .SCH_PSTAT _ => { w1c := 0x80000000 }
  | .SCH_LDBOLT _ => { rw := 0x7FFF }
  | .SCH_LDCTL _ => { rw := 0xF03FF, cmd := 0xC0000000 }
  | .SCH_LDSTAT _ => { w1c := 0x60000000 }
  | .SCH_SITECH _ _ => { rw := 0xFFFFFFFF, lk := 0xFFFFFFFF }
  | .SCH_SITECTL _ => { rw := 0xC0000007, lk := 0xC0000007 }
  | .SCH_SITESTAT _ => { w1c := 0x88000, reset := 0x40000000 }
  | .SCH_HFLAG _ => { rw := 0xFF }
  | .SCH_SITECMD _ => { lk := 0x80000000, cmd := 0xE0000000 }
  | .ENG_STAT _ => { }
  | .ENG_TRAP _ => { rc := 0xFFFF }
  | .ENG_CSERR _ => { w1c := 0xC0000000, rc := 0xFF00000 }
  | .ENG_STRETCH _ => { }
  | .ENG_UREG _ => { }
  | .ENG_CTL _ => { rw := 0x3, reset := 0x1 }
  | .CUF_EDGE_LO _ _ _ => { rw := 0xFFFFFFFF }
  | .CUF_EDGE_HI _ _ _ => { rw := 0x1F }
  | .CUF_FMT _ _ => { rw := 0x7 }
  | .CUF_CHSTAT _ => { w1c := 0xE0000000 }
  | .CUF_CHCTL _ => { rw := 0x3 }
  | .CUF_COLLCNT _ => { rc := 0xFFFFFFFF }
  | .CUF_PERIOD_LO _ _ => { rw := 0xFFFFFFFF }
  | .CUF_PERIOD_HI _ _ => { rw := 0xF }
  | .CUF_TSCOMMIT _ => { rw := 0x3F, cmd := 0xC0000000 }
  | .CUF_TSSTAT _ => { w1c := 0x70000000, reset := 0xF0 }
  | .CUF_TSVALID _ _ => { }
  | .CUF_SYMMAP _ n => { rw := if n < 7 then 0 else 0xFFFFFFFF, reset := match n with | 0 => 0x1 | 1 => 0x2 | 2 => 0x10 | 3 => 0x20 | 4 => 0x30 | 5 => 0x3 | 6 => 0x0 | _ => 0x3 }
  | .CUF_PLL _ => { rw := 0x3FF, w1c := 0x40000000 }
  | .ACQ_CTL _ => { rw := 0xFF00000, cmd := 0xE0000000 }
  | .ACQ_STAT _ => { w1c := 0x1F000000 }
  | .ACQ_ATTACH _ => { rw := 0x80000007 }
  | .ACQ_GRANT _ => { rw := 0x3FF, w1c := 0x80000000 }
  | .ACQ_TRIG _ => { rw := 0xFFFFF000, reset := 0x1000 }
  | .ACQ_TLEVEL _ => { rw := 0xFFFFFFFF }
  | .ACQ_PRE _ => { rw := 0x1FFFF }
  | .ACQ_POST _ => { rw := 0xFFFFFFFF }
  | .ACQ_DEC _ => { rw := 0xFF1F1F00, reset := 0x800A0A00 }
  | .ACQ_MASKCTL _ => { rw := 0xF0000000 }
  | .ACQ_RBASE _ => { rw := 0x7FFF7FFF }
  | .ACQ_ENVTAB _ => { rw := 0xFFFF7FFF }
  | .ACQ_GRP _ _ => { rw := 0xFFFFFFFF }
  | .ACQ_PWORD _ => { rw := 0xFFFFFFFF }
  | .ACQ_PCARE _ => { rw := 0xFFFFFFFF }
  | .ACQ_EXPECT _ => { rw := 0xFFFFFFFF }
  | .ACQ_ECARE _ => { rw := 0xFFFFFFFF }
  | .ACQ_GOPEN _ _ => { rw := 0xFFFFFFFF }
  | .ACQ_GCLOSE _ _ => { rw := 0xFFFFFFFF }
  | .ACQ_MINMAX _ => { }
  | .ACQ_MEAN _ => { }
  | .ACQ_RMS _ => { }
  | .ACQ_CAPBASE _ => { rw := 0x7FFF7FFF }
  | .ACQ_CAPCFG _ => { rw := 0xC0000000 }
  | .ACQ_CAPGRANT _ => { rw := 0x3FF, w1c := 0x80000000 }
  | .ACQ_CAPSTAT _ => { w1c := 0xE0000000 }
  | .ACQ_SPER _ => { rw := 0xFFFFFFFF }
  | .SRC_CTL _ => { rw := 0x800FFFF, cmd := 0xF0000000 }
  | .SRC_STAT _ => { w1c := 0x1FC00000 }
  | .SRC_CFG _ => { rw := 0x8000FFFF }
  | .SRC_SPER _ => { rw := 0xFFFFFFFF }
  | .SRC_RBASE _ => { rw := 0x7FFF7FFF }
  | .SRC_TBASE _ => { rw := 0x7FFF }
  | .SRC_TSTART _ _ => { rw := 0xFFFFFFFF }
  | .DRC_STAT => { }
  | .DRC_WQ => { rw := 0x3F3F, reset := 0x3010 }
  | .DRC_REF => { rw := 0x80000000, reset := 0x80000000 }
  | .DRC_TEMP => { }
  | .DRC_TREF => { rw := 0xFFFFFFFF, reset := 0xF3C019A }
  | .DRC_PWR => { rw := 0x3, w1c := 0x20000000, cmd := 0xC0000000 }
  | .DRC_SCRUB => { rw := 0x800000FF, reset := 0x80000018 }
  | .DRC_BRANGE => { rw := 0x7FFF7FFF }
  | .DRC_BCMD => { rw := 0xF, cmd := 0xC0000000 }
  | .DRC_BSTAT => { w1c := 0x60000000 }
  | .DRC_BMAP _ => { }
  | .DRC_SRBASE _ => { rw := 0x7FFF }
  | .DRC_SRCFG _ => { rw := 0x80000FFF, cmd := 0x60000000 }
  | .DRC_SRMARKLO _ => { rw := 0xFFFFFFFF }
  | .DRC_SRMARKHI _ => { rw := 0xFFFFFFFF }
  | .DRC_SRSTAT _ => { w1c := 0x7C000000 }
  | .TIM_STAT => { w1c := 0x7800000 }
  | .TIM_CTL => { rw := 0xE0000000, reset := 0x20000000 }
  | .TIM_RSET => { rw := 0xFFFFFFFF }
  | .TIM_AGE => { rw := 0xFFFFFFFF }
  | .TIM_TCOMP => { }
  | .TIM_XTEMP => { }
  | .TIM_SERVO => { rw := 0xFFFFFFFF, reset := 0x273803E8 }
  | .TIM_LOCK => { rw := 0xFFFFFFFF, reset := 0x640003 }
  | .TIM_RING => { rw := 0xF0FFFF00, reset := 0x100000 }
  | .TIM_RINGSTAT => { w1c := 0x10000000 }
  | .TIM_SEVCFG => { rw := 0xFFFF, reset := 0x7D0 }
  | .TIM_SEV => { rw := 0xF, cmd := 0x80000000 }
  | .TIM_SEVSTAT => { w1c := 0x8000FFFF }
  | .TIM_PTP => { rw := 0xC0FF0000 }
  | .TIM_PTPSTAT => { w1c := 0x10000000 }
  | .TIM_PTPASYM => { rw := 0xFFFFFFFF }
  | .TIM_CMPMODE => { rw := 0x7F, w1c := 0x80000000, reset := 0x10 }
  | .TIM_SET _ => { rw := 0xFFFFFFFF }
  | .TIM_CMPOWN _ => { rw := 0x77777777 }
  | .TIM_CMPCTL _ => { rw := 0x3F00000, w1c := 0x1C000000, cmd := 0xC0000000 }
  | .TIM_CMPT _ _ => { rw := 0xFFFFFFFF }
  | .TIM_TPOCTL _ => { rw := 0x10000000, w1c := 0xC000000, cmd := 0xC0000000 }
  | .TIM_TPOSTART _ _ => { rw := 0xFFFFFFFF }
  | .TIM_TPOPER0 _ => { rw := 0xFFFFFFFF }
  | .TIM_TPOPER1 _ => { rw := 0xFFFF }
  | .TIM_TPOWIDTH _ => { rw := 0xFFFFFFFF }
  | .TIM_TPOCOUNT _ => { rw := 0xFFFFFFFF }
  | .TIM_TCICTL _ => { rw := 0x80000000 }
  | .TIM_TCISTAT _ => { w1c := 0x80000000 }
  | .TDC_STAT => { }
  | .TDC_IN _ => { rw := 0xFFF8F000 }
  | .TDC_HOLD _ => { rw := 0x7FF }
  | .TDC_ISTAT _ => { w1c := 0x7C000000 }
  | .TDC_LOOP _ => { }
  | .TDC_RBASE _ => { rw := 0x7FFF7FFF }
  | .TDC_RCTL _ => { rw := 0xC0000000, cmd := 0x20000000 }
  | .TDC_RSTAT _ => { w1c := 0xC0000000 }
  | .TDC_IVCFG _ => { rw := 0xFFFFF000 }
  | .TDC_IVCTL _ => { cmd := 0xC0000000 }
  | .TDC_IVSTAT _ => { w1c := 0x3F000000 }
  | .TDC_IVLIM _ => { rw := 0xFFFFFFFF }
  | .TDC_FQCFG _ => { rw := 0xFFC00000 }
  | .TDC_FQCTL _ => { cmd := 0xC0000000 }
  | .TDC_FQSTAT _ => { w1c := 0x1E100000 }
  | .TDC_GOPEN _ _ => { rw := 0xFFFFFFFF }
  | .TDC_GCLOSE _ _ => { rw := 0xFFFFFFFF }
  | .LAN_CTL l => { rw := if l < 24 then 0xFFD00000 else 0xF3D00000, cmd := 0x200000, reset := 0x83000000 }
  | .LAN_STAT _ => { w1c := 0x1000000 }
  | .LAN_EQ l => { rw := if 24 ≤ l ∧ l < 28 then 0x1F else 0x8000001F, reset := if 24 ≤ l ∧ l < 28 then 0x80000008 else 8 }
  | .LAN_TXEQ _ => { rw := 0xFF, reset := 0x84 }
  | .LAN_ERRCFG _ => { rw := 0xFFFF, reset := 0x810 }
  | .LAN_ERR _ => { rc := 0xFFFFFFFF }
  | .LAN_MAC0 => { rw := 0xFFFFFFFF }
  | .LAN_MAC1 => { rw := 0xFFFF }
  | .LNK_GSTAT => { reset := 0x101 }
  | .LNK_BOARDID => { }
  | .LNK_PMAP i => { rw := 0x77777777, reset := if i = 0 then 0x33221100 else 0x77665544 }
  | .LNK_PSTAT _ => { w1c := 0x1800000 }
  | .LNK_PERR _ => { w1c := 0xF0000000 }
  | .LNK_QCTL _ => { cmd := 0xC0000000 }
  | .LNK_QSTAT _ => { w1c := 0xA0000000 }
  | .LNK_EVQLO _ => { }
  | .LNK_EVQHI _ => { }
  | .LNK_CMDQLO _ => { rw := 0xFFFFFFFF }
  | .LNK_CMDQHI _ => { rw := 0xFFFFFFFF }
  | .LNK_CMDQHIE _ => { rw := 0xFFFFFFFF }
  | .LNK_IRQEN _ => { rw := 0xF }
  | .LNK_IRQSTAT _ => { w1c := 0xE }
  | .LNK_IRQMOD _ => { rw := 0xFFFF003F, reset := 0xA0001 }
  | .LNK_MSIADDRLO _ => { rw := 0xFFFFFFFF }
  | .LNK_MSIADDRHI _ => { rw := 0xFFFFFFFF }
  | .LNK_MSIDATA _ => { rw := 0xFFFFFFFF }
  | .LNK_DBELL _ => { }
  | .MBX_SEL _ => { rw := 0xFFFFFF00 }
  | .MBX_STAT _ => { w1c := 0x70000000 }
  | .MBX_DATA _ _ => { }
  | .CAL_CMD => { rw := 0xF000FF, cmd := 0xE0000000 }
  | .CAL_STAT => { w1c := 0x3C000000 }
  | .CAL_DUE => { reset := 0x3E }
  | .CAL_LINSEL => { rw := 0xFF }
  | .CAL_QSTAT _ => { }
  | .CAL_DRV _ _ => { rw := 0xFFF, reset := 0x800 }
  | .CAL_STB _ _ => { rw := 0xFFF, reset := 0x800 }
  | .CAL_SKEW _ _ => { rw := 0xFFFFFF }
  | .CAL_BOARD _ _ => { rw := 0xFFFFFFFF }
  | .CAL_PHASE _ => { rw := 0x3FF }
  | .CAL_BASET _ _ => { rw := 0xFFFF }
  | .CAL_LTX _ _ => { rw := 0xFFFFFF }
  | .CAL_LRX _ _ => { rw := 0xFFFFFF }
  | .CAL_LEXT0 _ _ => { rw := 0xFFFFFFFF }
  | .CAL_LEXT1 _ l => { rw := if l < 4 then 0 else 0xFFFFFFFF }
  | .CAL_XC _ _ => { rw := 0xFFFFFFFF }
  | .TRU_STAT => { }
  | .TRU_LCREQ => { rw := 0x7, cmd := 0x80000000 }
  | .TRU_LCSTAT => { w1c := 0x80000000 }
  | .TRU_IMGCTL => { rw := 0x3, cmd := 0xE0000000 }
  | .TRU_IMGDATA => { cmd := 0xFFFFFFFF }
  | .TRU_IMGSTAT => { w1c := 0x70000000 }
  | .TRU_SVN => { rw := 0xFFFFFFFF }
  | .TRU_LOGSEL => { rw := 0xFFFFFFFF }
  | .TRU_LOGDATA _ => { }
  | .TRU_IDKEY _ => { }
  | .TRU_QNONCE _ _ => { rw := 0xFFFFFFFF }
  | .TRU_QCTL _ => { cmd := 0x80000000 }
  | .TRU_QSTAT _ => { w1c := 0x70000000 }
  | .TRU_QBODY _ _ => { }
  | .RAS_STAT => { w1c := 0xF8000000 }
  | .RAS_CTL => { rw := 0x80000000, reset := 0x80000000 }
  | .RAS_ALERTEN => { rw := 0xF, reset := 0xC }
  | .RAS_ENGCFG => { rw := 0xFF, reset := 0x2 }
  | .RAS_ENGCMD => { rw := 0xF, cmd := 0xC0000000 }
  | .RAS_ENGSTAT => { w1c := 0x60000000 }
  | .RAS_SCRUB => { rw := 0x8000FFFF, reset := 0x8000000A }
  | .RAS_LOGSEL => { rw := 0xFFFFFFFF }
  | .RAS_LOGSTAT => { }
  | .RAS_LOGDATA _ => { }
  | .RAS_SEAMFENCE _ => { }

/-- The register at a canonical address of the GLB region. -/
def Reg.ofGlb (a : Nat) : Option Reg :=
  if a = 0x0 then some .GLB_ID else
  if a = 0x4 then some .GLB_REV else
  if a = 0x8 then some .GLB_STAT else
  if a = 0x10 then some .GLB_VERLOAD else
  if a = 0x14 then some .GLB_VERUCODE else
  if a = 0x18 then some .GLB_VERLINK else
  if a = 0x1C then some .GLB_VERLEDGER else
  if a = 0x20 then some .GLB_VERFW else
  if a = 0x48 then some .GLB_SRCSITE else
  if a = 0x200 then some .GLB_RST else
  if a = 0x204 then some .GLB_RSTCAUSE else
  if a = 0x208 then some .GLB_PWR else
  if a = 0x20C then some .GLB_PWRSTAT else
  if a = 0x210 then some .GLB_VIN else
  if a = 0x214 then some .GLB_WDOG else
  if a = 0x300 then some .GLB_SSC else
  if a = 0x304 then some .GLB_GRAD else
  if a = 0x308 then some .GLB_GRADPAIR else
  if a = 0x600 then some .GLB_LGCTL else
  if a = 0x604 then some .GLB_LGSTAT else
  if a = 0x608 then some .GLB_LGACKLO else
  if a = 0x60C then some .GLB_LGACKHI else
  if 0x40 ≤ a ∧ a < 0x48 ∧ (a - 0x40) % 0x4 = 0 then some (.GLB_ACQSITE ((a - 0x40) / 0x4)) else
  if 0x220 ≤ a ∧ a < 0x240 ∧ (a - 0x220) % 0x4 = 0 then some (.GLB_RAIL ((a - 0x220) / 0x4)) else
  if 0x240 ≤ a ∧ a < 0x2E4 ∧ (a - 0x240) % 0x4 = 0 then some (.GLB_VTRIM ((a - 0x240) / 0x4)) else
  if 0x400 ≤ a ∧ a < 0x4A4 ∧ (a - 0x400) % 0x4 = 0 then some (.GLB_ISLE ((a - 0x400) / 0x4)) else
  none

/-- The register at a canonical address of the SCH region. -/
def Reg.ofSch (a : Nat) : Option Reg :=
  if a = 0x100000 then some .SCH_CTL else
  if a = 0x100004 then some .SCH_STAT else
  if a = 0x100008 then some .SCH_ENGEN else
  if a = 0x10000C then some .SCH_PLOCK else
  if 0x101000 ≤ a ∧ (a - 0x101000) / 0x100 < 8 ∧ (a - 0x101000) % 0x100 < 0x20 ∧ (a - 0x101000) % 0x100 % 0x4 = 0 then
    some (.SCH_SUBMIT ((a - 0x101000) / 0x100) ((a - 0x101000) % 0x100 / 0x4)) else
  if 0x101020 ≤ a ∧ a < 0x101820 ∧ (a - 0x101020) % 0x100 = 0 then some (.SCH_CANCEL ((a - 0x101020) / 0x100)) else
  if 0x101024 ≤ a ∧ a < 0x101824 ∧ (a - 0x101024) % 0x100 = 0 then some (.SCH_QUOTA ((a - 0x101024) / 0x100)) else
  if 0x101028 ≤ a ∧ a < 0x101828 ∧ (a - 0x101028) % 0x100 = 0 then some (.SCH_PSTAT ((a - 0x101028) / 0x100)) else
  if 0x101040 ≤ a ∧ a < 0x101840 ∧ (a - 0x101040) % 0x100 = 0 then some (.SCH_LDBOLT ((a - 0x101040) / 0x100)) else
  if 0x101044 ≤ a ∧ a < 0x101844 ∧ (a - 0x101044) % 0x100 = 0 then some (.SCH_LDCTL ((a - 0x101044) / 0x100)) else
  if 0x101048 ≤ a ∧ a < 0x101848 ∧ (a - 0x101048) % 0x100 = 0 then some (.SCH_LDSTAT ((a - 0x101048) / 0x100)) else
  if 0x104000 ≤ a ∧ (a - 0x104000) / 0x40 < 16 ∧ (a - 0x104000) % 0x40 < 0x10 ∧ (a - 0x104000) % 0x40 % 0x4 = 0 then
    some (.SCH_SITECH ((a - 0x104000) / 0x40) ((a - 0x104000) % 0x40 / 0x4)) else
  if 0x104010 ≤ a ∧ a < 0x104410 ∧ (a - 0x104010) % 0x40 = 0 then some (.SCH_SITECTL ((a - 0x104010) / 0x40)) else
  if 0x104014 ≤ a ∧ a < 0x104414 ∧ (a - 0x104014) % 0x40 = 0 then some (.SCH_SITESTAT ((a - 0x104014) / 0x40)) else
  if 0x104018 ≤ a ∧ a < 0x104418 ∧ (a - 0x104018) % 0x40 = 0 then some (.SCH_HFLAG ((a - 0x104018) / 0x40)) else
  if 0x10401C ≤ a ∧ a < 0x10441C ∧ (a - 0x10401C) % 0x40 = 0 then some (.SCH_SITECMD ((a - 0x10401C) / 0x40)) else
  none

/-- The register at a canonical address of the ENG region. -/
def Reg.ofEng (a : Nat) : Option Reg :=
  if 0x200000 ≤ a ∧ a < 0x300000 ∧ (a - 0x200000) % 0x10000 = 0 then some (.ENG_STAT ((a - 0x200000) / 0x10000)) else
  if 0x200004 ≤ a ∧ a < 0x300004 ∧ (a - 0x200004) % 0x10000 = 0 then some (.ENG_TRAP ((a - 0x200004) / 0x10000)) else
  if 0x200008 ≤ a ∧ a < 0x300008 ∧ (a - 0x200008) % 0x10000 = 0 then some (.ENG_CSERR ((a - 0x200008) / 0x10000)) else
  if 0x20000C ≤ a ∧ a < 0x30000C ∧ (a - 0x20000C) % 0x10000 = 0 then some (.ENG_STRETCH ((a - 0x20000C) / 0x10000)) else
  if 0x200010 ≤ a ∧ a < 0x300010 ∧ (a - 0x200010) % 0x10000 = 0 then some (.ENG_UREG ((a - 0x200010) / 0x10000)) else
  if 0x200014 ≤ a ∧ a < 0x300014 ∧ (a - 0x200014) % 0x10000 = 0 then some (.ENG_CTL ((a - 0x200014) / 0x10000)) else
  none

/-- The register at a canonical address of the CUF region. -/
def Reg.ofCuf (a : Nat) : Option Reg :=
  if 0x300000 ≤ a ∧ (a - 0x300000) / 0x2000 < 128 ∧ (a - 0x300000) % 0x2000 < 0x1000 ∧ (a - 0x300000) % 0x2000 % 0x40 < 0x30 ∧ (a - 0x300000) % 0x2000 % 0x40 % 0x8 = 0 then
    some (.CUF_EDGE_LO ((a - 0x300000) / 0x2000) ((a - 0x300000) % 0x2000 / 0x40) ((a - 0x300000) % 0x2000 % 0x40 / 0x8)) else
  if 0x300004 ≤ a ∧ (a - 0x300004) / 0x2000 < 128 ∧ (a - 0x300004) % 0x2000 < 0x1000 ∧ (a - 0x300004) % 0x2000 % 0x40 < 0x30 ∧ (a - 0x300004) % 0x2000 % 0x40 % 0x8 = 0 then
    some (.CUF_EDGE_HI ((a - 0x300004) / 0x2000) ((a - 0x300004) % 0x2000 / 0x40) ((a - 0x300004) % 0x2000 % 0x40 / 0x8)) else
  if 0x300030 ≤ a ∧ (a - 0x300030) / 0x2000 < 128 ∧ (a - 0x300030) % 0x2000 < 0x1000 ∧ (a - 0x300030) % 0x2000 % 0x40 = 0 then
    some (.CUF_FMT ((a - 0x300030) / 0x2000) ((a - 0x300030) % 0x2000 / 0x40)) else
  if 0x301000 ≤ a ∧ a < 0x401000 ∧ (a - 0x301000) % 0x2000 = 0 then some (.CUF_CHSTAT ((a - 0x301000) / 0x2000)) else
  if 0x301004 ≤ a ∧ a < 0x401004 ∧ (a - 0x301004) % 0x2000 = 0 then some (.CUF_CHCTL ((a - 0x301004) / 0x2000)) else
  if 0x301008 ≤ a ∧ a < 0x401008 ∧ (a - 0x301008) % 0x2000 = 0 then some (.CUF_COLLCNT ((a - 0x301008) / 0x2000)) else
  if 0x301400 ≤ a ∧ (a - 0x301400) / 0x2000 < 16 ∧ (a - 0x301400) % 0x2000 < 0x200 ∧ (a - 0x301400) % 0x2000 % 0x8 = 0 then
    some (.CUF_PERIOD_LO ((a - 0x301400) / 0x2000) ((a - 0x301400) % 0x2000 / 0x8)) else
  if 0x301404 ≤ a ∧ (a - 0x301404) / 0x2000 < 16 ∧ (a - 0x301404) % 0x2000 < 0x200 ∧ (a - 0x301404) % 0x2000 % 0x8 = 0 then
    some (.CUF_PERIOD_HI ((a - 0x301404) / 0x2000) ((a - 0x301404) % 0x2000 / 0x8)) else
  if 0x301600 ≤ a ∧ a < 0x321600 ∧ (a - 0x301600) % 0x2000 = 0 then some (.CUF_TSCOMMIT ((a - 0x301600) / 0x2000)) else
  if 0x301604 ≤ a ∧ a < 0x321604 ∧ (a - 0x301604) % 0x2000 = 0 then some (.CUF_TSSTAT ((a - 0x301604) / 0x2000)) else
  if 0x301608 ≤ a ∧ (a - 0x301608) / 0x2000 < 16 ∧ (a - 0x301608) % 0x2000 < 0x8 ∧ (a - 0x301608) % 0x2000 % 0x4 = 0 then
    some (.CUF_TSVALID ((a - 0x301608) / 0x2000) ((a - 0x301608) % 0x2000 / 0x4)) else
  if 0x301800 ≤ a ∧ (a - 0x301800) / 0x20000 < 8 ∧ (a - 0x301800) % 0x20000 < 0x40 ∧ (a - 0x301800) % 0x20000 % 0x4 = 0 then
    some (.CUF_SYMMAP ((a - 0x301800) / 0x20000) ((a - 0x301800) % 0x20000 / 0x4)) else
  if 0x301840 ≤ a ∧ a < 0x401840 ∧ (a - 0x301840) % 0x20000 = 0 then some (.CUF_PLL ((a - 0x301840) / 0x20000)) else
  none

/-- The register at a canonical address of the ACQ region. -/
def Reg.ofAcq (a : Nat) : Option Reg :=
  if 0x400000 ≤ a ∧ a < 0x500000 ∧ (a - 0x400000) % 0x10000 = 0 then some (.ACQ_CTL ((a - 0x400000) / 0x10000)) else
  if 0x400004 ≤ a ∧ a < 0x500004 ∧ (a - 0x400004) % 0x10000 = 0 then some (.ACQ_STAT ((a - 0x400004) / 0x10000)) else
  if 0x400008 ≤ a ∧ a < 0x500008 ∧ (a - 0x400008) % 0x10000 = 0 then some (.ACQ_ATTACH ((a - 0x400008) / 0x10000)) else
  if 0x40000C ≤ a ∧ a < 0x50000C ∧ (a - 0x40000C) % 0x10000 = 0 then some (.ACQ_GRANT ((a - 0x40000C) / 0x10000)) else
  if 0x400010 ≤ a ∧ a < 0x500010 ∧ (a - 0x400010) % 0x10000 = 0 then some (.ACQ_TRIG ((a - 0x400010) / 0x10000)) else
  if 0x400014 ≤ a ∧ a < 0x500014 ∧ (a - 0x400014) % 0x10000 = 0 then some (.ACQ_TLEVEL ((a - 0x400014) / 0x10000)) else
  if 0x400018 ≤ a ∧ a < 0x500018 ∧ (a - 0x400018) % 0x10000 = 0 then some (.ACQ_PRE ((a - 0x400018) / 0x10000)) else
  if 0x40001C ≤ a ∧ a < 0x50001C ∧ (a - 0x40001C) % 0x10000 = 0 then some (.ACQ_POST ((a - 0x40001C) / 0x10000)) else
  if 0x400020 ≤ a ∧ a < 0x500020 ∧ (a - 0x400020) % 0x10000 = 0 then some (.ACQ_DEC ((a - 0x400020) / 0x10000)) else
  if 0x400024 ≤ a ∧ a < 0x500024 ∧ (a - 0x400024) % 0x10000 = 0 then some (.ACQ_MASKCTL ((a - 0x400024) / 0x10000)) else
  if 0x400028 ≤ a ∧ a < 0x500028 ∧ (a - 0x400028) % 0x10000 = 0 then some (.ACQ_RBASE ((a - 0x400028) / 0x10000)) else
  if 0x40002C ≤ a ∧ a < 0x50002C ∧ (a - 0x40002C) % 0x10000 = 0 then some (.ACQ_ENVTAB ((a - 0x40002C) / 0x10000)) else
  if 0x400030 ≤ a ∧ (a - 0x400030) / 0x10000 < 16 ∧ (a - 0x400030) % 0x10000 < 0x10 ∧ (a - 0x400030) % 0x10000 % 0x4 = 0 then
    some (.ACQ_GRP ((a - 0x400030) / 0x10000) ((a - 0x400030) % 0x10000 / 0x4)) else
  if 0x400040 ≤ a ∧ a < 0x500040 ∧ (a - 0x400040) % 0x10000 = 0 then some (.ACQ_PWORD ((a - 0x400040) / 0x10000)) else
  if 0x400044 ≤ a ∧ a < 0x500044 ∧ (a - 0x400044) % 0x10000 = 0 then some (.ACQ_PCARE ((a - 0x400044) / 0x10000)) else
  if 0x400048 ≤ a ∧ a < 0x500048 ∧ (a - 0x400048) % 0x10000 = 0 then some (.ACQ_EXPECT ((a - 0x400048) / 0x10000)) else
  if 0x40004C ≤ a ∧ a < 0x50004C ∧ (a - 0x40004C) % 0x10000 = 0 then some (.ACQ_ECARE ((a - 0x40004C) / 0x10000)) else
  if 0x400050 ≤ a ∧ (a - 0x400050) / 0x10000 < 16 ∧ (a - 0x400050) % 0x10000 < 0xC ∧ (a - 0x400050) % 0x10000 % 0x4 = 0 then
    some (.ACQ_GOPEN ((a - 0x400050) / 0x10000) ((a - 0x400050) % 0x10000 / 0x4)) else
  if 0x400060 ≤ a ∧ (a - 0x400060) / 0x10000 < 16 ∧ (a - 0x400060) % 0x10000 < 0xC ∧ (a - 0x400060) % 0x10000 % 0x4 = 0 then
    some (.ACQ_GCLOSE ((a - 0x400060) / 0x10000) ((a - 0x400060) % 0x10000 / 0x4)) else
  if 0x400070 ≤ a ∧ a < 0x500070 ∧ (a - 0x400070) % 0x10000 = 0 then some (.ACQ_MINMAX ((a - 0x400070) / 0x10000)) else
  if 0x400074 ≤ a ∧ a < 0x500074 ∧ (a - 0x400074) % 0x10000 = 0 then some (.ACQ_MEAN ((a - 0x400074) / 0x10000)) else
  if 0x400078 ≤ a ∧ a < 0x500078 ∧ (a - 0x400078) % 0x10000 = 0 then some (.ACQ_RMS ((a - 0x400078) / 0x10000)) else
  if 0x408000 ≤ a ∧ a < 0x508000 ∧ (a - 0x408000) % 0x10000 = 0 then some (.ACQ_CAPBASE ((a - 0x408000) / 0x10000)) else
  if 0x408004 ≤ a ∧ a < 0x508004 ∧ (a - 0x408004) % 0x10000 = 0 then some (.ACQ_CAPCFG ((a - 0x408004) / 0x10000)) else
  if 0x408008 ≤ a ∧ a < 0x508008 ∧ (a - 0x408008) % 0x10000 = 0 then some (.ACQ_CAPGRANT ((a - 0x408008) / 0x10000)) else
  if 0x40800C ≤ a ∧ a < 0x50800C ∧ (a - 0x40800C) % 0x10000 = 0 then some (.ACQ_CAPSTAT ((a - 0x40800C) / 0x10000)) else
  if 0x409000 ≤ a ∧ a < 0x489000 ∧ (a - 0x409000) % 0x10000 = 0 then some (.ACQ_SPER ((a - 0x409000) / 0x10000)) else
  none

/-- The register at a canonical address of the SRC region. -/
def Reg.ofSrc (a : Nat) : Option Reg :=
  if 0x500000 ≤ a ∧ a < 0x580000 ∧ (a - 0x500000) % 0x10000 = 0 then some (.SRC_CTL ((a - 0x500000) / 0x10000)) else
  if 0x500004 ≤ a ∧ a < 0x580004 ∧ (a - 0x500004) % 0x10000 = 0 then some (.SRC_STAT ((a - 0x500004) / 0x10000)) else
  if 0x500008 ≤ a ∧ a < 0x580008 ∧ (a - 0x500008) % 0x10000 = 0 then some (.SRC_CFG ((a - 0x500008) / 0x10000)) else
  if 0x50000C ≤ a ∧ a < 0x58000C ∧ (a - 0x50000C) % 0x10000 = 0 then some (.SRC_SPER ((a - 0x50000C) / 0x10000)) else
  if 0x500010 ≤ a ∧ a < 0x580010 ∧ (a - 0x500010) % 0x10000 = 0 then some (.SRC_RBASE ((a - 0x500010) / 0x10000)) else
  if 0x500014 ≤ a ∧ a < 0x580014 ∧ (a - 0x500014) % 0x10000 = 0 then some (.SRC_TBASE ((a - 0x500014) / 0x10000)) else
  if 0x500018 ≤ a ∧ (a - 0x500018) / 0x10000 < 8 ∧ (a - 0x500018) % 0x10000 < 0xC ∧ (a - 0x500018) % 0x10000 % 0x4 = 0 then
    some (.SRC_TSTART ((a - 0x500018) / 0x10000) ((a - 0x500018) % 0x10000 / 0x4)) else
  none

/-- The register at a canonical address of the DRC region. -/
def Reg.ofDrc (a : Nat) : Option Reg :=
  if a = 0x600000 then some .DRC_STAT else
  if a = 0x600004 then some .DRC_WQ else
  if a = 0x600008 then some .DRC_REF else
  if a = 0x60000C then some .DRC_TEMP else
  if a = 0x600010 then some .DRC_TREF else
  if a = 0x600014 then some .DRC_PWR else
  if a = 0x600018 then some .DRC_SCRUB else
  if a = 0x600020 then some .DRC_BRANGE else
  if a = 0x600024 then some .DRC_BCMD else
  if a = 0x600028 then some .DRC_BSTAT else
  if 0x601000 ≤ a ∧ a < 0x607000 ∧ (a - 0x601000) % 0x4 = 0 then some (.DRC_BMAP ((a - 0x601000) / 0x4)) else
  if 0x608000 ≤ a ∧ a < 0x608400 ∧ (a - 0x608000) % 0x40 = 0 then some (.DRC_SRBASE ((a - 0x608000) / 0x40)) else
  if 0x608004 ≤ a ∧ a < 0x608404 ∧ (a - 0x608004) % 0x40 = 0 then some (.DRC_SRCFG ((a - 0x608004) / 0x40)) else
  if 0x608008 ≤ a ∧ a < 0x608408 ∧ (a - 0x608008) % 0x40 = 0 then some (.DRC_SRMARKLO ((a - 0x608008) / 0x40)) else
  if 0x60800C ≤ a ∧ a < 0x60840C ∧ (a - 0x60800C) % 0x40 = 0 then some (.DRC_SRMARKHI ((a - 0x60800C) / 0x40)) else
  if 0x608010 ≤ a ∧ a < 0x608410 ∧ (a - 0x608010) % 0x40 = 0 then some (.DRC_SRSTAT ((a - 0x608010) / 0x40)) else
  none

/-- The register at a canonical address of the TIM region. -/
def Reg.ofTim (a : Nat) : Option Reg :=
  if a = 0x700000 then some .TIM_STAT else
  if a = 0x700004 then some .TIM_CTL else
  if a = 0x700014 then some .TIM_RSET else
  if a = 0x700018 then some .TIM_AGE else
  if a = 0x70001C then some .TIM_TCOMP else
  if a = 0x700020 then some .TIM_XTEMP else
  if a = 0x700024 then some .TIM_SERVO else
  if a = 0x700028 then some .TIM_LOCK else
  if a = 0x700030 then some .TIM_RING else
  if a = 0x700034 then some .TIM_RINGSTAT else
  if a = 0x700038 then some .TIM_SEVCFG else
  if a = 0x70003C then some .TIM_SEV else
  if a = 0x700040 then some .TIM_SEVSTAT else
  if a = 0x700050 then some .TIM_PTP else
  if a = 0x700054 then some .TIM_PTPSTAT else
  if a = 0x700058 then some .TIM_PTPASYM else
  if a = 0x700060 then some .TIM_CMPMODE else
  if 0x700008 ≤ a ∧ a < 0x700014 ∧ (a - 0x700008) % 0x4 = 0 then some (.TIM_SET ((a - 0x700008) / 0x4)) else
  if 0x700080 ≤ a ∧ a < 0x7000A0 ∧ (a - 0x700080) % 0x4 = 0 then some (.TIM_CMPOWN ((a - 0x700080) / 0x4)) else
  if 0x701000 ≤ a ∧ a < 0x701400 ∧ (a - 0x701000) % 0x10 = 0 then some (.TIM_CMPCTL ((a - 0x701000) / 0x10)) else
  if 0x701004 ≤ a ∧ (a - 0x701004) / 0x10 < 64 ∧ (a - 0x701004) % 0x10 < 0xC ∧ (a - 0x701004) % 0x10 % 0x4 = 0 then
    some (.TIM_CMPT ((a - 0x701004) / 0x10) ((a - 0x701004) % 0x10 / 0x4)) else
  if 0x702000 ≤ a ∧ a < 0x702100 ∧ (a - 0x702000) % 0x40 = 0 then some (.TIM_TPOCTL ((a - 0x702000) / 0x40)) else
  if 0x702004 ≤ a ∧ (a - 0x702004) / 0x40 < 4 ∧ (a - 0x702004) % 0x40 < 0xC ∧ (a - 0x702004) % 0x40 % 0x4 = 0 then
    some (.TIM_TPOSTART ((a - 0x702004) / 0x40) ((a - 0x702004) % 0x40 / 0x4)) else
  if 0x702010 ≤ a ∧ a < 0x702110 ∧ (a - 0x702010) % 0x40 = 0 then some (.TIM_TPOPER0 ((a - 0x702010) / 0x40)) else
  if 0x702014 ≤ a ∧ a < 0x702114 ∧ (a - 0x702014) % 0x40 = 0 then some (.TIM_TPOPER1 ((a - 0x702014) / 0x40)) else
  if 0x702018 ≤ a ∧ a < 0x702118 ∧ (a - 0x702018) % 0x40 = 0 then some (.TIM_TPOWIDTH ((a - 0x702018) / 0x40)) else
  if 0x70201C ≤ a ∧ a < 0x70211C ∧ (a - 0x70201C) % 0x40 = 0 then some (.TIM_TPOCOUNT ((a - 0x70201C) / 0x40)) else
  if 0x703000 ≤ a ∧ a < 0x703040 ∧ (a - 0x703000) % 0x10 = 0 then some (.TIM_TCICTL ((a - 0x703000) / 0x10)) else
  if 0x703004 ≤ a ∧ a < 0x703044 ∧ (a - 0x703004) % 0x10 = 0 then some (.TIM_TCISTAT ((a - 0x703004) / 0x10)) else
  none

/-- The register at a canonical address of the TDC region. -/
def Reg.ofTdc (a : Nat) : Option Reg :=
  if a = 0x780000 then some .TDC_STAT else
  if 0x781000 ≤ a ∧ a < 0x781880 ∧ (a - 0x781000) % 0x10 = 0 then some (.TDC_IN ((a - 0x781000) / 0x10)) else
  if 0x781004 ≤ a ∧ a < 0x781884 ∧ (a - 0x781004) % 0x10 = 0 then some (.TDC_HOLD ((a - 0x781004) / 0x10)) else
  if 0x781008 ≤ a ∧ a < 0x781888 ∧ (a - 0x781008) % 0x10 = 0 then some (.TDC_ISTAT ((a - 0x781008) / 0x10)) else
  if 0x78100C ≤ a ∧ a < 0x78188C ∧ (a - 0x78100C) % 0x10 = 0 then some (.TDC_LOOP ((a - 0x78100C) / 0x10)) else
  if 0x782000 ≤ a ∧ a < 0x782100 ∧ (a - 0x782000) % 0x10 = 0 then some (.TDC_RBASE ((a - 0x782000) / 0x10)) else
  if 0x782004 ≤ a ∧ a < 0x782104 ∧ (a - 0x782004) % 0x10 = 0 then some (.TDC_RCTL ((a - 0x782004) / 0x10)) else
  if 0x782008 ≤ a ∧ a < 0x782108 ∧ (a - 0x782008) % 0x10 = 0 then some (.TDC_RSTAT ((a - 0x782008) / 0x10)) else
  if 0x783000 ≤ a ∧ a < 0x783100 ∧ (a - 0x783000) % 0x10 = 0 then some (.TDC_IVCFG ((a - 0x783000) / 0x10)) else
  if 0x783004 ≤ a ∧ a < 0x783104 ∧ (a - 0x783004) % 0x10 = 0 then some (.TDC_IVCTL ((a - 0x783004) / 0x10)) else
  if 0x783008 ≤ a ∧ a < 0x783108 ∧ (a - 0x783008) % 0x10 = 0 then some (.TDC_IVSTAT ((a - 0x783008) / 0x10)) else
  if 0x78300C ≤ a ∧ a < 0x78310C ∧ (a - 0x78300C) % 0x10 = 0 then some (.TDC_IVLIM ((a - 0x78300C) / 0x10)) else
  if 0x784000 ≤ a ∧ a < 0x784400 ∧ (a - 0x784000) % 0x40 = 0 then some (.TDC_FQCFG ((a - 0x784000) / 0x40)) else
  if 0x784004 ≤ a ∧ a < 0x784404 ∧ (a - 0x784004) % 0x40 = 0 then some (.TDC_FQCTL ((a - 0x784004) / 0x40)) else
  if 0x784008 ≤ a ∧ a < 0x784408 ∧ (a - 0x784008) % 0x40 = 0 then some (.TDC_FQSTAT ((a - 0x784008) / 0x40)) else
  if 0x784010 ≤ a ∧ (a - 0x784010) / 0x40 < 16 ∧ (a - 0x784010) % 0x40 < 0xC ∧ (a - 0x784010) % 0x40 % 0x4 = 0 then
    some (.TDC_GOPEN ((a - 0x784010) / 0x40) ((a - 0x784010) % 0x40 / 0x4)) else
  if 0x784020 ≤ a ∧ (a - 0x784020) / 0x40 < 16 ∧ (a - 0x784020) % 0x40 < 0xC ∧ (a - 0x784020) % 0x40 % 0x4 = 0 then
    some (.TDC_GCLOSE ((a - 0x784020) / 0x40) ((a - 0x784020) % 0x40 / 0x4)) else
  none

/-- The register at a canonical address of the LAN region. -/
def Reg.ofLan (a : Nat) : Option Reg :=
  if a = 0x81C020 then some .LAN_MAC0 else
  if a = 0x81C024 then some .LAN_MAC1 else
  if 0x800000 ≤ a ∧ a < 0x81D000 ∧ (a - 0x800000) % 0x1000 = 0 then some (.LAN_CTL ((a - 0x800000) / 0x1000)) else
  if 0x800004 ≤ a ∧ a < 0x81D004 ∧ (a - 0x800004) % 0x1000 = 0 then some (.LAN_STAT ((a - 0x800004) / 0x1000)) else
  if 0x800008 ≤ a ∧ a < 0x81D008 ∧ (a - 0x800008) % 0x1000 = 0 then some (.LAN_EQ ((a - 0x800008) / 0x1000)) else
  if 0x80000C ≤ a ∧ a < 0x81D00C ∧ (a - 0x80000C) % 0x1000 = 0 then some (.LAN_TXEQ ((a - 0x80000C) / 0x1000)) else
  if 0x800010 ≤ a ∧ a < 0x81D010 ∧ (a - 0x800010) % 0x1000 = 0 then some (.LAN_ERRCFG ((a - 0x800010) / 0x1000)) else
  if 0x800014 ≤ a ∧ a < 0x81D014 ∧ (a - 0x800014) % 0x1000 = 0 then some (.LAN_ERR ((a - 0x800014) / 0x1000)) else
  none

/-- The register at a canonical address of the LNK region. -/
def Reg.ofLnk (a : Nat) : Option Reg :=
  if a = 0x900000 then some .LNK_GSTAT else
  if a = 0x900004 then some .LNK_BOARDID else
  if 0x900008 ≤ a ∧ a < 0x900010 ∧ (a - 0x900008) % 0x4 = 0 then some (.LNK_PMAP ((a - 0x900008) / 0x4)) else
  if 0x901000 ≤ a ∧ a < 0x903000 ∧ (a - 0x901000) % 0x400 = 0 then some (.LNK_PSTAT ((a - 0x901000) / 0x400)) else
  if 0x901004 ≤ a ∧ a < 0x903004 ∧ (a - 0x901004) % 0x400 = 0 then some (.LNK_PERR ((a - 0x901004) / 0x400)) else
  if 0x901008 ≤ a ∧ a < 0x903008 ∧ (a - 0x901008) % 0x400 = 0 then some (.LNK_QCTL ((a - 0x901008) / 0x400)) else
  if 0x90100C ≤ a ∧ a < 0x90300C ∧ (a - 0x90100C) % 0x400 = 0 then some (.LNK_QSTAT ((a - 0x90100C) / 0x400)) else
  if 0x901010 ≤ a ∧ a < 0x903010 ∧ (a - 0x901010) % 0x400 = 0 then some (.LNK_EVQLO ((a - 0x901010) / 0x400)) else
  if 0x901014 ≤ a ∧ a < 0x903014 ∧ (a - 0x901014) % 0x400 = 0 then some (.LNK_EVQHI ((a - 0x901014) / 0x400)) else
  if 0x901018 ≤ a ∧ a < 0x903018 ∧ (a - 0x901018) % 0x400 = 0 then some (.LNK_CMDQLO ((a - 0x901018) / 0x400)) else
  if 0x90101C ≤ a ∧ a < 0x90301C ∧ (a - 0x90101C) % 0x400 = 0 then some (.LNK_CMDQHI ((a - 0x90101C) / 0x400)) else
  if 0x901020 ≤ a ∧ a < 0x903020 ∧ (a - 0x901020) % 0x400 = 0 then some (.LNK_CMDQHIE ((a - 0x901020) / 0x400)) else
  if 0x901024 ≤ a ∧ a < 0x903024 ∧ (a - 0x901024) % 0x400 = 0 then some (.LNK_IRQEN ((a - 0x901024) / 0x400)) else
  if 0x901028 ≤ a ∧ a < 0x903028 ∧ (a - 0x901028) % 0x400 = 0 then some (.LNK_IRQSTAT ((a - 0x901028) / 0x400)) else
  if 0x90102C ≤ a ∧ a < 0x90302C ∧ (a - 0x90102C) % 0x400 = 0 then some (.LNK_IRQMOD ((a - 0x90102C) / 0x400)) else
  if 0x901030 ≤ a ∧ a < 0x903030 ∧ (a - 0x901030) % 0x400 = 0 then some (.LNK_MSIADDRLO ((a - 0x901030) / 0x400)) else
  if 0x901034 ≤ a ∧ a < 0x903034 ∧ (a - 0x901034) % 0x400 = 0 then some (.LNK_MSIADDRHI ((a - 0x901034) / 0x400)) else
  if 0x901038 ≤ a ∧ a < 0x903038 ∧ (a - 0x901038) % 0x400 = 0 then some (.LNK_MSIDATA ((a - 0x901038) / 0x400)) else
  if 0x90103C ≤ a ∧ a < 0x90303C ∧ (a - 0x90103C) % 0x400 = 0 then some (.LNK_DBELL ((a - 0x90103C) / 0x400)) else
  if 0x901100 ≤ a ∧ a < 0x903100 ∧ (a - 0x901100) % 0x400 = 0 then some (.MBX_SEL ((a - 0x901100) / 0x400)) else
  if 0x901104 ≤ a ∧ a < 0x903104 ∧ (a - 0x901104) % 0x400 = 0 then some (.MBX_STAT ((a - 0x901104) / 0x400)) else
  if 0x901110 ≤ a ∧ (a - 0x901110) / 0x400 < 8 ∧ (a - 0x901110) % 0x400 < 0x10 ∧ (a - 0x901110) % 0x400 % 0x4 = 0 then
    some (.MBX_DATA ((a - 0x901110) / 0x400) ((a - 0x901110) % 0x400 / 0x4)) else
  none

/-- The register at a canonical address of the CAL region. -/
def Reg.ofCal (a : Nat) : Option Reg :=
  if a = 0xA00000 then some .CAL_CMD else
  if a = 0xA00004 then some .CAL_STAT else
  if a = 0xA00008 then some .CAL_DUE else
  if a = 0xA0000C then some .CAL_LINSEL else
  if 0xA00014 ≤ a ∧ a < 0xA00028 ∧ (a - 0xA00014) % 0x4 = 0 then some (.CAL_QSTAT ((a - 0xA00014) / 0x4)) else
  if 0xA01000 ≤ a ∧ (a - 0xA01000) / 0x2000 < 2 ∧ (a - 0xA01000) % 0x2000 < 0x800 ∧ (a - 0xA01000) % 0x2000 % 0x10 = 0 then
    some (.CAL_DRV ((a - 0xA01000) / 0x2000) ((a - 0xA01000) % 0x2000 / 0x10)) else
  if 0xA01004 ≤ a ∧ (a - 0xA01004) / 0x2000 < 2 ∧ (a - 0xA01004) % 0x2000 < 0x800 ∧ (a - 0xA01004) % 0x2000 % 0x10 = 0 then
    some (.CAL_STB ((a - 0xA01004) / 0x2000) ((a - 0xA01004) % 0x2000 / 0x10)) else
  if 0xA01008 ≤ a ∧ (a - 0xA01008) / 0x2000 < 2 ∧ (a - 0xA01008) % 0x2000 < 0x880 ∧ (a - 0xA01008) % 0x2000 % 0x10 = 0 then
    some (.CAL_SKEW ((a - 0xA01008) / 0x2000) ((a - 0xA01008) % 0x2000 / 0x10)) else
  if 0xA0100C ≤ a ∧ (a - 0xA0100C) / 0x2000 < 2 ∧ (a - 0xA0100C) % 0x2000 < 0x800 ∧ (a - 0xA0100C) % 0x2000 % 0x10 = 0 then
    some (.CAL_BOARD ((a - 0xA0100C) / 0x2000) ((a - 0xA0100C) % 0x2000 / 0x10)) else
  if 0xA01900 ≤ a ∧ a < 0xA01920 ∧ (a - 0xA01900) % 0x4 = 0 then some (.CAL_PHASE ((a - 0xA01900) / 0x4)) else
  if 0xA01920 ≤ a ∧ (a - 0xA01920) / 0x2000 < 2 ∧ (a - 0xA01920) % 0x2000 < 0x24 ∧ (a - 0xA01920) % 0x2000 % 0x4 = 0 then
    some (.CAL_BASET ((a - 0xA01920) / 0x2000) ((a - 0xA01920) % 0x2000 / 0x4)) else
  if 0xA01A00 ≤ a ∧ (a - 0xA01A00) / 0x2000 < 2 ∧ (a - 0xA01A00) % 0x2000 < 0xC0 ∧ (a - 0xA01A00) % 0x2000 % 0x10 = 0 then
    some (.CAL_LTX ((a - 0xA01A00) / 0x2000) ((a - 0xA01A00) % 0x2000 / 0x10)) else
  if 0xA01A04 ≤ a ∧ (a - 0xA01A04) / 0x2000 < 2 ∧ (a - 0xA01A04) % 0x2000 < 0xC0 ∧ (a - 0xA01A04) % 0x2000 % 0x10 = 0 then
    some (.CAL_LRX ((a - 0xA01A04) / 0x2000) ((a - 0xA01A04) % 0x2000 / 0x10)) else
  if 0xA01A08 ≤ a ∧ (a - 0xA01A08) / 0x2000 < 2 ∧ (a - 0xA01A08) % 0x2000 < 0xC0 ∧ (a - 0xA01A08) % 0x2000 % 0x10 = 0 then
    some (.CAL_LEXT0 ((a - 0xA01A08) / 0x2000) ((a - 0xA01A08) % 0x2000 / 0x10)) else
  if 0xA01A0C ≤ a ∧ (a - 0xA01A0C) / 0x2000 < 2 ∧ (a - 0xA01A0C) % 0x2000 < 0xC0 ∧ (a - 0xA01A0C) % 0x2000 % 0x10 = 0 then
    some (.CAL_LEXT1 ((a - 0xA01A0C) / 0x2000) ((a - 0xA01A0C) % 0x2000 / 0x10)) else
  if 0xA01B00 ≤ a ∧ (a - 0xA01B00) / 0x2000 < 2 ∧ (a - 0xA01B00) % 0x2000 < 0x10 ∧ (a - 0xA01B00) % 0x2000 % 0x4 = 0 then
    some (.CAL_XC ((a - 0xA01B00) / 0x2000) ((a - 0xA01B00) % 0x2000 / 0x4)) else
  none

/-- The register at a canonical address of the TRU region. -/
def Reg.ofTru (a : Nat) : Option Reg :=
  if a = 0xB00000 then some .TRU_STAT else
  if a = 0xB00004 then some .TRU_LCREQ else
  if a = 0xB00008 then some .TRU_LCSTAT else
  if a = 0xB00010 then some .TRU_IMGCTL else
  if a = 0xB00014 then some .TRU_IMGDATA else
  if a = 0xB00018 then some .TRU_IMGSTAT else
  if a = 0xB0001C then some .TRU_SVN else
  if a = 0xB00020 then some .TRU_LOGSEL else
  if 0xB00040 ≤ a ∧ a < 0xB00080 ∧ (a - 0xB00040) % 0x4 = 0 then some (.TRU_LOGDATA ((a - 0xB00040) / 0x4)) else
  if 0xB00100 ≤ a ∧ a < 0xB00140 ∧ (a - 0xB00100) % 0x4 = 0 then some (.TRU_IDKEY ((a - 0xB00100) / 0x4)) else
  if 0xB01000 ≤ a ∧ (a - 0xB01000) / 0x100 < 8 ∧ (a - 0xB01000) % 0x100 < 0x20 ∧ (a - 0xB01000) % 0x100 % 0x4 = 0 then
    some (.TRU_QNONCE ((a - 0xB01000) / 0x100) ((a - 0xB01000) % 0x100 / 0x4)) else
  if 0xB01020 ≤ a ∧ a < 0xB01820 ∧ (a - 0xB01020) % 0x100 = 0 then some (.TRU_QCTL ((a - 0xB01020) / 0x100)) else
  if 0xB01024 ≤ a ∧ a < 0xB01824 ∧ (a - 0xB01024) % 0x100 = 0 then some (.TRU_QSTAT ((a - 0xB01024) / 0x100)) else
  if 0xB01040 ≤ a ∧ (a - 0xB01040) / 0x100 < 8 ∧ (a - 0xB01040) % 0x100 < 0xC0 ∧ (a - 0xB01040) % 0x100 % 0x4 = 0 then
    some (.TRU_QBODY ((a - 0xB01040) / 0x100) ((a - 0xB01040) % 0x100 / 0x4)) else
  none

/-- The register at a canonical address of the RAS region. -/
def Reg.ofRas (a : Nat) : Option Reg :=
  if a = 0xC00000 then some .RAS_STAT else
  if a = 0xC00004 then some .RAS_CTL else
  if a = 0xC00008 then some .RAS_ALERTEN else
  if a = 0xC0000C then some .RAS_ENGCFG else
  if a = 0xC00010 then some .RAS_ENGCMD else
  if a = 0xC00014 then some .RAS_ENGSTAT else
  if a = 0xC00018 then some .RAS_SCRUB else
  if a = 0xC00020 then some .RAS_LOGSEL else
  if a = 0xC00024 then some .RAS_LOGSTAT else
  if 0xC00040 ≤ a ∧ a < 0xC00060 ∧ (a - 0xC00040) % 0x4 = 0 then some (.RAS_LOGDATA ((a - 0xC00040) / 0x4)) else
  if 0xC00080 ≤ a ∧ a < 0xC00090 ∧ (a - 0xC00080) % 0x4 = 0 then some (.RAS_SEAMFENCE ((a - 0xC00080) / 0x4)) else
  none

/-- R411, R412: the canonical address that an address aliases to, or none outside every region. -/
def canonAddr (a : Nat) : Option Nat :=
  if a < 0x100000 then some (a % 0x1000)
  else if a < 0x200000 then some (0x100000 + a % 0x8000)
  else if a < 0x300000 then some (a / 0x10000 * 0x10000 + a % 0x100)
  else if a < 0x400000 then
    some (if 0x1400 ≤ a % 0x2000 ∧ a % 0x2000 < 0x1610 then 0x300000 + a % 0x20000 else a)
  else if a < 0x500000 then some (a / 0x1000 * 0x1000 + a % 0x100)
  else if a < 0x580000 then some (a / 0x10000 * 0x10000 + a % 0x40)
  else if a < 0x600000 then none
  else if a < 0x700000 then some (0x600000 + a % 0x10000)
  else if a < 0x780000 then some (0x700000 + a % 0x4000)
  else if a < 0x800000 then some (0x780000 + a % 0x8000)
  else if a < 0x900000 then some (0x800000 + a % 0x20000 / 0x1000 * 0x1000 + a % 0x40)
  else if a < 0xA00000 then some (0x900000 + a % 0x4000)
  else if a < 0xD00000 then some (a / 0x100000 * 0x100000 + a % 0x10000)
  else if a < 0x1000000 then none
  else if a < 0x1800000 then some (a / 0x80000 * 0x80000 + a % 0x40000)
  else if a < 0x2000000 then some (0x1800000 + a % 0x40000)
  else none

/-- The register at a canonical address, or none at a hole or in a control-store window (R412). -/
def Reg.ofAddr (a : Nat) : Option Reg :=

  if a < 0x100000 then Reg.ofGlb a else
  if a < 0x200000 then Reg.ofSch a else
  if a < 0x300000 then Reg.ofEng a else
  if a < 0x400000 then Reg.ofCuf a else
  if a < 0x500000 then Reg.ofAcq a else
  if a < 0x580000 then Reg.ofSrc a else
  if a < 0x700000 then Reg.ofDrc a else
  if a < 0x780000 then Reg.ofTim a else
  if a < 0x800000 then Reg.ofTdc a else
  if a < 0x900000 then Reg.ofLan a else
  if a < 0xA00000 then Reg.ofLnk a else
  if a < 0xB00000 then Reg.ofCal a else
  if a < 0xC00000 then Reg.ofTru a else
  if a < 0xD00000 then Reg.ofRas a else
  none

end Sys2Proof.Machine
end

