-- ==== Sys2Proof/Machine/State.lean ====
section
/-! DEFINITION. State: every piece of state the spec gives the block, as plain data, and its value at reset.
INVENTORY.md lists every field with its rule and its reset value. A sparse table lists only the entries that
differ from the entry's reset value. -/
namespace Sys2Proof.Machine

/-- A sparse table of values under numbered keys: keys rise strictly, and no entry equals the value
that an unlisted key reads as. -/
structure Tbl (α : Type) where
  cells : List (Nat × α) := []
deriving DecidableEq, Repr, Inhabited

/-! ### Time base -/

/-- The oscillator's counter and local time (10_time_base_and_alignment.md R335, R336).
`now`, `tb` and `rate` are in units of 2^-45 ps and 2^-60; 1 ns is 1000 * 2^45 units. -/
structure Clock where
  /-- TIM_RAW, the base-clock counter (R335). -/
  raw : Nat := 0
  /-- Local time. -/
  now : Nat := 0
  /-- Counter at the last anchor. -/
  cb : Nat := 0
  /-- Local time at the last anchor. -/
  tb : Nat := 0
  /-- Rate in force since the anchor, r = rho + TCOMP, in 2^-60. -/
  rate : Int := 0
deriving DecidableEq, Repr, Inhabited

/-- A stitch-event delivery that waits for its time (R354). -/
structure EventDue where
  event : Nat
  time : Nat
deriving DecidableEq, Repr, Inhabited

/-- The PTP port of the service-core firmware (R355, R357, R369). -/
structure Ptp where
  en : Bool := false
  transport : Nat := 0
  domain : Nat := 0
  /-- The data set of the best master heard, as the comparison key of the default algorithm. -/
  best : Option AnnounceMsg := none
  /-- When it was heard last. -/
  bestAt : Nat := 0
  /-- The master's announced log Sync interval, once heard. -/
  logSync : Option Int := none
  /-- The interval at which the master asks for Delay_Req messages, log2 of seconds. -/
  logDelayReq : Int := 0
  /-- The Sync in hand: sequence, MAC stamp t2, and t1 and correction once known, in 2^-16 ns. -/
  syncSeq : Nat := 0
  syncT2 : Option Int := none
  syncT1 : Option Int := none
  syncCorr : Int := 0
  /-- The Delay_Req in hand: sequence and MAC stamp t3. -/
  reqSeq : Nat := 0
  reqT3 : Option Int := none
  /-- The path delays of the last 64 exchanges, newest first. -/
  delays : List Int := []
  sent : Nat := 0
  /-- When the last Delay_Req was sent. -/
  reqAt : Option Nat := none
deriving DecidableEq, Repr, Inhabited

/-- A compare unit (R360). -/
structure Compare where
  /-- The target read at ARM: full format in units, compact format in 2^-8 ns. -/
  target : Nat := 0
  /-- TIM_CMPFIRE. -/
  fired : Nat := 0
deriving DecidableEq, Repr, Inhabited

/-- A pulse output (R362). -/
structure Tpo where
  /-- Index k of the next pulse. -/
  next : Nat := 0
  /-- Pulses still to emit; none: without end. -/
  left : Option Nat := none
  start : Nat := 0
  /-- PERIOD in 2^-16 ns and WIDTH in ns of the train in progress. -/
  period : Nat := 0
  width : Nat := 0
  /-- End of the pulse in progress. -/
  pulseEnd : Option Nat := none
  /-- Leading edges emitted, newest first (half-picoseconds). -/
  edges : List Nat := []
deriving DecidableEq, Repr, Inhabited

/-- A capture input (R363). -/
structure Tci where
  stamps : List Nat := []
  lastEdge : Option Nat := none
deriving DecidableEq, Repr, Inhabited

/-- Servo, steps, stitch ring and PTP (R343 to R357). -/
structure TimeBase where
  rho : Int := 0
  integ : Int := 0
  srcInForce : Nat := 0
  count : Nat := 0
  bad : Nat := 0
  lastMeas : Option Nat := none
  /-- Measurements passed to the servo with their source, oldest first; the time of the last one, or of entry to acquiring. -/
  meas : List (Nat × Int) := []
  measT : Nat := 0
  stepHost : Option Int := none
  stepServo : Option Int := none
  lastStep : Int := 0
  ringOff : Int := 0
  ringDly : Int := 0
  ringClose : Int := 0
  ptpOff : Int := 0
  ptpDly : Int := 0
  gmid : Nat := 0
  rawRel : Nat := 0
  ageDone : Nat := 0
  /-- Readings of the crystal temperature that have fallen due (R340). -/
  xtalDone : Nat := 0
  /-- TIM_XTEMP holds a reading. -/
  xtalHeld : Bool := false
  ringTicks : Nat := 0
  ringSeq : Nat := 0
  ringT1 : Option Int := none
  ringLost : Nat := 0
  events : List EventDue := []
  /-- The base-clock cycle, as TIM_RAW counts it, of each event's last delivery (R354). -/
  delivered : Tbl (Option Nat) := {}
  stitchOut : List (Nat × Block) := []
  ptp : Ptp := {}
  compares : Tbl Compare := {}
  tpos : Tbl Tpo := {}
  tcis : Tbl Tci := {}
deriving DecidableEq, Repr, Inhabited

/-! ### Dependability -/

/-- A record of the RAS log (15_dependability.md R481, Table 15.2). -/
structure RasRec where
  source : Nat
  severity : Nat
  island : Nat
  time : Nat
  tv : Bool
  count : Nat
  addr : Nat
  sites : Nat
  engine : Option Nat
  port : Option Nat
  /-- The base-clock cycle of the record, which no step or reset of local time moves. -/
  raw : Nat
deriving DecidableEq, Repr, Inhabited

/-- The RAS block (R476 to R490). -/
structure Ras where
  /-- Records held, oldest first; at most 1,024. -/
  log : List RasRec := []
  /-- RAS_LOGPOS, the next position. -/
  pos : Nat := 0
  corrected : Nat := 0
  contained : Nat := 0
  fatal : Nat := 0
  /-- RAS_UNAVAIL in base-clock cycles. -/
  unavail : Nat := 0
  /-- Base-clock cycle of the start of the unavailability in progress (R487), and its causes: a fatal hold or a watchdog reset, and the set of ports
  that are down without a host's write. -/
  unavailFrom : Option Nat := none
  outage : Bool := false
  portsDown : Nat := 0
  /-- Dispatch is held by a fatal error (R479). -/
  hold : Bool := false
  /-- A warm reset is due for a fatal error (R479). -/
  resetDue : Bool := false
  /-- Times of the errors that name an engine (R483). -/
  engErrs : Tbl (List Nat) := {}
  /-- Engine under march test. -/
  march : Option Nat := none
  /-- The SRAM scrub: the start of the period at work, and the items with their addresses that it has read in it (R480). -/
  scrubFrom : Nat := 0
  scrubbed : List (SramItem × Nat) := []
deriving DecidableEq, Repr, Inhabited

/-! ### DRAM -/

/-- A bolt of DRAM (06_pattern_memory.md R205, R227, R247). -/
structure Bolt where
  alloc : Bool := false
  lost : Bool := false
  site : Nat := 0
deriving DecidableEq, Repr, Inhabited

/-- A line in a write queue: its requester class (0 real-time, 1 host, 2 service) and entry time (R210, R211). -/
structure WqLine where
  cls : Nat
  time : Nat
deriving DecidableEq, Repr, Inhabited

/-- The write queue of a pseudo-channel, oldest line first; in a drain, the real-time reads that may still issue before its next 8 writes
(R210). -/
structure Wq where
  lines : List WqLine := []
  draining : Bool := false
  quota : Nat := 0
deriving DecidableEq, Repr, Inhabited

/-- A request that the controller does not take yet, in arrival order (R211, R226): a write of the device's own writers, or the packet at
the front of a port's inbound buffer. -/
inductive Held where
  | write (cls addr : Nat) (data : List Byte)
  | port (p : Nat)
deriving DecidableEq, Repr

/-- A refresh group (R216 to R219). -/
structure Group where
  /-- Next due point. -/
  due : Nat := 0
  /-- A start has been announced for this time. -/
  announced : Option Nat := none
  /-- End of the group's last refresh. -/
  lastEnd : Option Nat := none
  /-- The doubled rate applies to the interval in progress. -/
  doubled : Bool := false
  /-- A forced refresh waits. -/
  forced : Bool := false
deriving DecidableEq, Repr, Inhabited

/-- The DRAM and its controller. -/
structure Dram where
  /-- Bytes; an unlisted address reads 0 (R207, R452). -/
  mem : List Host.Cell := []
  /-- Lines (byte address / 64) that read poisoned (R222, R223), rising. -/
  poison : List Nat := []
  bolts : Tbl Bolt := {}
  /-- Wipes in progress, in order: first bolt, count, and whether a FREE command began it (R207). -/
  wipes : List (Nat × Nat × Bool) := []
  wqs : Tbl Wq := {}
  held : List Held := []
  /-- Of the held requests, the first ones that already waited when entry to self-refresh began (R225). -/
  heldAtEnter : Nat := 0
  groups : Tbl Group := {}
  /-- The real-time read load exceeded 75 % of 614.4 GB/s when it was last measured (R219). -/
  loadHigh : Bool := false
  /-- Group in refresh with the end of its refresh. -/
  inRefresh : Option (Nat × Nat) := none
  /-- The rate selected by the last temperature poll. -/
  doubledSel : Bool := false
  /-- RETAIN read at ENTER; an EXIT kept during entry (R226). -/
  retain : Nat := 0
  exitKept : Bool := false
  ceCount : Nat := 0
  ueCount : Nat := 0
  wRefuse : Nat := 0
  /-- Next line of the scrub, and the local time at which its read falls due (R223, R245). -/
  scrubNext : Nat := 0
  scrubAt : Nat := 0
deriving DecidableEq, Repr, Inhabited

/-- A line in an engine's prefetch buffer of 512 lines (06_pattern_memory.md R213): its tag, which is a line of DRAM or a line of the
site's stream ring, and its 64 bytes as they were read. -/
structure Fetched where
  ring : Bool
  key : Nat
  data : Nat
  poison : Bool
deriving DecidableEq, Repr

/-- A site's stream ring (R229 to R231). -/
structure Ring where
  w : Nat := 0
  f : Nat := 0
  /-- The read pointer: the position after the last instruction executed in the stream (02_asell_programs.md R67, R68). -/
  rd : Nat := 0
  g : Nat := 0
  m : Nat := 0
  /-- DRC_SRUNDER; none: all ones. -/
  under : Option Nat := none
  /-- Lines received since the session began. -/
  received : Nat := 0
  /-- Lines from the read pointer on that the engine of the last burst has fetched, for the next one (DEDUCED, log 211). -/
  lines : List Fetched := []
deriving DecidableEq, Repr, Inhabited

/-! ### Ledger -/

/-- A seal in progress: the first position of its span, the position after its last, and the position of its SEAL entry (R276). -/
structure Seal where
  first : Nat
  stop : Nat
  sealPos : Nat
deriving DecidableEq, Repr, Inhabited

/-- The result ledger (07_capture_and_acquisition.md R272, R273, R276). -/
structure Ledger where
  wpos : Nat := 0
  ack : Nat := 0
  drop : Nat := 0
  /-- Entries dropped since the last GAP entry. -/
  gap : Nat := 0
  /-- Start of the current span. -/
  span : Nat := 0
  sealing : Option Seal := none
deriving DecidableEq, Repr, Inhabited

/-! ### Ports and lanes -/

/-- A 64-bit queue word with its end mark (11_lanes_and_host_link.md R398). -/
structure QWord where
  data : Word64 := 0
  mark : Bool := false
deriving DecidableEq, Repr, Inhabited

/-- The alignment markers that a bundle or a lane sends (11_lanes_and_host_link.md R376): SEQ and time of the last one. -/
structure Marks where
  seq : Nat := 0
  time : Nat := 0
deriving DecidableEq, Repr, Inhabited

/-- A host port HPp (R387 to R406) and its mailbox, queues, credits and counters. -/
structure Port where
  session : Nat := 0
  peerSession : Option Nat := none
  txSeq : Nat := 0
  rxSeq : Nat := 0
  replay : List (Nat × Packet) := []
  sendq : List Packet := []
  /-- Packets accepted that have not acted, oldest first; the first `inboundOld` of them belong to an earlier session. -/
  inbound : List Packet := []
  inboundOld : Nat := 0
  ackT : Nat := 0
  nakOut : Bool := false
  sinceAck : Nat := 0
  ackSentT : Nat := 0
  /-- Control blocks sent, newest first. -/
  ctlOut : List Block := []
  /-- A write by a row of the port, at its address, that waits for room or for a stage: nothing of the port acts before it (R402, R403). -/
  waitWrite : Option (Nat × Word) := none
  /-- Lines of stream data discarded for each site that the port does not own: their credits return (R392, R395). -/
  strmBack : Tbl Nat := {}
  negRx : Bool := false
  /-- Credits returned by the device since the session began, by class. -/
  retReqH : Nat := 0
  retReqD : Nat := 0
  retPost : Nat := 0
  /-- Header credits the host has used since the session began. -/
  usedReqH : Nat := 0
  /-- Credits withheld (R397). -/
  whReqH : Nat := 0
  whReqD : Nat := 0
  whPost : Nat := 0
  /-- Credits the device holds from the host, and the last totals of its CREDIT blocks (R394). -/
  cplH : Nat := 0
  cplD : Nat := 0
  post : Nat := 0
  totCplH : Nat := 0
  totCplD : Nat := 0
  totPost : Nat := 0
  /-- Classes the host has stopped by XOFF (bit = class code), and the device's own XOFF state (R396). -/
  xoffRx : Nat := 0
  xoffTx : Nat := 0
  xoffSites : Nat := 0
  /-- The device's and the partner's active sets, and sets announced for a marker (R381). -/
  txSet : Nat := 0
  rxSet : Nat := 0
  txNext : Option (Nat × Nat) := none
  rxNext : Option (Nat × Nat) := none
  /-- The markers that the device sends on the bundle (R376), and when it last sent its NEG (R387). -/
  marks : Marks := {}
  negT : Nat := 0
  /-- When the device last repeated its totals, or the states of its classes (R394, R396). -/
  creditT : Nat := 0
  /-- The base-clock cycle, as TIM_RAW counts it, of the last flush of each queue: a flush acts after everything else of its cycle (R404). -/
  evFlushAt : Option Nat := none
  cmdFlushAt : Option Nat := none
  /-- A rate step in progress: previous rate and deadline; a rate named for a marker; rates that failed (R388). -/
  rateStep : Option (Nat × Nat) := none
  rateNext : Option (Nat × Nat) := none
  failedRates : Nat := 0
  area : List QWord := []
  chain : List QWord := []
  held : QWord := {}
  /-- Words leaving the area are discarded through the next end mark (R404). -/
  evDiscard : Bool := false
  /-- Kind of the packet partly entered, and of the packet partly taken. -/
  evIn : Option Nat := none
  evOut : Option Nat := none
  cmd : List QWord := []
  /-- Words of the packet in progress that the service cores have taken, oldest first. -/
  cmdTaken : List Word64 := []
  cmdSkip : Bool := false
  /-- A packet of more than 32 words is being discarded (R403). -/
  cmdLong : Bool := false
  /-- Complete command packets taken and not acted on, oldest first; service responses that wait for room (R410). -/
  cmdPkts : List (List Word64) := []
  svcWait : List (List Word64) := []
  msiOr : Bool := false
  msiDue : Bool := false
  /-- The MSI that is due fell due within the holdoff (R406). -/
  msiLate : Bool := false
  msiT : Option Nat := none
  replays : Nat := 0
  naks : Nat := 0
  dupDrop : Nat := 0
  badPkt : Nat := 0
  strmDrop : Nat := 0
  sessDrop : Nat := 0
  evDisc : Nat := 0
  evDiscCpl : Nat := 0
  cmdDisc : Nat := 0
  cmdBad : Nat := 0
  /-- The mailbox latch in progress: table, row, instance; and the latched words (12_register_interface.md R425). -/
  mbx : Option (Nat × Nat × Nat) := none
  mbxData : List Word := []
deriving DecidableEq, Repr, Inhabited

/-- A lane's receiver (R376 to R384). -/
structure Lane where
  seq : Option Nat := none
  /-- When the last marker arrived that was in sequence (R380). -/
  seqT : Nat := 0
  missed : Nat := 0
  /-- The markers that a CL or ST lane sends (R376), and the last marker that the lane has sent. -/
  marks : Marks := {}
  sent : Option Block := none
  /-- The blocks dealt to the lane that lie behind that marker, newest first, each with its slot: its place in the stream of the lane's
  blocks that are no markers (R381). -/
  dealt : List (Nat × Block) := []
  /-- Capture stream: the place of the next sample in its block of eight, and whether that block does not cross (R383). -/
  rxSlot : Nat := 0
  rxDrop : Bool := false
  retrains : Nat := 0
  /-- Times of the retrains of the last second. -/
  retrainT : List Nat := []
  dropBlk : Nat := 0
  /-- The last payload block that a source unit put on the lane (08_waveform_source.md R286). -/
  txBlk : Option Block := none
  /-- Time the lane entered CDR. -/
  cdrT : Nat := 0
  /-- Time of the last tracking step of the filter. -/
  trackT : Nat := 0
deriving DecidableEq, Repr, Inhabited

/-! ### Sites -/

/-- A site's declaration (05_sites_and_dispatch.md R154). -/
structure Decl where
  en : Bool := false
  /-- The set of its channels. -/
  chans : Nat := 0
  paired : Bool := false
  owner : Nat := 0
deriving DecidableEq, Repr, Inhabited

/-! ### Cuffs and channels -/

/-- The active copy of a channel's entry in a timing set: format, and the offsets of the six edges of Table 4.1
in half-picoseconds (04_timing_sets_and_edges.md R115, R129). -/
structure ChanSet where
  fmt : Nat := 0
  edges : List Nat := []
deriving DecidableEq, Repr, Inhabited

/-- A drive edge on its way on a channel's timeline (R116, R127): its time and the T0 of its vector in half-picoseconds,
the number a collision record gives, and what it does to the enable, the data and the current data. -/
structure DriveEdge where
  time : Nat
  t0 : Nat
  num : Nat
  en : Option Bool := none
  data : Option Bool := none
  /-- The data change is a DAT or RET, which sets the current data (R119). -/
  cur : Bool := false
deriving DecidableEq, Repr

/-- A channel's driver and timelines (R119, R127, R135, R136). -/
structure Chan where
  en : Bool := false
  data : Bool := false
  cur : Bool := false
  /-- Drive edges that have not arrived, in time order, earlier vectors first at one instant. -/
  edges : List DriveEdge := []
  /-- Time and vector T0 of the last drive edge placed. -/
  last : Option (Nat × Nat) := none
  /-- SCLOSE of the last strobe window placed. -/
  lastClose : Option Nat := none
deriving DecidableEq, Repr, Inhabited

/-- How far a strobe window has come. -/
inductive WinStage where
  | waiting
  | opened
  | done
deriving DecidableEq, Repr

/-- A strobe window of a vector (R121, R136), times in half-picoseconds. -/
structure Win where
  chan : Nat
  slot : Nat
  opens : Nat
  closes : Nat
  /-- The compare kind of Table 4.2. -/
  cmp : Nat
  suppressed : Bool
  stage : WinStage := .waiting
  ch : Bool := false
  cl : Bool := false
  pass : Bool := false
deriving DecidableEq, Repr

/-- A change of acquisition state that a vector carries to its result (02_asell_programs.md R45, R65). -/
inductive AcqAct where
  | arm (u : Nat)
  | disarm (u : Nat)
deriving DecidableEq, Repr

/-- A vector that has been released and whose results have not returned (07_capture_and_acquisition.md R252). -/
structure Flight where
  t0 : Nat
  /-- Its number, when numbered. -/
  num : Option Nat
  /-- The number a record of an unnumbered vector carries (R137). -/
  after : Nat
  matchRep : Bool := false
  capture : Bool := false
  capMode : Nat := 0
  /-- TIME_VALID at its T0 (R274). -/
  tv : Bool := false
  acts : List AcqAct := []
  wins : List Win := []
deriving DecidableEq, Repr

/-- A commit of a timing set (R130, R132). -/
structure Commit where
  set : Nat
  period : Nat
  chans : List (Nat × ChanSet)
  /-- Validation has passed, and the commit waits for this apply point. -/
  applyAt : Option Nat := none
deriving DecidableEq, Repr

/-! ### Capture and acquisition -/

/-- A record line being filled (07_capture_and_acquisition.md R257). -/
structure OpenLine where
  type : Nat
  log2f : Nat
  index : Nat
  count : Nat
  /-- Size of a record in bytes. -/
  size : Nat
  /-- The index that continues the line. -/
  nextIdx : Nat
  data : List Byte
deriving DecidableEq, Repr

/-- A closed line in a buffer: where it goes in DRAM, and whether its bytes count in the write position of the
acquisition or burst in hand (R258, R270, R283). -/
structure BufLine where
  addr : Nat
  data : List Byte
  counted : Bool := true
  /-- The line had an uncorrectable error in the buffer, and is written poisoned (15_dependability.md R477). -/
  poison : Bool := false
  /-- The inputs of the records of a line of stamps (09_time_measurement.md R321); empty for a capture line. -/
  stamps : List Nat := []
deriving DecidableEq, Repr

/-- A site's capture (R256 to R258): its buffer of closed lines, oldest first, its open line and its values. -/
structure Capture where
  /-- ACQ_CAPBASE as the write of EN = 1 found it: the region whose bolts that write checked (R256). -/
  region : Word := 0
  buf : List BufLine := []
  line : Option OpenLine := none
  /-- Bytes of the region taken by closed lines. -/
  pos : Nat := 0
  vec : Nat := 0
  lostv : Nat := 0
  wpos : Nat := 0
  /-- The drain has used its grant up to this local time. -/
  drainT : Nat := 0
  lostNow : Bool := false
deriving DecidableEq, Repr, Inhabited

/-- An item offered to an acquisition unit (R260): its index, its time in units, the H and F words of a digital item,
or the sample. -/
structure Item where
  idx : Nat
  time : Nat
  h : Nat := 0
  f : Nat := 0
  smp : Int := 0
deriving DecidableEq, Repr

/-- The settings an acquisition unit reads at arming (R279, R280). -/
structure AcqCfg where
  stream : Bool := false
  strm : Nat := 0
  /-- The slots of the group in ascending order. -/
  slots : List Nat := []
  trig : Word := 0
  tlevel : Word := 0
  pre : Nat := 0
  post : Nat := 0
  dec : Word := 0
  maskctl : Word := 0
  rbase : Word := 0
  envtab : Word := 0
  pword : Nat := 0
  pcare : Nat := 0
  expect : Nat := 0
  ecare : Nat := 0
  gopen : Nat := 0
  gclose : Nat := 0
deriving DecidableEq, Repr, Inhabited

/-- An acquisition unit ACQu (R260 to R270). Its state is ACQ_STAT.STATE. -/
structure Acq where
  cfg : AcqCfg := {}
  /-- The envelope table is being loaded (R261). -/
  loading : Bool := false
  /-- Gate times in units, taken at the write of word 2 (R280). -/
  gopen : Nat := 0
  gclose : Nat := 0
  rearm : Nat := 0
  force : Bool := false
  /-- A host's ARM (true) or DISARM (false) since the last item: it names the same item as a program's request at the next one (R261). -/
  hostReq : Option Bool := none
  /-- The local time of the first sample offered after arming (R260). -/
  firstT : Option Nat := none
  /-- The values of Table 7.14. -/
  offered : Nat := 0
  captured : Nat := 0
  recorded : Nat := 0
  decimated : Nat := 0
  lost : Nat := 0
  trigIdx : Option Nat := none
  violations : Nat := 0
  firstViol : Option Nat := none
  firstFail : Option Nat := none
  failCnt : Tbl Nat := {}
  sum : Int := 0
  sumsq : Nat := 0
  least : Option Int := none
  greatest : Option Int := none
  rwpos : Nat := 0
  redlost : Nat := 0
  /-- The envelope table, entry p as 32 bits (R264). -/
  env : List Nat := []
  /-- Spacing exponent, floor, and the next item to be recorded (R268). -/
  exp : Nat := 0
  floor : Nat := 0
  nextKept : Option Nat := none
  /-- Closed lines not yet drained, oldest first, the bytes of the region that closed lines have taken, and whether
  a record found no line of the region left; then the open lines. -/
  buf : List BufLine := []
  pos : Nat := 0
  full : Bool := false
  raw : Option OpenLine := none
  envLine : Option OpenLine := none
  bmLine : Option OpenLine := none
  drainT : Nat := 0
  /-- Items of the pre-trigger part, newest first, and their count since the part began to fill (R263). -/
  pre : List Item := []
  preCount : Nat := 0
  /-- Items of the span still to come after the trigger item. -/
  postLeft : Nat := 0
  /-- Last samples, newest first, and the state of the LEVEL trigger: -1 low, 1 high, 0 neither. -/
  hist : List Int := []
  level : Int := 0
  lastH : Option Nat := none
  /-- Minimum and maximum of the envelope block in progress, and fails of the bitmap block in progress. -/
  envBlk : Option (Nat × Int × Int) := none
  bmBlk : Option (Nat × Nat) := none
  /-- A VIOLATION entry has been written in this burst (R265). -/
  violated : Bool := false
deriving DecidableEq, Repr, Inhabited

/-- A site's stamp region (09_time_measurement.md R321, R322): its open line of records, the time that line began, the bytes
of the region taken by closed lines, and TDC_RWPOS. -/
structure StampRegion where
  /-- TDC_RBASE when the open line was opened. -/
  base : Word := 0
  line : List Byte := []
  inputs : List Nat := []
  since : Nat := 0
  pos : Nat := 0
  wpos : Nat := 0
deriving DecidableEq, Repr, Inhabited

/-- A site Ss. -/
structure Site where
  decl : Decl := {}
  /-- A passed declaration that has not taken effect, and whether the site is releasing what it holds (R155, R156). -/
  next : Option Decl := none
  releasing : Bool := false
  /-- The site is being reset (R158), and its wipe runs. -/
  resetting : Bool := false
  wiping : Bool := false
  stamps : StampRegion := {}
  commit : Option Commit := none
  /-- Vectors whose results have not returned, oldest first. -/
  flight : List Flight := []
  cap : Capture := {}
deriving DecidableEq, Repr, Inhabited

/-! ### Waveform sources -/

/-- A segment table entry as the unit read it (08_waveform_source.md R288): its samples' first line, its length in samples,
and the fields of Table 8.2. -/
structure Segment where
  start : Nat
  len : Nat
  next : Nat
  rate : Nat
  passes : Nat
  ends : Bool
  jump : Bool
deriving DecidableEq, Repr

/-- What reading a segment entry gave: a segment, or the fault code of Table 8.3 (R289). -/
inductive SegRead where
  | seg (s : Segment)
  | fault (code : Nat)
deriving DecidableEq, Repr

/-- A request to a source unit (R294). -/
inductive SrcAct where
  | start
  | redirect
  | stop
deriving DecidableEq, Repr

/-- A request delivered and not latched: its delivery time in half-picoseconds, and for a timed start its time. -/
structure SrcReq where
  act : SrcAct
  entry : Nat
  time : Nat
  host : Bool := false
  timed : Option Nat := none
deriving DecidableEq, Repr

/-- A line of samples in a source unit's buffer (R299): its byte address, its 64 bytes as one number, the lowest first, and whether it read
poisoned. -/
structure SrcLine where
  addr : Nat
  data : Nat
  poison : Bool
deriving DecidableEq, Repr

/-- A visit that a source unit has read ahead (R290, R299, R300): its entry as read, the lines of its samples in the buffer, oldest first, and
how many it has fetched. -/
structure Visit where
  entry : Nat
  read : SegRead
  lines : List SrcLine := []
  fetched : Nat := 0
deriving DecidableEq, Repr

/-- A request latched and not carried out (R296, R297): for a redirect the visit to its target, read after the latch; the slot time in
half-picoseconds at which it was latched; the pass ends still to let go before the first candidate; and whether play has entered the hem
before its switch. -/
structure SrcPend where
  target : Option Visit
  latch : Nat
  skip : Nat
  decided : Bool := false
deriving DecidableEq, Repr

/-- A visit in play (R291 to R293): entry, segment, position in 2^-32 samples, and passes still to come after this one; its lines in the
buffer and how many it has fetched (R299); and whether its first samples may be late (R300). -/
structure Play where
  entry : Nat
  seg : Segment
  pos : Nat
  left : Nat
  lines : List SrcLine
  fetched : Nat
  urgent : Bool
deriving DecidableEq, Repr

/-- A source unit SRCn. Its state is SRC_STAT.STATE. -/
structure Source where
  /-- Anchor A in units, and the next slot. -/
  anchor : Int := 0
  slot : Nat := 0
  /-- Time of SRC_TSTART in units, taken at the write of word 2 (R308). -/
  tstart : Nat := 0
  reqs : List SrcReq := []
  /-- A start that waits: its visit, and its earliest time in half-picoseconds. -/
  starting : Option (Visit × Nat) := none
  /-- That time is one the start names, and no instant counted from its latch (R295). -/
  startTimed : Bool := false
  play : Option Play := none
  /-- Visits read ahead along the chain, in order. -/
  ahead : List Visit := []
  pend : Option SrcPend := none
  /-- A request latched after the pending one was decided (R297). -/
  pend2 : Option SrcPend := none
  /-- The last sample sent, once one has been played. -/
  last : Option Nat := none
  /-- The slots of the block being filled, oldest first (R286). -/
  block : List Nat := []
  /-- The values of Table 8.11. -/
  idleSlots : Nat := 0
  played : Nat := 0
  underSamp : Nat := 0
  poisonSamp : Nat := 0
  firstUnder : Option Nat := none
  startSlot : Nat := 0
  replaced : Nat := 0
deriving DecidableEq, Repr, Inhabited

/-! ### Scheduler -/

/-- Where an accepted descriptor is (05_sites_and_dispatch.md R172 to R177). -/
inductive Place where
  | delay
  | pending
  | ready
  | engine (e : Nat)
deriving DecidableEq, Repr

/-- An accepted descriptor (R164, R167, R172). Times are in units. -/
structure Desc where
  handle : Nat
  port : Nat
  load : Nat
  entry : Nat
  site : Nat
  prio : Nat
  start : Nat
  miss : Bool
  under : Bool
  aff : Nat
  engine : Nat
  event : Nat
  startT : Nat
  user : Word64
  place : Place
  /-- Release time, whether its comparator is armed, and the order of entry into the pending set or the ready queue. -/
  release : Nat := 0
  armed : Bool := false
  order : Nat := 0
  /-- When it entered its ready queue. -/
  readyAt : Nat := 0
  /-- The number of its acceptance, not reduced. -/
  accept : Nat
  /-- An event of an event start has arrived at this time since the commitment (R177). -/
  got : Option Nat := none
  /-- When it was committed. -/
  commitAt : Nat := 0
  /-- An abort has been requested at this time before its engine had the burst (R179, R180). -/
  abort : Option Nat := none
  /-- The scheduler cycle of a cancel that found it committed (R182). -/
  cancelAt : Option Nat := none
  /-- The completion FLAGS that it has got between its commitment and its engine's receipt (06_pattern_memory.md R234,
07_capture_and_acquisition.md R271). -/
  flags : Nat := 0
deriving DecidableEq, Repr

/-- A registered loadable (R162): its site, its header fields (02_asell_programs.md R72), its measurement and those of its
user routines by number (R74, R90). -/
structure Loadable where
  site : Nat
  base : Nat
  n : Nat
  defaultTs : Nat
  attr : Nat
  buildId : Nat
  entryCount : Nat
  tableCount : Nat
  maskCount : Nat
  uopCount : Nat
  codeOff : Nat
  codeWords : Nat
  tableOff : Nat
  maskOff : Nat
  entryOff : Nat
  symreqOff : Nat
  uopOff : Nat
  padOff : Nat
  total : Nat
  digest : Nat
  routines : List (Nat × Nat)
deriving DecidableEq, Repr

/-- A port's part of the scheduler: its submission number, its held submission with the order of holding (R166, R170), its
registration in progress (site, bolt, and the code of Table 5.1 if it has failed already), and the values of Table 5.25. -/
structure SchPort where
  seq : Nat := 0
  held : Option (Nat × Nat × List Word64) := none
  reg : Option (Nat × Nat × Nat) := none
  accepted : Nat := 0
  completed : Nat := 0
  refused : Nat := 0
  invalid : Nat := 0
deriving DecidableEq, Repr, Inhabited

/-- The scheduler. -/
structure Sched where
  /-- Descriptors by slot. -/
  descs : Tbl (Option Desc) := {}
  accepts : Nat := 0
  /-- Entries so far into pending sets, ready queues and the list of held submissions. -/
  orders : Nat := 0
  /-- The cycle in which a submission was held last, and its order (R171); the first times at which another descriptor may leave the delay
  list (R173) and may be committed (R175); and the engines that SCH_ENGEN has lost in a cycle (R176). -/
  lastHeld : Option (Nat × Nat) := none
  nextLeave : Nat := 0
  nextCommit : Nat := 0
  /-- A scheduler cycle and the start events that have arrived in it: code, the site where it belongs to one, and time (R177). -/
  heard : Nat × List (Nat × Option Nat × Nat) := (0, [])
  justBarred : Nat × Nat := (0, 0)
  registry : Tbl (Option Loadable) := {}
  ports : Tbl SchPort := {}
  /-- The next tick boundary in local time, and the length of the tick in progress in 256 ns (R172, R188). -/
  tickAt : Nat := 1024000 * 2 ^ 45
  tickLen : Nat := 4
  /-- Dispatch is held: by a package load that waits or runs, by standby, by a JTAG instruction. -/
  ucodeHold : Bool := false
  standby : Bool := false
  jtagHold : Bool := false
  /-- Cuffs whose PLL has lost lock and not regained it (15_dependability.md R478). -/
  pllLost : Nat := 0
deriving DecidableEq, Repr, Inhabited

/-! ### Stampers -/

/-- A stamp (09_time_measurement.md R316, Table 9.1), its time in 2^-16 ns. -/
structure Stamp where
  time : Nat
  eidx : Nat
  rising : Bool
  lk : Bool
  tv : Bool
  mrg : Bool
deriving DecidableEq, Repr

/-- A stamp input (R313 to R323). Ends of hold-off and dead time are base-clock counts. -/
structure StampIn where
  queue : List Stamp := []
  holdEnd : Nat := 0
  deadEnd : Nat := 0
  mrg : Bool := false
  edges : Nat := 0
  heldoff : Nat := 0
  merged : Nat := 0
  stamps : Nat := 0
  qlost : Nat := 0
  recorded : Nat := 0
  rlost : Nat := 0
  unrec : Nat := 0
  /-- Consecutive measurements of the replica within a quarter LSB (R318). -/
  good : Nat := 0
  /-- TIM_RAW at the last of them (R318). -/
  loopRaw : Nat := 0
deriving DecidableEq, Repr, Inhabited

/-- An interval unit (R324 to R327): the settings and arm time of its run, the stamps that wait for a partner,
and its results. Times are in 2^-16 ns. -/
structure Interval where
  start : Nat := 0
  stop : Nat := 0
  spol : Nat := 0
  tpol : Nat := 0
  limit : Nat := 0
  arm : Nat := 0
  starts : List Nat := []
  stops : List Nat := []
  count : Nat := 0
  neg : Nat := 0
  last : Int := 0
  least : Int := 0
  greatest : Int := 0
  sum : Int := 0
  sumsq : Nat := 0
deriving DecidableEq, Repr, Inhabited

/-- A frequency unit (R328 to R330): gate registers as taken, the settings of its run, its sums and its results. -/
structure Freq where
  gopen : Nat := 0
  gclose : Nat := 0
  input : Nat := 0
  pol : Nat := 0
  opens : Nat := 0
  closes : Nat := 0
  first : Option (Nat × Nat) := none
  n : Nat := 0
  sx : Int := 0
  sy : Int := 0
  sxx : Int := 0
  sxy : Int := 0
  syy : Int := 0
  /-- TDC_FQN, TDC_FQPER, TDC_FQFREQ, TDC_FQRES and TDC_FQT0. -/
  resN : Nat := 0
  per : Nat := 0
  freq : Nat := 0
  res : Nat := 0
  t0 : Nat := 0
  /-- Local time has been stepped since the run was armed (R330). -/
  stepped : Bool := false
deriving DecidableEq, Repr, Inhabited

/-! ### Calibration -/

/-- A calibration operation in progress (13_calibration.md R434 to R441). -/
structure CalOp where
  /-- A run; otherwise a host commit. -/
  run : Bool
  qty : Nat
  target : Nat
  /-- The passes of a run have begun, and GLB_GRAD.LIMIT has been set since. -/
  passes : Bool := false
  limit : Bool := false
  /-- The snapshot of a commit: active register addresses with their words, and LIN entries by input and code. -/
  snap : Option (List (Nat × Word) × List (Nat × Nat)) := none
deriving DecidableEq, Repr

/-- Calibration. LIN tables are keyed 2048 * input + code; an unlisted entry is 10 times its code (R447).
`temps` holds island temperatures at the last commits, keyed 64 * quantity + island (R445). -/
structure Cal where
  op : Option CalOp := none
  linShadow : Tbl (Option Nat) := {}
  linActive : Tbl (Option Nat) := {}
  last : Tbl (Option Nat) := {}
  runs : Tbl Nat := {}
  rejects : Tbl Nat := {}
  temps : Tbl (Option Int) := {}
  /-- By how much a channel's drive and strobe edges have moved, in 2^-4 ps, by writes of its active trims and offsets since its last commit (R447). -/
  moved : Tbl (Int × Int) := {}
  /-- Samples of crystal temperature in 1/128 °C with ρ + TCOMP in 2^-60, newest first, 65,536 at most (R436). -/
  samples : List (Int × Int) := []
deriving DecidableEq, Repr, Inhabited

/-! ### Power, life cycle and trust -/

/-- The one-time-programmable store (14_power_reset_and_trust.md R460 to R469). -/
structure Otp where
  /-- Life-cycle state in the encoding of GLB_STAT.LCSTATE. -/
  lc : Nat := 0
  /-- Identity key slots: abandoned ones, and the private scalar in use. -/
  abandoned : Nat := 0
  key : Option Nat := none
  /-- The set of revoked vendor keys, and the minimum SVNs (R469). -/
  revoked : Nat := 0
  pkgMin : Nat := 0
  fwMin : Nat := 0
deriving DecidableEq, Repr, Inhabited

/-- A request to the trust engine's signer (R472): a quote of a port with its nonce, or the seal in progress. -/
inductive SignReq where
  | quote (port : Nat) (nonce : List Byte)
  | span
deriving DecidableEq, Repr

/-- An image load (R467, R468): its kind, the bytes received, whether its check runs, and for an image that the boot ROM runs, whether
it came from the boot flash. -/
structure ImageLoad where
  kind : Nat
  data : List Byte
  checking : Bool := false
  boot : Option Bool := none
deriving DecidableEq, Repr

/-- Power, resets and the trust engine. -/
structure Trust where
  otp : Otp := {}
  /-- A reset is in progress: its release point has not been passed (R452). -/
  held : Bool := true
  /-- A resume kept during entry to standby (R458). -/
  resumeKept : Bool := false
  /-- DRAM exit and cuff PLLs have still to end before dispatch restarts (R458). -/
  resuming : Bool := false
  /-- Local time of the last KICK (R454). -/
  kick : Nat := 0
  /-- The DRAM wipe of the boot sequence has ended (R452). -/
  wiped : Bool := false
  /-- The device is in a power fail (R450), and for how many base-clock cycles its rails still hold the parked outputs
  (16_electrical_and_package.md R493). -/
  failed : Bool := false
  parked : Nat := 0
  /-- The package that the booted firmware carries has been checked, and loaded where it passed (R467). -/
  bootPkg : Bool := false
  bootTime : Nat := 0
  image : Option ImageLoad := none
  /-- The firmware in force: version, SVN, key index and measurement; the loaded package: version, SVN and measurement; a package that waits to be
  loaded: the same three. -/
  fwVersion : Nat := 0
  fwSvn : Nat := 0
  fwKey : Option Nat := none
  fwDigest : Nat := 0
  pkgVersion : Nat := 0
  pkgSvn : Nat := 0
  pkgDigest : Nat := 0
  package : Option (Nat × Nat × Nat) := none
  /-- An accepted firmware image that the boot after its warm reset runs (R468). -/
  nextFw : Option (List Byte) := none
  /-- Entries of the measurement log held, oldest first, entries added, and the digest (R470, R471). -/
  log : List (List Byte) := []
  logPos : Nat := 0
  logDigest : Nat := 0
  signing : List SignReq := []
  warmResets : Nat := 0
  vinLow : Nat := 0
  /-- Energy drawn since power-on, in 10^-4 mJ. -/
  energy : Nat := 0
deriving DecidableEq, Repr, Inhabited

/-! ### JTAG -/

/-- The public instructions of the test access port (16_electrical_and_package.md R506). -/
inductive JtagInstr where
  | bypass
  | idcode
  | samplePreload
  | extest
  | clamp
  | highz
  | extestPulse
  | extestTrain
deriving DecidableEq, Repr, Inhabited

/-- Output balls whose levels the rules give: PEDE and PEDD of a channel, a pulse output, and ALERT_N. -/
inductive Ball where
  | pede (c : Nat)
  | pedd (c : Nat)
  | tpo (k : Nat)
  | alertN
deriving DecidableEq, Repr

/-- A number for each ball. -/
def Ball.index : Ball → Nat
  | .pede c => c
  | .pedd c => 128 + c
  | .tpo k => 256 + k
  | .alertN => 260

/-- The test access port: the instruction in force, the bypass bit, what was shifted out last, and the boundary register
as loaded by the last PRELOAD. -/
structure Jtag where
  instr : JtagInstr := .idcode
  bypassBit : Bool := false
  out : Nat := 0
  boundary : List Bool := []
deriving DecidableEq, Repr, Inhabited

/-! ### Engines -/

/-- A change of site state that takes effect at the first vector emitted after it (02_asell_programs.md R45). -/
inductive Act where
  /-- TRIG arms acquisition unit `u` (R65). -/
  | arm (u : Nat)
  /-- TRIG disarms acquisition unit `u`. -/
  | disarm (u : Nat)
  /-- WAVE sends request `act` with segment-table entry `entry` to source unit `unit`. -/
  | wave (act unit entry : Nat)
  /-- MARK writes a marker entry with the value `imm` (R66). -/
  | mark (imm : Nat)
deriving DecidableEq, Repr

/-- What a run of vectors in an engine's buffers is (R33, R56, R58, R60). -/
inductive VKind where
  /-- Numbered vectors of the program. -/
  | numbered
  /-- Numbered repetitions of a MATCH. -/
  | matchRep
  /-- Settle repetitions of a synchronised JIF. -/
  | settle
  /-- Pad emissions of a WAITT. -/
  | waitPad
deriving DecidableEq, Repr

/-- A run of equal vectors emitted and not released (03_engines_and_microcode.md R77, R78). -/
structure VecRun where
  kind : VKind
  /-- The symbol of slot k in bits [4k+3 : 4k] (R38). -/
  syms : BitVec 512
  ts : Nat
  count : Nat
  /-- The run repeats until its instruction ends it. -/
  ongoing : Bool := false
  /-- Number of the first vector of the run, when numbered. -/
  first : Nat := 0
  capture : Bool := false
  capMode : Nat := 0
  acts : List Act := []
deriving DecidableEq, Repr

/-- An open loop: start of its body, whether in the stream, and iterations remaining (R50). -/
structure LoopF where
  start : Nat
  stream : Bool
  ctr : Nat
deriving DecidableEq, Repr

/-- A call frame (R51). -/
structure Frame where
  ret : Nat
  stream : Bool
  loops : Nat
deriving DecidableEq, Repr

/-- What an engine waits for (R56, R58, R60 to R62). -/
inductive Wait where
  /-- WAITT to a local time, or to a duration after the burst's start: in units. -/
  | time (relative : Bool) (target : Nat)
  /-- WAITT for stitch event `n`: deadline of its timeout, and the time of receipt once released. -/
  | event (n : Nat) (deadline : Option Nat) (got : Option Nat)
  /-- Synchronised JIF carrying vector `j`: its header word, its address, the address after it,
  and whether it emits settle copies (R56). -/
  | jif (j : Nat) (hdr : Word64) (at_ next : Nat) (copies : Bool)
  /-- MATCH: first repetition, T, its header word, its address and the address after it. -/
  | matching (first : Nat) (t : Nat) (hdr : Word64) (at_ next : Nat)
deriving DecidableEq, Repr

/-- Why an engine emits nothing more (R70, R71, R83, R98), or why a burst never runs (05_sites_and_dispatch.md R178). -/
inductive Final where
  | halt (code : Nat)
  | fault (code : Nat) (faddr : Nat) (fstream : Bool)
  | maskStop (vector : Option Nat)
  | abort
  | skip
  | cancelled
deriving DecidableEq, Repr

/-- The micro-state of a routine in progress that runs word by word (R80, R92, R95): its directory entry, and its position. -/
structure Micro where
  routine : Nat
  lining : Bool
  /-- Horizontal address, or micro-pointer index and run offset. -/
  upc : Nat
  run : Nat := 0
  stack : List (Nat × Nat) := []
  scr : List Nat := [0, 0, 0, 0, 0, 0, 0, 0]
  held : BitVec 512 := 0
  ts : Nat := 0
  /-- Payload pointer: word address and slot of a table word. -/
  pay : Nat := 0
  paySlot : Nat := 0
  payLoaded : Bool := false
  ext : Nat := 0
  extWords : Nat := 0
  hdr : Word64 := 0
  checked : Bool := false
  waitTarget : Option Nat := none
  eventWait : Bool := false
  /-- The last boundary was a safe point, and the engine cycles since the last one (R97). -/
  safe : Bool := true
  cycles : Nat := 0
  /-- Vectors that took their set from the set bytes (TSRC), and where a transfer of control goes at the routine's end. -/
  sets : Nat := 0
  jump : Option (Nat × Bool) := none
  /-- Vectors emitted, and the next number and the image when the routine began (02_asell_programs.md R71). -/
  emitted : Nat := 0
  next0 : Nat := 0
  image0 : BitVec 512 := 0
deriving DecidableEq, Repr

/-- A fail block being gathered (07_capture_and_acquisition.md R254). -/
structure FailBlk where
  block : Nat
  first : Nat
  firstT0 : Nat
  /-- TIME_VALID at that T0 (R274). -/
  tv : Bool := false
  count : Nat
  union : Nat
deriving DecidableEq, Repr

/-- The burst an engine serves (R75, R76). -/
structure Burst where
  slot : Nat
  site : Nat
  load : Nat
  entry : Nat
  /-- Byte address of the loadable, and the header fields registered with it. -/
  base : Nat
  n : Nat
  codeOff : Nat
  codeWords : Nat
  tableOff : Nat
  tableCount : Nat
  maskOff : Nat
  maskCount : Nat
  padOff : Nat
  uopOff : Nat
  uopCount : Nat
  defaultTs : Nat
  digest : Nat := 0
  pc : Nat := 0
  inStream : Bool := false
  /-- The opcode of the instruction executed last, and the word after its header and extension words. -/
  op : Nat := 0
  payAt : Nat := 0
  loops : List LoopF := []
  calls : List Frame := []
  matched : Bool := false
  capOn : Bool := false
  /-- The record mode of CAPON; 0 where none has executed (DEDUCED, log 208). -/
  capMode : Nat := 0
  dts : Nat := 0
  clrAny : Int := -1
  clrMask : Tbl Int := {}
  clrAcq : Tbl Int := {}
  clrViol : Int := -1
  /-- Counted fails: vector and failing slots; events: unit and vector; violations: vector. -/
  fails : List (Nat × Nat) := []
  events : List (Nat × Nat) := []
  viols : List Nat := []
  /-- Repetitions of ended MATCHes, first and count, which set no compare-class flag (R57), and the events attributed to
  repetitions. -/
  reps : List (Nat × Nat) := []
  repEvents : List (Nat × Nat) := []
  image : BitVec 512 := 0
  next : Nat := 0
  returned : Nat := 0
  /-- The vectors of executed instructions that no cuff has released, oldest first; the last `unissued` of them wait at a word that
  stalls on a full quad FIFO (03_engines_and_microcode.md R77). -/
  queue : List VecRun := []
  unissued : Nat := 0
  /-- Vectors in the quads on their way, oldest first: in the quad FIFO, in the seam to each cuff of the site and in each cuff's entry
  buffer (01_burst_path.md R13, R77, Table 1.5); and the vectors of the quad being packed, which stands in the FIFO (R46). -/
  fifo : List Nat := []
  seam : List Nat := []
  entryBuf : List Nat := []
  part : Nat := 0
  /-- The cuffs have released a vector of their first quad and not its last; the symbol map words, keyed 16 * cuff + code, that a write has
  replaced since that quad began (04_timing_sets_and_edges.md R152). -/
  midQuad : Bool := false
  oldMaps : List (Nat × Word) := []
  /-- The channels have taken their idle states at the end of the last period (04_timing_sets_and_edges.md R139). -/
  idled : Bool := false
  acts : List Act := []
  /-- Markers whose vector was a pad and has been released, with its T0 and TIME_VALID there: no numbered vector has followed yet (R66). -/
  padMarks : List (Nat × Nat × Bool) := []
  wait : Option Wait := none
  /-- MATCH repetitions that matched, first one. -/
  matchHit : Option Nat := none
  settles : Nat := 0
  fin : Option Final := none
  /-- The scheduler cycle in which a MISS = 1 start was abandoned (05_sites_and_dispatch.md R182). -/
  skipAt : Nat := 0
  redirected : Bool := false
  /-- Stitch events received since the burst started (R62). -/
  gotEvents : List (Nat × Nat) := []
  pleat : Tbl (Option Word64) := {}
  /-- Lines of the pleat cache, as word positions / 8, that deliver their words poisoned (15_dependability.md R477). -/
  pleatBad : List Nat := []
  /-- The engine's prefetch buffer, and the lines it has taken in since the dispatch (00_scope.md R9, 01_burst_path.md R515). -/
  lines : List Fetched := []
  fetched : Nat := 0
  micro : Option Micro := none
  /-- Arming: complete at this time; start time in half-picoseconds once fixed (R14, R515). -/
  armed : Option Nat := none
  start : Option Nat := none
  /-- A word of a user routine has signalled `armed` to the scheduler (R80, SCHS). -/
  armSignal : Bool := false
  /-- Release: next T0 and end of the last released period in half-picoseconds. -/
  nextT0 : Nat := 0
  lastEnd : Option Nat := none
  lastPeriod : Nat := 0
  lastTs : Nat := 0
  /-- TIME_VALID at the last release (07_capture_and_acquisition.md R274). -/
  lastTv : Bool := false
  released : Nat := 0
  waitFirst : Option Nat := none
  padding : Nat := 0
  /-- An abort's stop time in half-picoseconds (R98). -/
  stop : Option Nat := none
  stopped : Bool := false
  /-- Completion FLAGS (05_sites_and_dispatch.md R184), and LATE_NS (R178). -/
  flags : Nat := 0
  late : Nat := 0
  underruns : Nat := 0
  collided : Bool := false
  failBlk : Option FailBlk := none
  lastPin : Option (Nat × Nat) := none
  stopEvent : Option (Nat × Nat × Option Nat) := none
deriving DecidableEq, Repr

/-- A user routine in an engine's user regions (R89, R91). -/
structure UserRoutine where
  number : Nat
  digest : Nat
  hAddr : Option Nat
  hWords : Nat
  mpBase : Option Nat
  mpCount : Nat
  nano : Nat
  nWords : Nat
  extWords : Nat
  service : Bool
  /-- Twin map, one entry per horizontal word. -/
  twin : List Nat
deriving DecidableEq, Repr

/-- The trap frame store of Table 3.7 (R95). -/
structure TrapFrame where
  upc : Nat := 0
  depths : Nat := 0
  ctrs : List Nat := []
  scr : List Nat := []
  pay : Nat := 0
  reps : Nat := 0
  stack : List Nat := []
deriving DecidableEq, Repr, Inhabited

/-- A service routine in progress (R94, R99): its words, those it has issued before its last interrupt, and since when it has been
issuing its next words, one a cycle, while nothing interrupts it. -/
structure ServiceRun where
  words : Nat
  done : Nat := 0
  since : Option Nat := none
deriving DecidableEq, Repr

/-- An engine ENe (R76 to R110). -/
structure Engine where
  burst : Option Burst := none
  /-- Affinity: load, site and end time of the last burst (05_sites_and_dispatch.md R175). -/
  affinity : Option (Nat × Nat × Nat) := none
  /-- Control-store words written since the last package load; an unlisted word of a standard region is
  the loaded package's, and 0 elsewhere (R84, R87). -/
  hstore : Tbl (Option (BitVec 176)) := {}
  mptr : Tbl (Option (BitVec 24)) := {}
  dir : Tbl (Option Word) := {}
  /-- Staged 32-bit words of the control-store window (R110). -/
  staged : Tbl Word := {}
  /-- Routines (directory entries) that run from their lining form only (R96). -/
  liningOnly : List Nat := []
  user : List UserRoutine := []
  frame : TrapFrame := {}
  /-- Words waiting for the repair of R88: store code, address and routine. -/
  repairs : List (Nat × Nat × Nat) := []
  hostAbort : Bool := false
  armReq : Bool := false
  /-- Service requests that wait for their boundary, and the service routines in progress, the innermost first (R94, R99). -/
  serviceReq : Nat := 0
  service : List ServiceRun := []
  padVec : Nat := 0
  padFirst : Option Nat := none
  discard : Nat := 0
  emitted : Nat := 0
deriving DecidableEq, Repr, Inhabited

/-! ### The whole block -/

/-- Everything of the block but the clock and the queue of commands. -/
structure Dev where
  /-- The islands' mirror of local time and of the base-clock counter (01_burst_path.md R15). -/
  now : Nat := 0
  raw : Nat := 0
  /-- By how much an island's mirror of local time is off, in units, from the check that finds it to the next alignment mark (01_burst_path.md R15). -/
  mirrors : Tbl Int := {}
  /-- When each periodic reading was last made: 0 the island monitors, 1 the stack temperature, 2 VIN (01_burst_path.md R26,
  06_pattern_memory.md R217, 14_power_reset_and_trust.md R450). -/
  polls : Tbl (Option Nat) := {}
  /-- Register words that differ from their reset value, keyed by address. -/
  regs : Tbl Word := {}
  tbase : TimeBase := {}
  ras : Ras := {}
  dram : Dram := {}
  rings : Tbl Ring := {}
  ledger : Ledger := {}
  ports : Tbl Port := {}
  lanes : Tbl Lane := {}
  sites : Tbl Site := {}
  /-- Channels; active copies of timing sets, keyed 64 * channel + set and 64 * site + set (R129). -/
  chans : Tbl Chan := {}
  chanSets : Tbl ChanSet := {}
  periods : Tbl Nat := {}
  /-- CUF_PLL.PHASE of each cuff at its last edge-deskew commit, from which a later write moves its edges (04_timing_sets_and_edges.md R153). -/
  phaseRef : Tbl Nat := {}
  sched : Sched := {}
  stampIns : Tbl StampIn := {}
  intervals : Tbl Interval := {}
  freqs : Tbl Freq := {}
  cal : Cal := {}
  trust : Trust := {}
  jtag : Jtag := {}
  acqs : Tbl Acq := {}
  srcs : Tbl Source := {}
  engines : Tbl Engine := {}
  nano : Tbl (Option (BitVec 176)) := {}
  nanoStaged : Tbl Word := {}
  /-- The model's own counter that picks fresh free values (DESIGN CHOICE, log 7); not of the spec. -/
  freeIdx : Nat := 0
deriving DecidableEq, Repr, Inhabited

/-- The state of the block: its clock, everything else, and the commands waiting, first in, first out. -/
structure State where
  clock : Clock
  dev : Dev
  pending : List Instr
deriving DecidableEq, Repr

/-- Why a step stops with a fault. The spec gives every command an effect, so no meaning raises one. -/
inductive Fault where
  /-- Raised by no meaning: the block has no fault that stops it (safe). -/
  | none
deriving DecidableEq, Repr

/-- Why a command is refused. -/
inductive Refusal where
  /-- The command has no meaning yet (safe: nothing is claimed of it). -/
  | notModelled (mnemonic : String)
deriving DecidableEq, Repr

/-- The block at the release point that ends a power-on reset (14_power_reset_and_trust.md R452):
every field at its reset value, and no command waiting (DESIGN CHOICE, log 8) (DESIGN CHOICE, log 11). -/
def State.reset : State := { clock := {}, dev := {}, pending := [] }

end Sys2Proof.Machine
end

