-- ==== Sys2Proof/Machine/Ops.lean ====
section
/-! DEFINITION. Named operations over tables, memory, registers and time. -/
namespace Sys2Proof.Machine

/-! ### Sparse tables -/

/-- The value under a key, or `z` when the key is not listed. -/
def lookup {α : Type} (z : α) (k : Nat) : List (Nat × α) → α
  | [] => z
  | c :: cs => if c.1 = k then c.2 else lookup z k cs

/-- The list without the key. -/
def erase {α : Type} (k : Nat) : List (Nat × α) → List (Nat × α)
  | [] => []
  | c :: cs => if c.1 = k then erase k cs else c :: erase k cs

/-- The list with a value under the key, keys rising. -/
def insert {α : Type} (k : Nat) (v : α) : List (Nat × α) → List (Nat × α)
  | [] => [(k, v)]
  | c :: cs => if c.1 = k then (k, v) :: cs else if k < c.1 then (k, v) :: c :: cs else c :: insert k v cs

/-- Reads a table whose unlisted keys hold `z`. -/
def Tbl.get {α : Type} (t : Tbl α) (z : α) (k : Nat) : α := lookup z k t.cells

/-- Writes a table whose unlisted keys hold `z`: the value `z` is not listed. -/
def Tbl.put {α : Type} [DecidableEq α] (t : Tbl α) (z : α) (k : Nat) (v : α) : Tbl α :=
  { cells := if v = z then erase k t.cells else insert k v t.cells }

/-! ### Memory -/

/-- The byte at an address; an unlisted address reads 0 (06_pattern_memory.md R207). -/
def Dram.byte (m : Dram) (a : Nat) : Byte := lookup 0 a m.mem

/-- Memory with one byte written, in canonical form. -/
def memPut (m : List Host.Cell) (a : Nat) (b : Byte) : List Host.Cell :=
  if b = 0 then erase a m else insert a b m

/-- Memory with bytes written at rising addresses. -/
def memWrite (m : List Host.Cell) (a : Nat) : List Byte → List Host.Cell
  | [] => m
  | b :: bs => memWrite (memPut m a b) (a + 1) bs

/-- The canonical form of a table or memory: keys rise strictly from `lo` and no value is the default. -/
def canonical {α : Type} [DecidableEq α] (z : α) : Nat → List (Nat × α) → Bool
  | _, [] => true
  | lo, c :: cs => decide (lo ≤ c.1) && decide (c.2 ≠ z) && canonical z (c.1 + 1) cs

/-- The canonical form of the DRAM's contents. -/
abbrev Memory.wf (m : List Host.Cell) : Bool := canonical 0 0 m

/-- `n` bytes from an address, lowest first. -/
def Dram.bytes (m : Dram) (a n : Nat) : List Byte := (List.range n).map fun i => m.byte (a + i)

/-- R6: the little-endian number in `n` bytes from an address. -/
def Dram.num (m : Dram) (a n : Nat) : Nat := ofBytes (m.bytes a n)

/-- The 64 bytes of a line at a byte address, as one number, the lowest byte first. -/
def Dram.line (m : Dram) (a : Nat) : Nat :=
  m.mem.foldl (fun n c => if a ≤ c.1 ∧ c.1 < a + 64 then n + c.2.toNat * 256 ^ (c.1 - a) else n) 0

/-- The 64-bit word at an address. -/
def Dram.word (m : Dram) (a : Nat) : Word64 := BitVec.ofNat 64 (m.num a 8)

/-! ### Registers -/

/-- A register's word as it stands in the register file. -/
def Dev.rd (d : Dev) (r : Reg) : Word := d.regs.get (BitVec.ofNat 32 r.row.reset) r.addr

/-- The register file with a register's word replaced. -/
def Dev.wr (d : Dev) (r : Reg) (w : Word) : Dev :=
  { d with regs := d.regs.put (BitVec.ofNat 32 r.row.reset) r.addr w }

/-- The number in bits [hi:lo] of a register. -/
def Dev.get (d : Dev) (r : Reg) (hi lo : Nat) : Nat := bits (d.rd r) hi lo

/-- Bits [hi:lo] of a register replaced. -/
def Dev.set (d : Dev) (r : Reg) (hi lo v : Nat) : Dev := d.wr r (setBits (d.rd r) hi lo v)

/-- Bit `i` of a register. -/
def Dev.flag (d : Dev) (r : Reg) (i : Nat) : Bool := d.get r i i = 1

/-- A status bit of a register set to 1. -/
def Dev.raise (d : Dev) (r : Reg) (i : Nat) : Dev := d.set r i i 1

/-- A status bit of a register cleared. -/
def Dev.clear (d : Dev) (r : Reg) (i : Nat) : Dev := d.set r i i 0

/-- R8, Table 0.6: the word a write of `v` leaves in a register whose bits act as their types state.
`lock` holds the bits that are locked. -/
def plainWrite (row : Row) (old v : Word) (lock : Nat) : Word :=
  let rw := BitVec.ofNat 32 (row.rw - (row.rw &&& lock))
  let w1c := BitVec.ofNat 32 row.w1c
  ((old &&& ~~~rw) ||| (v &&& rw)) &&& ~~~(v &&& w1c)

/-- A register written as its types state, with nothing locked. -/
def Dev.store (d : Dev) (r : Reg) (v : Word) : Dev := d.wr r (plainWrite r.row (d.rd r) v 0)

/-! ### Time -/

/-- Units of 2^-45 ps in a half-picosecond, in 2^-16 ns and in a nanosecond. -/
def halfPs : Nat := 2 ^ 44
def frac16 : Nat := 125 * 2 ^ 32
def nano1 : Nat := 1000 * 2 ^ 45
def micro1 : Nat := 1000 * nano1
def milli1 : Nat := 1000 * micro1
def second1 : Nat := 1000 * milli1

/-- A time in units as a time in 2^-16 ns, truncated (10_time_base_and_alignment.md R336). -/
def toFrac16 (t : Nat) : Nat := t / frac16

/-- The layout of R337 of a time: nanoseconds, seconds [31:0], fraction and seconds [47:32]. -/
def timeWords (t : Nat) : Nat × Nat × Nat :=
  let f := toFrac16 t
  let ns := f / 65536
  let sec := ns / 1000000000
  (ns % 1000000000, sec % 2 ^ 32, f % 65536 * 65536 + sec / 2 ^ 32 % 65536)

/-- The time in units that three words in the layout of R337 give. -/
def ofTimeWords (w0 w1 w2 : Nat) : Nat :=
  (((w2 % 65536 * 2 ^ 32 + w1) * 1000000000 + w0) * 65536 + w2 / 65536 % 65536) * frac16

/-- A time in units rounded to the nearest half-picosecond, a tie upwards (04_timing_sets_and_edges.md R113). -/
def toHalf (t : Nat) : Nat := (t + halfPs / 2) / halfPs

/-! ### Parts of the device -/

def Dev.port (d : Dev) (p : Nat) : Port := d.ports.get {} p
def Dev.modPort (d : Dev) (p : Nat) (f : Port → Port) : Dev :=
  { d with ports := d.ports.put {} p (f (d.port p)) }
def Dev.lane (d : Dev) (l : Nat) : Lane := d.lanes.get {} l
def Dev.modLane (d : Dev) (l : Nat) (f : Lane → Lane) : Dev :=
  { d with lanes := d.lanes.put {} l (f (d.lane l)) }
def Dev.site (d : Dev) (s : Nat) : Site := d.sites.get {} s
def Dev.modSite (d : Dev) (s : Nat) (f : Site → Site) : Dev :=
  { d with sites := d.sites.put {} s (f (d.site s)) }
def Dev.engine (d : Dev) (e : Nat) : Engine := d.engines.get {} e
def Dev.modEngine (d : Dev) (e : Nat) (f : Engine → Engine) : Dev :=
  { d with engines := d.engines.put {} e (f (d.engine e)) }
def Dev.ring (d : Dev) (s : Nat) : Ring := d.rings.get {} s
def Dev.modRing (d : Dev) (s : Nat) (f : Ring → Ring) : Dev :=
  { d with rings := d.rings.put {} s (f (d.ring s)) }
def Dev.modRas (d : Dev) (f : Ras → Ras) : Dev := { d with ras := f d.ras }
def Dev.modDram (d : Dev) (f : Dram → Dram) : Dev := { d with dram := f d.dram }
def Dev.modLedger (d : Dev) (f : Ledger → Ledger) : Dev := { d with ledger := f d.ledger }
def Dev.modTime (d : Dev) (f : TimeBase → TimeBase) : Dev := { d with tbase := f d.tbase }

def Dev.chan (d : Dev) (c : Nat) : Chan := d.chans.get {} c
def Dev.modChan (d : Dev) (c : Nat) (f : Chan → Chan) : Dev :=
  { d with chans := d.chans.put {} c (f (d.chan c)) }
def Dev.acq (d : Dev) (u : Nat) : Acq := d.acqs.get {} u
def Dev.modAcq (d : Dev) (u : Nat) (f : Acq → Acq) : Dev :=
  { d with acqs := d.acqs.put {} u (f (d.acq u)) }

def Dev.src (d : Dev) (n : Nat) : Source := d.srcs.get {} n
def Dev.modSrc (d : Dev) (n : Nat) (f : Source → Source) : Dev :=
  { d with srcs := d.srcs.put {} n (f (d.src n)) }

def Dev.modSched (d : Dev) (f : Sched → Sched) : Dev := { d with sched := f d.sched }
def Dev.modTrust (d : Dev) (f : Trust → Trust) : Dev := { d with trust := f d.trust }
def Dev.modCal (d : Dev) (f : Cal → Cal) : Dev := { d with cal := f d.cal }
def Dev.stampIn (d : Dev) (i : Nat) : StampIn := d.stampIns.get {} i
def Dev.modStampIn (d : Dev) (i : Nat) (f : StampIn → StampIn) : Dev :=
  { d with stampIns := d.stampIns.put {} i (f (d.stampIn i)) }
def Dev.interval (d : Dev) (u : Nat) : Interval := d.intervals.get {} u
def Dev.modInterval (d : Dev) (u : Nat) (f : Interval → Interval) : Dev :=
  { d with intervals := d.intervals.put {} u (f (d.interval u)) }
def Dev.freq (d : Dev) (u : Nat) : Freq := d.freqs.get {} u
def Dev.modFreq (d : Dev) (u : Nat) (f : Freq → Freq) : Dev :=
  { d with freqs := d.freqs.put {} u (f (d.freq u)) }
def Dev.schPort (d : Dev) (p : Nat) : SchPort := d.sched.ports.get {} p
def Dev.modSchPort (d : Dev) (p : Nat) (f : SchPort → SchPort) : Dev :=
  d.modSched fun x => { x with ports := x.ports.put {} p (f (d.schPort p)) }

/-- The accepted descriptors by slot. -/
def Dev.descs (d : Dev) : List (Nat × Desc) := d.sched.descs.cells.filterMap fun p => p.2.map fun x => (p.1, x)
def Dev.desc (d : Dev) (slot : Nat) : Option Desc := d.sched.descs.get none slot
def Dev.putDesc (d : Dev) (slot : Nat) (x : Option Desc) : Dev :=
  d.modSched fun y => { y with descs := y.descs.put none slot x }
def Dev.modDesc (d : Dev) (slot : Nat) (f : Desc → Desc) : Dev := d.putDesc slot ((d.desc slot).map f)

/-- Whether a descriptor has been committed to an engine. -/
def Desc.dispatched (x : Desc) : Bool :=
  match x.place with
  | .engine _ => true
  | _ => false

/-- The effects `f` of a list applied in order. -/
def Dev.each {α : Type} (d : Dev) (l : List α) (f : Dev → α → Dev) : Dev := l.foldl f d

/-- Whether a burst is dispatched to a site: one committed whose completion has not been posted. -/
def Dev.siteDispatched (d : Dev) (s : Nat) : Bool := d.descs.any fun p => p.2.site = s && p.2.dispatched

/-- The burst an engine serves. -/
def Dev.burst (d : Dev) (e : Nat) : Option Burst := (d.engine e).burst

/-- The burst of an engine changed, where it has one. -/
def Dev.modBurst (d : Dev) (e : Nat) (f : Burst → Burst) : Dev :=
  d.modEngine e fun x => { x with burst := x.burst.map f }

/-- The engine that serves a site's burst. -/
def Dev.siteEngine (d : Dev) (s : Nat) : Option Nat :=
  (List.range 16).find? fun e => (d.burst e).any fun b => b.site = s


/-- A bit of completion FLAGS of the burst that is dispatched to a site, received by its engine or not. -/
def Dev.siteFlag (d : Dev) (s i : Nat) : Dev :=
  match d.siteEngine s with
  | some e => d.modBurst e fun b => { b with flags := b.flags ||| 2 ^ i }
  | none => d.each (d.descs.filter fun x => x.2.site = s && x.2.dispatched) fun d x => d.modDesc x.1 fun y => { y with flags := y.flags ||| 2 ^ i }

/-- `f` where `c` holds, and no change otherwise. -/
def Dev.onlyIf (d : Dev) (c : Bool) (f : Dev → Dev) : Dev := if c then f d else d

/-- A free value of `w` bits, and the device with its counter advanced (DESIGN CHOICE, log 7). -/
def Dev.free (d : Dev) (w : Nat) : Nat × Dev :=
  (Config.freeNat d.freeIdx % 2 ^ w, { d with freeIdx := d.freeIdx + 1 })

/-- 01_burst_path.md R15: local time as island i's mirror of it gives it, and the local time at which that mirror reaches a time. -/
def Dev.nowOn (d : Dev) (i : Nat) : Nat := ((d.now : Int) + d.mirrors.get 0 i).toNat
def Dev.dueOn (d : Dev) (i t : Nat) : Nat := ((t : Int) - d.mirrors.get 0 i).toNat

/-- 16_electrical_and_package.md R493, R498: the outputs are driven: from the release point after power-on until the rails fall in a power
fail. -/
def Dev.driven (d : Dev) : Bool := if d.trust.failed then decide (0 < d.trust.parked) else !(d.trust.held && d.get .GLB_STAT 23 20 = 0)

/-! ### Commands -/

/-- Local time at a counter value, from the anchor in force, held to 2^-48 ns (R336). -/
def Clock.localAt (c : Clock) (raw : Nat) : Nat :=
  c.tb + (((raw - c.cb : Nat) * 5 * ((2 : Int) ^ 60 + c.rate)) / (2 : Int) ^ 16).toNat * 125

/-- The clock moved on to a counter value, never back. -/
def Clock.advanceRaw (c : Clock) (raw : Nat) : Clock :=
  if raw ≤ c.raw then c else { c with raw := raw, now := max c.now (c.localAt raw) }

/-- The first counter value, not below the present one, at which local time has reached `t` (R336). -/
def Clock.rawFor (c : Clock) (t : Nat) : Nat :=
  max c.raw (c.cb + ((((t - c.tb : Nat) : Int) * 2 ^ 16 + 625 * ((2 : Int) ^ 60 + c.rate) - 1) /
    (625 * ((2 : Int) ^ 60 + c.rate))).toNat)

/-- Local time moved on to `t`, never back, with the counter (DESIGN CHOICE, log 2). -/
def Clock.advanceTo (c : Clock) (t : Nat) : Clock :=
  if t ≤ c.now then c else { c with now := t, raw := c.rawFor t }

/-- One base-clock cycle (R335, DESIGN CHOICE, log 1). -/
def Clock.cycle (c : Clock) : Clock :=
  { c with raw := c.raw + 1, now := max c.now (c.localAt (c.raw + 1)) }

/-- The device with its mirrors of local time and of the counter brought up to the clock (01_burst_path.md R15). -/
def State.mirror (s : State) : Dev := { s.dev with now := s.clock.now, raw := s.clock.raw }

/-- 14_power_reset_and_trust.md R450: from a power fail on, the whole device is held in power-on reset: no command changes anything. -/
def live (s t : State) : Host.Outcome State Fault Refusal := .next (if s.dev.trust.failed then s else t)

/-- A command acts now: its effect on the device (DESIGN CHOICE, log 2). -/
def act (s : State) (f : Dev → Dev) : Host.Outcome State Fault Refusal := live s { s with dev := f s.mirror }

/-- A command acts with the clock at `c`. -/
def actWith (s : State) (c : Clock) (f : Dev → Dev) : Host.Outcome State Fault Refusal :=
  let u := { s with clock := c }
  live s { u with dev := f u.mirror }

/-- A command that falls due at local time `t` acts then: local time moves on to it first (DESIGN CHOICE, log 2) (DEDUCED, log 110). -/
def actAt (s : State) (t : Option Nat) (f : Dev → Dev) : Host.Outcome State Fault Refusal :=
  match t with
  | none => act s f
  | some t => actWith s (s.clock.advanceTo t) f

/-- A command that has left the device as `d`, and goes on with `f` when it falls due at local time `t`. -/
def actFrom (s : State) (d : Dev) (t : Option Nat) (f : Dev → Dev) : Host.Outcome State Fault Refusal :=
  actAt s t fun x => f { d with now := x.now, raw := x.raw }

/-- A periodic reading: it falls due `period` after the last one of its kind `k`, which is noted (DEDUCED, log 203). -/
def polled (s : State) (k period : Nat) (f : Dev → Dev) : Host.Outcome State Fault Refusal :=
  actAt s ((s.dev.polls.get none k).map (· + period)) fun d => f { d with polls := d.polls.put none k (some d.now) }

end Sys2Proof.Machine
end

