-- ==== Sys2Proof/Machine/Emit.lean ====
section
/-! DEFINITION. What the device writes out by itself: DRAM lines, ledger entries, RAS reports, queue packets,
interrupt causes, link packets and control blocks. -/
namespace Sys2Proof.Machine

/-! ### RAS reports (15_dependability.md R476, R479, R481) -/

def sevCorrected : Nat := 0
def sevContained : Nat := 1
def sevFatal : Nat := 2
def sevWarning : Nat := 3

/-- TIME_VALID (10_time_base_and_alignment.md R367). -/
def Dev.timeValid (d : Dev) : Bool := d.flag .TIM_STAT 31

/-- R481: the log with a record added; the oldest of 1,024 is overwritten. -/
def rasAppend (d : Dev) (r : RasRec) : Dev :=
  let full := d.ras.log.length ≥ 1024
  let d := d.modRas fun x => { x with log := (if full then x.log.drop 1 else x.log) ++ [r], pos := (x.pos + 1) % 2 ^ 64 }
  d.onlyIf full (·.raise .RAS_STAT 27)

/-- R481: a corrected error that repeats the newest record within 1 s. -/
def rasRepeats (d : Dev) (r : RasRec) : Bool :=
  match d.ras.log.getLast? with
  | some l => r.severity = sevCorrected ∧ l.source = r.source ∧ l.island = r.island ∧ l.addr = r.addr ∧
      d.raw ≤ l.raw + 3200000000
  | none => false

/-- R481: the newest record's COUNT incremented, saturating at 32,767 (DEDUCED, log 119). -/
def rasMerge (x : Ras) : Ras :=
  match x.log.getLast? with
  | some l => { x with log := x.log.dropLast ++ [{ l with count := min 32767 (l.count + 1) }] }
  | none => x

/-- R476: a report counts in its severity's mailbox value. -/
def rasCount (x : Ras) (sev : Nat) : Ras :=
  if sev = sevCorrected then { x with corrected := (x.corrected + 1) % 2 ^ 64 }
  else if sev = sevContained then { x with contained := (x.contained + 1) % 2 ^ 64 }
  else if sev = sevFatal then { x with fatal := (x.fatal + 1) % 2 ^ 64 }
  else x

/-- R476: the bit of RAS_STAT of a severity. -/
def sevBit (sev : Nat) : Nat :=
  if sev = sevFatal then 31 else if sev = sevContained then 30 else if sev = sevCorrected then 29 else 28

/-- R479: a fatal error holds dispatch at once, and makes a warm reset due, or halts. -/
def fatalHold (d : Dev) : Dev :=
  let d := d.modRas fun x => { x with hold := true, outage := true, unavailFrom := some (x.unavailFrom.getD d.raw) }
  if d.flag .RAS_CTL 31 then d.modRas fun x => { x with resetDue := true } else d.raise .RAS_STAT 26

/-- R483: an uncorrectable error of sources 0x01 to 0x05 that names an engine counts toward its withdrawal. -/
def engineError (d : Dev) (e : Nat) : Dev :=
  let l := d.now :: (d.ras.engErrs.get [] e).filter fun t => d.now < t + 3600 * second1
  d.modRas fun x => { x with engErrs := x.engErrs.put [] e l }

/-- R483: such an error by its report; a cache line that is fetched again is reported corrected, and counts where it is found. -/
def rasEngine (d : Dev) (r : RasRec) : Dev :=
  match r.engine with
  | some e => if r.severity = sevContained ∧ 1 ≤ r.source ∧ r.source ≤ 5 then engineError d e else d
  | none => d

/-- R476: a report: a record in the RAS log, a count, and the severity's bit. -/
def rasReport (d : Dev) (source severity island addr sites : Nat) (engine port : Option Nat) : Dev :=
  let r : RasRec := { source, severity, island, time := d.now, tv := d.timeValid, count := 1, addr, sites, engine, port, raw := d.raw }
  let d := if rasRepeats d r then d.modRas rasMerge else rasAppend d r
  let d := (d.modRas (rasCount · severity)).raise .RAS_STAT (sevBit severity)
  let d := rasEngine d r
  d.onlyIf (severity = sevFatal) fatalHold

/-! ### DRAM writes (06_pattern_memory.md R204, R210 to R212, R226) -/

/-- Requester classes of Table 6.3 as they stand in a write queue. -/
def clsRealTime : Nat := 0
def clsHost : Nat := 1
def clsService : Nat := 2

/-- R211: the lines of a write queue that a class may occupy. -/
def wqCap (cls : Nat) : Nat := if cls = clsHost then 32 else if cls = clsService then 16 else 64

/-- R204: the pseudo-channel of a byte address. -/
def pseudoChannel (a : Nat) : Nat := a / 256 % 32

/-- R204: the refresh group of a byte address's pseudo-channel. -/
def groupOf (a : Nat) : Nat := pseudoChannel a % 4

/-- Whether the stack takes requests: DRC_PWR.STATE is active (R225, R226). -/
def Dev.dramActive (d : Dev) : Bool := d.get .DRC_PWR 25 24 = 0

/-- R216, R226: whether a byte address cannot be accessed now: its group is in refresh, or the stack takes no requests. -/
def Dev.lineHeld (d : Dev) (a : Nat) : Bool := !d.dramActive || d.dram.inRefresh.any fun r => r.1 = groupOf a

/-- 01_burst_path.md R20: whether a seam is fenced, so that its receiver accepts nothing from it. -/
def Dev.seamFenced (d : Dev) (n : Nat) : Bool := d.flag (.RAS_SEAMFENCE (n / 32)) (n % 32)

/-- R20, R226: whether the engine cluster's reads reach the stack, and come back: behind a fenced seam, 50 or 51, they never do. -/
def Dev.engineReads (d : Dev) : Bool := d.dramActive && !d.seamFenced 50 && !d.seamFenced 51

/-- Whether a read of the engine cluster that issues now has to wait. -/
def Dev.lineBusy (d : Dev) (a : Nat) : Bool := d.lineHeld a || !d.engineReads

/-- R20, R226: whether the control island's requests, a host's and a service core's, reach the stack, and whether its reads come back. -/
def Dev.hostReaches (d : Dev) : Bool := d.dramActive && !d.seamFenced 52
def Dev.hostReads (d : Dev) : Bool := d.hostReaches && !d.seamFenced 53

/-- R210, R240: HIGH, where 0 means 64, and the level at which a drain ends. -/
def Dev.wqHigh (d : Dev) : Nat := if d.get .DRC_WQ 13 8 = 0 then 64 else d.get .DRC_WQ 13 8
def Dev.wqLow (d : Dev) : Nat := if d.get .DRC_WQ 5 0 < d.wqHigh then d.get .DRC_WQ 5 0 else 0

def Dev.wq (d : Dev) (c : Nat) : Wq := d.dram.wqs.get {} c
def Dev.putWq (d : Dev) (c : Nat) (q : Wq) : Dev := d.modDram fun m => { m with wqs := m.wqs.put {} c q }

/-- R209, R216, R226: whether a host or service read of a byte address has to wait: as a real-time read does, or for a drain to end (R210). -/
def Dev.lineWaits (d : Dev) (a : Nat) : Bool := d.lineHeld a || !d.hostReads || (d.wq (pseudoChannel a)).draining

/-- R204: the time of a line on a pseudo-channel: 64 bytes at 25.6 GB/s. -/
def lineTime : Nat := 5 * nano1 / 2

/-- R209: a channel's queue when no read is queued: its writes have issued in arrival order, as long as its group is not in refresh and
the stack takes requests. During a drain R210 holds instead (DESIGN CHOICE, log 20). -/
def Dev.wqIssued (d : Dev) (c : Nat) : Wq :=
  let q := d.wq c
  match q.lines with
  | [] => q
  | l :: _ => if q.draining ∨ d.lineHeld (256 * c) then q else { q with lines := q.lines.drop ((d.now - l.time) / lineTime) }

/-- R211: a queue has a line that a class may use, `n` times over. -/
def Wq.fits (q : Wq) (cls n : Nat) : Bool :=
  decide (q.lines.length + n ≤ 64) && decide ((q.lines.filter (·.cls = cls)).length + n ≤ wqCap cls)

/-- A line enters the write queue of its pseudo-channel. -/
def wqEnter (d : Dev) (cls a : Nat) : Dev :=
  let c := pseudoChannel a
  d.putWq c { d.wqIssued c with lines := (d.wqIssued c).lines ++ [⟨cls, d.now⟩] }

/-- R210: the queue of a draining channel has come down to LOW lines. -/
def wqDrained (d : Dev) (c : Nat) : Dev := d.onlyIf ((d.wq c).lines.length ≤ d.wqLow) fun d => d.putWq c { lines := (d.wq c).lines }

/-- R210: a real-time read of a byte address issues: during a drain up to 4 of them issue after every 8 writes. -/
def rtIssue (d : Dev) (a : Nat) : Dev :=
  let c := pseudoChannel a
  let q := d.wq c
  if !q.draining then d
  else if 0 < q.quota then d.putWq c { q with quota := q.quota - 1 }
  else wqDrained (d.putWq c { q with lines := q.lines.drop (min 8 (q.lines.length - d.wqLow)), quota := 3 }) c

/-- The bolt of a byte address (R203). -/
def boltOf (a : Nat) : Nat := a / 0x200000

def Dram.bolt (m : Dram) (b : Nat) : Bolt := m.bolts.get {} b

/-- Whether the line that holds a byte address reads poisoned: its poison mark, or a LOST bolt (R222, R227). -/
def Dram.poisoned (m : Dram) (a : Nat) : Bool := m.poison.contains (a / 64) || (m.bolt (boltOf a)).lost

/-- The lines of a byte range, by their addresses. -/
def linesOf (a n : Nat) : List Nat := (List.range ((a + n + 63) / 64 - a / 64)).map fun i => (a / 64 + i) * 64

/-- Whether any line of a byte range reads poisoned. -/
def Dram.poisonedRange (m : Dram) (a n : Nat) : Bool := (linesOf a n).any m.poisoned

/-- The site set of a RAS record about a byte address: the site of its bolt. -/
def Dev.boltSites (d : Dev) (a : Nat) : Nat :=
  let b := d.dram.bolt (boltOf a)
  if b.alloc then 2 ^ b.site else 0

/-- R222: a read returns a line poisoned: counted, and reported. -/
def poisonRead (d : Dev) (a : Nat) : Dev :=
  rasReport (d.modDram fun m => { m with ueCount := (m.ueCount + 1) % 2 ^ 64 }) 0x0A sevContained 9 a (d.boltSites a) none none

/-- R212: a write within one line lands, or is reported: whether it landed, and the device after it. A write of a part of a line reads
the old line first (R222). -/
def writeLine (d : Dev) (cls a : Nat) (bs : List Byte) : Bool × Dev :=
  if (d.dram.bolt (boltOf a)).lost then (false, d)
  else if bs.length < 64 ∧ d.dram.poison.contains (a / 64) then (false, poisonRead d a)
  else (true, wqEnter (d.modDram fun m =>
    { m with mem := memWrite m.mem a bs, poison := m.poison.filter (· ≠ a / 64) }) cls a)

/-- The pieces of a byte range that lie each within one line, with their addresses. -/
def linePieces (fuel a : Nat) (bs : List Byte) : List (Nat × List Byte) :=
  match fuel with
  | 0 => []
  | n + 1 => if bs = [] then [] else
      (a, bs.take (64 - a % 64)) :: linePieces n (a + (64 - a % 64)) (bs.drop (64 - a % 64))

/-- R212: a write line by line: whether every line landed. -/
def writeLines (d : Dev) (cls a : Nat) (bs : List Byte) : Bool × Dev :=
  (linePieces (bs.length / 64 + 2) a bs).foldl
    (fun r p => let q := writeLine r.2 cls p.1 p.2; (r.1 && q.1, q.2)) (true, d)

/-- R212: a write that is reported instead of landing: a count, and a RAS event for a writer other than a host. -/
def writeReported (d : Dev) (a : Nat) : Dev :=
  rasReport (d.modDram fun m => { m with wRefuse := (m.wRefuse + 1) % 2 ^ 64 }) 0x0A sevContained 9 a 0 none none

/-- A write of the device's own writers lands or is reported (R212). -/
def devLand (d : Dev) (cls a : Nat) (bs : List Byte) : Dev :=
  let r := writeLines d cls a bs
  if r.1 then r.2 else writeReported r.2 a

/-- R211: every line of a write finds a line of its channel's queue that its class may use. -/
def writeFits (d : Dev) (cls a : Nat) (bs : List Byte) : Bool :=
  let cs := (linePieces (bs.length / 64 + 2) a bs).map fun p => pseudoChannel p.1
  cs.all fun c => (d.wqIssued c).fits cls (cs.count c)

/-- A held write goes to a channel of an address. -/
def Held.blocks (h : Held) (a : Nat) : Bool :=
  match h with
  | .write _ b _ => pseudoChannel b = pseudoChannel a
  | .port _ => false

/-- R20, R226: whether a write of the device's own writers reaches the stack: the ledger's comes from the control island, the others' from the
engine cluster. -/
def Dev.writeReaches (d : Dev) (a : Nat) : Bool := d.dramActive && !d.seamFenced (if boltOf a < 512 then 52 else 50)

/-- A write of the device's own writers: it stalls in self-refresh (R226), and where it finds no line in the queue or an earlier
one stalls for it (R211); else it lands or is reported. -/
def devTry (d : Dev) (cls a : Nat) (bs : List Byte) : Dev :=
  if d.writeReaches a && writeFits d cls a bs && !d.dram.held.any (·.blocks a) then devLand d cls a bs
  else d.modDram fun m => { m with held := m.held ++ [.write cls a bs] }

/-- R211, R226: the writes that stall are tried again, in arrival order. -/
def heldWrites (d : Dev) : Dev :=
  (d.modDram fun m => { m with held := [] }).each d.dram.held fun d h => match h with
    | .write cls a bs => devTry d cls a bs
    | .port p => d.modDram fun m => { m with held := m.held ++ [.port p] }

/-- A write of the device's own writers, after those that stall before it. -/
def devWrite (d : Dev) (cls a : Nat) (bs : List Byte) : Dev :=
  devTry (d.onlyIf (d.dramActive && d.dram.held ≠ []) heldWrites) cls a bs

/-! ### The ledger (07_capture_and_acquisition.md R272 to R275) -/

/-- Time classes of Table 7.7. -/
def ucExact : Nat := 0
def ucEvent : Nat := 1
def ucFirmware : Nat := 2

/-- Unacknowledged entries. -/
def Ledger.unacked (l : Ledger) : Nat := l.wpos - l.ack

/-- The 32 bytes of an entry (Table 7.7). -/
def ledgerBytes (kind uclass : Nat) (tv : Bool) (site unit time aux w2 w3 : Nat) : List Byte :=
  let w := timeWords time
  toBytes 8 (pack 64 [(59, 5, kind), (57, 2, uclass), (56, 1, tv.toNat), (52, 4, site), (48, 4, unit),
      (32, 16, w.2.2 % 65536), (0, 32, w.2.1)]).toNat ++
  toBytes 8 (pack 64 [(32, 32, w.1), (16, 16, w.2.2 / 65536), (0, 16, aux)]).toNat ++
  toBytes 8 w2 ++ toBytes 8 w3

/-- R272: an entry at the write position. -/
def ledgerRaw (d : Dev) (bs : List Byte) : Dev :=
  (devWrite d clsRealTime (32 * (d.ledger.wpos % 2 ^ 25)) bs).modLedger fun l => { l with wpos := l.wpos + 1 }

/-- R273: whether the ring has room for an entry. -/
def Ledger.room (l : Ledger) : Bool := l.unacked < 2 ^ 25

/-- R273: an entry that finds no room is dropped and counted. -/
def ledgerDrop (d : Dev) : Dev :=
  (d.modLedger fun l => { l with drop := (l.drop + 1) % 2 ^ 64, gap := l.gap + 1 }).raise .GLB_LGSTAT 30

/-- R273: the GAP entry that precedes the next entry after room returns. -/
def ledgerGap (d : Dev) : Dev :=
  if d.ledger.gap > 0 ∧ d.ledger.room then
    (ledgerRaw d (ledgerBytes 0x13 ucEvent d.timeValid 0 0 d.now 0 d.ledger.gap 0)).modLedger fun l => { l with gap := 0 }
  else d

/-- Table 7.8: the kinds that the engine cluster writes, across seam 33. -/
def engineKind (kind : Nat) : Bool := kind ≤ 0x0E || kind = 0x10 || kind = 0x11 || kind = 0x18

/-- R273, R275: an entry falls due, whose time was taken with TIME_VALID `tv` (R274): written, with a GAP entry before it if entries were
dropped, or dropped. The answer holds the entry's position when it was written. -/
def ledgerPutTv (d : Dev) (tv : Bool) (kind uclass site unit time aux w2 w3 : Nat) : Option Nat × Dev :=
  let cut := d.seamFenced 33 && engineKind kind
  let d := ledgerGap d
  if cut then (none, d)
  else if d.ledger.room then
    (some d.ledger.wpos, ledgerRaw d (ledgerBytes kind uclass tv site unit time aux w2 w3))
  else (none, ledgerDrop d)

/-- An entry whose time is taken now. -/
def ledgerPut (d : Dev) (kind uclass site unit time aux w2 w3 : Nat) : Option Nat × Dev :=
  ledgerPutTv d d.timeValid kind uclass site unit time aux w2 w3

/-- An entry whose time was taken with TIME_VALID `tv`, its position of no concern. -/
def ledgerTv (d : Dev) (tv : Bool) (kind uclass site unit time aux w2 w3 : Nat) : Dev :=
  (ledgerPutTv d tv kind uclass site unit time aux w2 w3).2

/-- An entry written or dropped, its position of no concern. -/
def ledger (d : Dev) (kind uclass site unit time aux w2 w3 : Nat) : Dev :=
  (ledgerPut d kind uclass site unit time aux w2 w3).2

/-! ### Outbound records (11_lanes_and_host_link.md R399, R402) -/

/-- Complete packets in a chain (R398). -/
def packets (q : List QWord) : Nat := (q.filter (·.mark)).length

/-- The words of a packet, the end mark on the last. -/
def marked : List Word64 → List QWord
  | [] => []
  | [w] => [⟨w, true⟩]
  | w :: ws => ⟨w, false⟩ :: marked ws

/-- A packet posted to a port's outbound record area, in posting order. -/
def outPost (d : Dev) (p : Nat) (ws : List Word64) : Dev :=
  d.modPort p fun x => { x with area := x.area ++ marked ws }

/-! ### Interrupt causes (R406) -/

/-- R408: EVENT is 1 while EVPKTS is at least EVTHR, where 0 is taken as 1. -/
def eventCause (d : Dev) (p : Nat) : Bool :=
  let thr := d.get (.LNK_IRQMOD p) 5 0
  packets (d.port p).chain ≥ (if thr = 0 then 1 else thr)

/-- R406: the OR of the enabled causes of LNK_IRQSTAT. -/
def irqOr (d : Dev) (p : Nat) : Bool :=
  (d.rd (.LNK_IRQSTAT p) &&& d.rd (.LNK_IRQEN p) &&& 0xE) ≠ 0 || (eventCause d p && d.flag (.LNK_IRQEN p) 0)

/-- R406: the end of the holdoff after the last MSI. -/
def Dev.holdoffEnd (d : Dev) (p : Nat) : Option Nat := (d.port p).msiT.map fun t => t + d.get (.LNK_IRQMOD p) 31 16 * 100 * nano1

/-- R406: an MSI falls due, within the holdoff or not. -/
def msiRaise (d : Dev) (p : Nat) : Dev :=
  let late := (d.holdoffEnd p).any fun t => d.now < t
  d.modPort p fun x => if x.msiDue then x else { x with msiDue := true, msiLate := late }

/-- R406: a rise of the OR makes an MSI due. -/
def irqUpdate (d : Dev) (p : Nat) : Dev :=
  let o := irqOr d p
  (d.onlyIf (o && !(d.port p).msiOr) fun d => msiRaise d p).modPort p fun x => { x with msiOr := o }

/-- A cause bit of LNK_IRQSTAT set: 3 UNDER, 2 LINK, 1 CMDSPACE. -/
def irqRaise (d : Dev) (p i : Nat) : Dev := irqUpdate (d.raise (.LNK_IRQSTAT p) i) p

/-! ### Lanes, bundles and their blocks (11_lanes_and_host_link.md R375, R376, R380, R381) -/

/-- The rate code of a lane. -/
def Dev.laneRate (d : Dev) (l : Nat) : Nat := d.get (.LAN_CTL l) 27 26

/-- The port that LNK_PMAP gives an SL lane. -/
def Dev.lanePort (d : Dev) (l : Nat) : Nat := d.get (.LNK_PMAP (l / 8)) (4 * (l % 8) + 2) (4 * (l % 8))

/-- R380: the lanes of a port's bundle in ascending order; a lane's position is its place in this list. -/
def Dev.bundle (d : Dev) (p : Nat) : List Nat := (List.range 16).filter fun l => d.lanePort l = p
def Dev.position (d : Dev) (p l : Nat) : Nat := ((d.bundle p).filter (· < l)).length

/-- The positions of the lanes of a bundle that meet a test. -/
def Dev.positions (d : Dev) (p : Nat) (f : Nat → Bool) : Nat := setOf (((d.bundle p).filter f).map (d.position p))

/-- The lanes of a bundle at the positions of a set. -/
def Dev.lanesAt (d : Dev) (p m : Nat) : List Nat := (d.bundle p).filter fun l => inSet m (d.position p l)

/-- The markers that a lane sends: those of its bundle for an SL lane. -/
def Dev.marks (d : Dev) (l : Nat) : Marks := if l < 16 then (d.port (d.lanePort l)).marks else (d.lane l).marks
def Dev.setMarks (d : Dev) (l : Nat) (m : Marks) : Dev :=
  if l < 16 then d.modPort (d.lanePort l) fun x => { x with marks := m } else d.modLane l fun x => { x with marks := m }

/-- Table 11.2: the time of one block on a lane. -/
def Dev.blockTime (d : Dev) (l : Nat) : Nat :=
  (if 24 ≤ l then 41250 else match d.laneRate l with | 0 => 52800 | 1 => 33000 | 2 => 20625 | _ => 16500) * (halfPs / 2)

/-- R376: blocks from marker to marker. -/
def markBlocks : Nat := 16385

/-- Table 11.4: a control block of a type and its other bits. -/
def ctlBlock (type rest : Nat) : Block := BitVec.ofNat 128 (type * 2 ^ 120 + rest % 2 ^ 120)

/-- R381: the first slot of a lane's stream of blocks, counted behind its last marker, that begins now or later; markers take no slot. -/
def Dev.blockSlot (d : Dev) (l : Nat) : Nat :=
  let n := (d.now - (d.marks l).time + d.blockTime l - 1) / d.blockTime l
  n / markBlocks * (markBlocks - 1) + (n % markBlocks - 1)

/-- R381: a block dealt to the next of some lanes in turn, in ascending position, at the first slot that is free. -/
def dealTo (ls : List Nat) (d : Dev) (b : Block) : Dev :=
  match ls with
  | [] => d
  | l :: _ =>
    let k := ls.length
    let next := ls.zipIdx.foldl (fun m x => match (d.lane x.1).dealt.head? with
      | some y => max m (y.1 * k + x.2 + 1)
      | none => m) (d.blockSlot l * k)
    d.modLane ((ls[next % k]?).getD l) fun x => { x with dealt := (next / k, b) :: x.dealt }

/-- R381, R387: the lanes to which a port's blocks are dealt: its active set, or those that have deskewed. -/
def Dev.dealLanes (d : Dev) (p : Nat) : List Nat :=
  if (d.port p).txSet = 0 then (d.bundle p).filter fun l => d.get (.LAN_STAT l) 31 28 = 5 || d.get (.LAN_STAT l) 31 28 = 6
  else d.lanesAt p (d.port p).txSet

/-- Table 11.3: bit i is the XOR of the payload bits whose index modulo 16 is i (DEDUCED, log 19). -/
def blocksBip (bs : List (Nat × Block)) : Nat :=
  bs.foldl (fun x b => (List.range 8).foldl (fun x i => x ^^^ bits b.2 (16 * i + 15) (16 * i)) x) 0

/-! ### Link packets and control blocks -/

def ptCpl : Nat := 0x20
def ptMsi : Nat := 0x21

/-- Completion status codes of Table 11.9. -/
def stOk : Nat := 0
def stError : Nat := 1
def stPoison : Nat := 2
def stUnsupported : Nat := 3
def stUnderrun : Nat := 4

/-- The link version of a port, 0 while none is negotiated (R408). -/
def Dev.version (d : Dev) (p : Nat) : Nat := d.get (.LNK_PSTAT p) 28 27

/-- A port is up (R408). -/
def Dev.portUp (d : Dev) (p : Nat) : Bool := d.get (.LNK_PSTAT p) 31 29 = 2

/-- R394, R396: whether the host's credits or flow control let a packet be sent. -/
def maySend (v : Nat) (x : Port) (k : Packet) : Bool :=
  if k.type = BitVec.ofNat 6 ptMsi then (if v = 1 then !inSet x.xoffRx 4 else x.post > 0)
  else (if v = 1 then !inSet x.xoffRx 3 else x.cplH > 0 && x.cplD ≥ k.blocks.length)

/-- R393, R394: a packet sent: numbered, kept in the replay buffer, its credits spent. -/
def sendNow (v : Nat) (x : Port) (k : Packet) : Port :=
  let x := { x with replay := x.replay ++ [(x.txSeq, k)], txSeq := (x.txSeq + 1) % 4096 }
  if v = 1 then x
  else if k.type = BitVec.ofNat 6 ptMsi then { x with post := x.post - 1 }
  else { x with cplH := x.cplH - 1, cplD := x.cplD - k.blocks.length }

/-- R393: the bytes a packet takes in the replay buffer: header, data and PKT_END blocks of 16 bytes. -/
def packetBytes (k : Packet) : Nat := 16 * (k.blocks.length + 2)

/-- R393: a sender holds at most 2,048 unacknowledged packets and 512 KiB of them. -/
def replayRoom (x : Port) (k : Packet) : Bool :=
  x.replay.length < 2048 && (x.replay.map fun r => packetBytes r.2).sum + packetBytes k ≤ 512 * 1024

/-- Packets waiting to be sent go out in order as credits allow; a stopped class does not stop the other. -/
def pumpPort (v : Nat) : List Packet → List Packet → Port → Port
  | [], kept, x => { x with sendq := kept }
  | k :: ks, kept, x =>
    if maySend v x k && replayRoom x k && !(kept.any fun q => q.type = k.type) then pumpPort v ks kept (sendNow v x k)
    else pumpPort v ks (kept ++ [k]) x

/-- R393: the time from which an acknowledgement is awaited: of the first packet sent into an empty replay buffer (DEDUCED, log 131). -/
def ackFrom (now : Nat) (old new : Port) : Port := if old.replay = [] then { new with ackT := now } else new

/-- The bytes of blocks, the lowest address first (R390). -/
def blockBytes (bs : List Block) : List Byte := bs.flatMap fun b => toBytes 16 b.toNat

/-- Table 11.9: the header block of a packet. -/
def headerBlock (k : Packet) : Block :=
  pack 128 [(122, 6, k.type.toNat), (110, 12, k.tag.toNat), (99, 11, k.blocks.length), (96, 3, k.status.toNat), (64, 32, k.data.toNat), (0, 64, k.addr.toNat)]

/-- R390: the blocks of a packet under its number: the header, the data, and PKT_END with the CRC over both. -/
def packetBlocks (r : Nat × Packet) : List Block :=
  let bs := headerBlock r.2 :: r.2.blocks
  bs ++ [ctlBlock 0x10 (r.1 % 4096 * 2 ^ 108 + crc32 (blockBytes bs) * 2 ^ 64)]

/-- R381, R390: packets dealt to the lanes of a port's bundle. -/
def dealPackets (d : Dev) (p : Nat) (l : List (Nat × Packet)) : Dev :=
  let ls := d.dealLanes p
  d.each (l.flatMap packetBlocks) (dealTo ls)

/-- The packets of a port that may be sent are sent. -/
def pump (d : Dev) (p : Nat) : Dev :=
  if d.portUp p then
    let t := d.modPort p fun x => ackFrom d.now x (pumpPort (d.version p) x.sendq [] x)
    dealPackets t p ((t.port p).replay.drop (d.port p).replay.length)
  else d

/-- A packet to the host: queued, and sent when flow control allows. -/
def sendPacket (d : Dev) (p : Nat) (k : Packet) : Dev := pump (d.modPort p fun x => { x with sendq := x.sendq ++ [k] }) p

/-- R390: the completion of a request: its tag, a status, and the value by type. -/
def complete (d : Dev) (p : Nat) (tag : BitVec 12) (status : Nat) (data : Word) (addr : Word64) (blocks : List Block) : Dev :=
  sendPacket d p { type := BitVec.ofNat 6 ptCpl, tag, status := BitVec.ofNat 3 status, data, addr, blocks }

/-- A control block sent on a port (R375), and dealt as a data block is (R381). -/
def sendCtl (d : Dev) (p : Nat) (b : Block) : Dev := dealTo (d.dealLanes p) (d.modPort p fun x => { x with ctlOut := b :: x.ctlOut }) b

end Sys2Proof.Machine
end

