-- ==== Sys2Proof/Machine/Operands.lean ====
section
/-! DEFINITION. Operand forms of an engine: how it fetches words, and how header, extension words and payload
give vectors, sets, targets and conditions (02_asell_programs.md). -/
namespace Sys2Proof.Machine

/-! ### Sites and owners -/

/-- R420, site rule: the owning port of a site while it is enabled, HP0 while it is disabled. -/
def Dev.siteOwner (d : Dev) (s : Nat) : Nat := if (d.site s).decl.en then (d.site s).decl.owner else 0

/-- The site an acquisition unit or a source unit is assigned to (12_register_interface.md R428). -/
def Dev.acqSite (d : Dev) (u : Nat) : Nat := d.get (.GLB_ACQSITE (u / 8)) (4 * (u % 8) + 3) (4 * (u % 8))
def Dev.srcSite (d : Dev) (n : Nat) : Nat := d.get .GLB_SRCSITE (4 * n + 3) (4 * n)

/-- The channels of a site in ascending order; slot k is the k-th (R38). -/
def Decl.list (x : Decl) : List Nat := members 128 x.chans

/-- Whether a site has a channel in a cuff. -/
def Decl.usesCuff (x : Decl) (k : Nat) : Bool := x.chans / 2 ^ (16 * k) % 2 ^ 16 ≠ 0

/-- The slot of a channel in a site. -/
def Decl.slotOf (x : Decl) (c : Nat) : Nat := card c x.chans

/-- R36: whether a site's timing set has passed validation. -/
def Dev.tsValid (d : Dev) (s t : Nat) : Bool := d.flag (.CUF_TSVALID s (t / 32)) (t % 32)

/-! ### Stream rings (06_pattern_memory.md R228, R229) -/

def Dev.ringOn (d : Dev) (s : Nat) : Bool := d.flag (.DRC_SRCFG s) 31
def Dev.ringBase (d : Dev) (s : Nat) : Nat := d.get (.DRC_SRBASE s) 14 0 * 0x200000
def Dev.ringSize (d : Dev) (s : Nat) : Nat := (d.get (.DRC_SRCFG s) 11 0 + 1) * 0x200000
/-- R228: the DRAM address of a ring position. -/
def Dev.ringAddr (d : Dev) (s p : Nat) : Nat := d.ringBase s + p % d.ringSize s
/-- R229: data at a position is present. -/
def Dev.ringPresent (d : Dev) (s p : Nat) : Bool := p + 8 ≤ (d.ring s).w && (d.ring s).w ≤ p + d.ringSize s
def Dev.markValid (d : Dev) (s : Nat) : Bool := d.flag (.DRC_SRSTAT s) 31

/-! ### Fetch -/

/-- Why an instruction does not execute now: it waits for results, for DRAM, or for ring data at or beyond W, it reads poisoned data, or it
faults with a code. -/
inductive Stop where
  | wait
  | busy
  | dry
  | poison
  | code (c : Nat)
deriving DecidableEq, Repr

/-- Program fault codes of Table 2.8. -/
def fcOpcode : Nat := 0x01
def fcField : Nat := 0x02
def fcTsInvalid : Nat := 0x03
def fcLoopDepth : Nat := 0x04
def fcEndlOrphan : Nat := 0x05
def fcCallDepth : Nat := 0x06
def fcRetEmpty : Nat := 0x07
def fcTargetRange : Nat := 0x08
def fcTableIndex : Nat := 0x09
def fcCondition : Nat := 0x0A
def fcSymbolMap : Nat := 0x0B
def fcUopAbsent : Nat := 0x0C
def fcStreamOp : Nat := 0x0D
def fcOwner : Nat := 0x0E
def fcSiteMismatch : Nat := 0x0F
def fcFetchRange : Nat := 0x10
def fcRewindLost : Nat := 0x11

/-- The line of a prefetch buffer with a tag. -/
def heldLine (b : Burst) (ring : Bool) (key : Nat) : Option Fetched := b.lines.find? fun l => l.ring = ring && l.key = key

/-- Word `i` of a line of the prefetch buffer. -/
def Fetched.word (l : Fetched) (i : Nat) : Except Stop Word64 :=
  if l.poison then .error .poison else .ok (BitVec.ofNat 64 (l.data / 2 ^ (64 * i)))

/-- A word of DRAM that the prefetch buffer does not hold. What an engine consumes during a refresh its lookahead has requested before the
refresh started (06_pattern_memory.md R220), so only self-refresh and a fenced seam keep it waiting (R226). -/
def readThrough (d : Dev) (a : Nat) : Except Stop Word64 :=
  if !d.engineReads then .error .busy
  else if d.dram.poisoned a then .error .poison
  else .ok (d.dram.word a)

/-- A word of the stream at a word position (R67): from the pleat cache (R68), from the prefetch buffer, or from the ring. -/
def streamWord (d : Dev) (b : Burst) (pc : Nat) : Except Stop Word64 :=
  match b.pleat.get none pc with
  | some w => if b.pleatBad.contains (pc / 8) then .error .poison else .ok w
  | none => match heldLine b true (pc / 8) with
    | some l => l.word (pc % 8)
    | none => if d.ringPresent b.site (8 * pc) then readThrough d (d.ringAddr b.site (8 * pc)) else .error .dry

/-- A word of the code section at a word address (R32): from the prefetch buffer or from DRAM. -/
def codeWord (d : Dev) (b : Burst) (pc : Nat) : Except Stop Word64 :=
  let a := b.base + b.codeOff + 8 * pc
  match heldLine b false (a / 64) with
  | some l => l.word (a / 8 % 8)
  | none => readThrough d a

/-- A word of the loadable's code section, or of the stream, at a word address or word position. -/
def fetchWord (d : Dev) (b : Burst) (pc : Nat) : Except Stop Word64 :=
  if b.inStream then streamWord d b pc
  else if pc ≥ b.codeWords then .error (.code fcFetchRange)
  else codeWord d b pc

/-- `k` words from an address, as one number, the first word lowest. -/
def fetchNum (d : Dev) (b : Burst) (pc : Nat) : Nat → Except Stop Nat
  | 0 => .ok 0
  | k + 1 => do
    let w ← fetchWord d b pc
    let r ← fetchNum d b (pc + 1) k
    return w.toNat + 2 ^ 64 * r

/-- R38: words of a full vector for `n` channels. -/
def fullWords (n : Nat) : Nat := (n + 15) / 16

/-- R38: the symbols of slots 0 to n-1; nibbles beyond are ignored. -/
def symsOf (n v : Nat) : BitVec 512 := BitVec.ofNat 512 (v % 16 ^ n)

/-- The symbol of a slot. -/
def symAt (v : BitVec 512) (k : Nat) : Nat := bits v (4 * k + 3) (4 * k)

/-- R39: an image of X, 0x5, in every slot. -/
def allX (n : Nat) : BitVec 512 := BitVec.ofNat 512 ((16 ^ n - 1) / 15 * 5)

/-- R40: the image with the slots of a list replaced by packed symbols, in ascending slot order. -/
def applyDelta (img : BitVec 512) (packed : Nat) : List Nat → BitVec 512
  | [] => img
  | k :: ks => applyDelta (setBits img (4 * k + 3) (4 * k) (packed % 16)) (packed / 16) ks

/-- The byte address of an entry of the vector table. -/
def tableAddr (b : Burst) (i : Nat) : Nat := b.base + b.tableOff + 8 * fullWords b.n * i

/-- R41: an entry of the vector table. -/
def tableVector (d : Dev) (b : Burst) (i : Nat) : Except Stop (BitVec 512) :=
  let a := tableAddr b i
  if !d.engineReads then .error .busy
  else if d.dram.poisonedRange a (8 * fullWords b.n) then .error .poison
  else .ok (symsOf b.n (d.dram.num a (8 * fullWords b.n)))

/-- R41: the vector named by table slot `i` of the payload at `pc`. -/
def tableSlot (d : Dev) (b : Burst) (pc i : Nat) : Except Stop (BitVec 512) := do
  let w ← fetchWord d b (pc + i / 4)
  let v := bits w (16 * (i % 4) + 15) (16 * (i % 4))
  if v ≥ 4096 then .error (.code fcField)
  else if v ≥ b.tableCount then .error (.code fcTableIndex)
  else tableVector d b v

/-- R38, R40: a full or delta vector at `pc`: its symbols and the address after it. -/
def readVector (d : Dev) (b : Burst) (form pc : Nat) (img : BitVec 512) : Except Stop (BitVec 512 × Nat) := do
  if form = 1 then
    let v ← fetchNum d b pc (fullWords b.n)
    return (symsOf b.n v, pc + fullWords b.n)
  else
    let m ← fetchNum d b pc ((b.n + 63) / 64)
    if m ≥ 2 ^ b.n then .error (.code fcField)
    else
      let ks := members b.n m
      let pc := pc + (b.n + 63) / 64
      let v ← fetchNum d b pc ((ks.length + 15) / 16)
      return (applyDelta img v ks, pc + (ks.length + 15) / 16)

/-- R38 to R41: a run of vectors from payload at `pc`: `i` have been read, `k` are left (DEDUCED, log 25). -/
def readRun (d : Dev) (b : Burst) (form : Nat) : Nat → Nat → Nat → BitVec 512 → List (BitVec 512) →
    Except Stop (List (BitVec 512) × Nat)
  | 0, i, pc, _, acc =>
    if form = 3 then do
      if i % 4 = 0 then return (acc.reverse, pc + i / 4)
      let w ← fetchWord d b (pc + i / 4)
      if w.toNat / 2 ^ (16 * (i % 4)) = 0 then return (acc.reverse, pc + i / 4 + 1) else .error (.code fcField)
    else .ok (acc.reverse, pc)
  | k + 1, i, pc, img, acc => do
    if form = 3 then
      let v ← tableSlot d b pc i
      readRun d b form k (i + 1) pc v (v :: acc)
    else
      let r ← readVector d b form pc img
      readRun d b form k (i + 1) r.2 r.1 (r.1 :: acc)

/-! ### Header fields (R34) -/

def hOpc (h : Word64) : Nat := bits h 63 58
def hTsv (h : Word64) : Bool := bit h 57
def hTs (h : Word64) : Nat := bits h 56 51
def hCap (h : Word64) : Nat := bits h 50 48
def hNeg (h : Word64) : Bool := bit h 47
def hCond (h : Word64) : Nat := bits h 46 43
def hCarg (h : Word64) : Nat := bits h 42 39
def hForm (h : Word64) : Nat := bits h 38 37
def hFlags (h : Word64) : Nat := bits h 36 32
def hImm (h : Word64) : Nat := bits h 31 0
def hFlag (h : Word64) (i : Nat) : Bool := bit h (32 + i)

/-- A vector an instruction may carry: none without payload, else one (Table 2.4). -/
def readOne (d : Dev) (b : Burst) (h : Word64) (pc : Nat) : Except Stop (Option (BitVec 512) × Nat) := do
  if hForm h = 0 then return (none, pc)
  else
    let r ← readRun d b (hForm h) 1 0 pc b.image []
    return (r.1.head?, r.2)

/-- R36: the set an instruction's vectors use. -/
def headerTs (b : Burst) (h : Word64) : Nat := if hTsv h then hTs h else b.dts

/-- R52: the word a branch names: relative to the header's address, read as signed. -/
def relTarget (b : Burst) (at_ imm : Nat) : Except Stop Nat :=
  let t : Int := at_ + signed 32 imm
  if 0 ≤ t ∧ t.toNat < b.codeWords then .ok t.toNat else .error (.code fcTargetRange)

/-- R52: the word address a CALL with ABS names. -/
def absTarget (b : Burst) (imm : Nat) : Except Stop Nat :=
  if imm < b.codeWords then .ok imm else .error (.code fcTargetRange)

end Sys2Proof.Machine
end

