-- ==== Sys2Proof/Machine/Flags.lean ====
section
/-! DEFINITION. Flags: outcome bits of status registers (00_scope.md R514), sticky and saturating fields, and the
conditions of Asell instructions (02_asell_programs.md R53 to R57). -/
namespace Sys2Proof.Machine

/-! ### Status registers -/

/-- R514: an operation ends: its own outcome bit is set and the opposite one cleared. -/
def Dev.outcome (d : Dev) (r : Reg) (own other : Nat) : Dev := (d.raise r own).clear r other

/-- A field that counts up and saturates. -/
def Dev.countUp (d : Dev) (r : Reg) (hi lo k : Nat) : Dev := d.set r hi lo (sat (hi + 1 - lo) (d.get r hi lo + k))

/-- R8: the fields of type RC cleared by a read. -/
def Dev.clearRc (d : Dev) (r : Reg) : Dev := d.wr r (d.rd r &&& ~~~(BitVec.ofNat 32 r.row.rc))

/-! ### Conditions -/

/-- R53: the condition kinds of the compare class (Table 2.6). -/
def isCompare (cond : Nat) : Bool := cond = 1 || cond = 2 || cond = 4 || cond = 5

/-- R53: whether a CARG lies outside the range its kind gives. -/
def badCarg (b : Burst) (cond carg : Nat) : Bool :=
  if cond = 2 then carg ≥ b.maskCount
  else if cond = 4 then false
  else if cond = 6 then carg ≥ b.loops.length
  else if cond = 7 then carg ≥ 8
  else carg ≠ 0

/-- R53: whether an acquisition unit is owned by the owning port of the burst's site. -/
def unitOwned (d : Dev) (b : Burst) (u : Nat) : Bool := d.siteOwner (d.acqSite u) = d.siteOwner b.site

/-- The same for a source unit (R65). -/
def sourceOwned (d : Dev) (b : Burst) (n : Nat) : Bool := d.siteOwner (d.srcSite n) = d.siteOwner b.site

/-- R53: the checks of a condition for JIF and UOP, or for MATCH. -/
def condCheck (d : Dev) (b : Burst) (isMatch : Bool) (h : Word64) : Except Stop Unit :=
  if hCond h ≥ 8 ∨ (isMatch ∧ hCond h ≠ 0 ∧ hCond h ≠ 2 ∧ hCond h ≠ 4) then .error (.code fcCondition)
  else if badCarg b (hCond h) (hCarg h) then .error (.code fcCondition)
  else if hCond h = 4 ∧ !unitOwned d b (hCarg h) then .error (.code fcOwner)
  else .ok ()

/-- Table 2.9: pin mask `n` of the loadable, bit i for slot i. -/
def pinMask (d : Dev) (b : Burst) (n : Nat) : Nat := d.dram.num (b.base + b.maskOff + 16 * n) 16

/-- Whether a vector lies above a clear point and at or below the highest covered one (R55, R57). -/
def covered (clr hi : Int) (v : Nat) : Bool := clr < (v : Int) && (v : Int) ≤ hi

/-- R53 to R57: the truth of a condition in a JIF whose test covers vectors up to `hi`. -/
def condHolds (d : Dev) (b : Burst) (hi : Int) (h : Word64) : Bool :=
  let c := hCarg h
  let v :=
    match hCond h with
    | 0 => true
    | 1 => b.fails.any fun f => covered b.clrAny hi f.1 && f.2 ≠ 0
    | 2 => b.fails.any fun f => covered (b.clrMask.get (-1) c) hi f.1 && (f.2 &&& pinMask d b c) ≠ 0
    | 3 => b.matched
    | 4 => b.events.any fun f => f.1 = c && covered (b.clrAcq.get (-1) c) hi f.2
    | 5 => b.viols.any fun f => covered b.clrViol hi f
    | 6 => (b.loops[c]?.map (·.ctr)) = some 0
    | _ => d.flag (.SCH_HFLAG b.site) c
  v != hNeg h

/-- R57: the clear point of the flag a condition tests, moved to the highest vector covered, and never back (DEDUCED, log 206). -/
def moveClear (b : Burst) (hi : Int) (h : Word64) : Burst :=
  let c := hCarg h
  match hCond h with
  | 1 => { b with clrAny := max b.clrAny hi }
  | 2 => { b with clrMask := b.clrMask.put (-1) c (max (b.clrMask.get (-1) c) hi) }
  | 4 => { b with clrAcq := b.clrAcq.put (-1) c (max (b.clrAcq.get (-1) c) hi) }
  | 5 => { b with clrViol := max b.clrViol hi }
  | _ => b

end Sys2Proof.Machine
end

