-- ==== Sys2Proof/Machine/Engine.lean ====
section
/-! DEFINITION. The engine: how an Asell instruction is decoded, checked and executed, how vectors are emitted,
and how a burst faults (02_asell_programs.md, 03_engines_and_microcode.md). -/
namespace Sys2Proof.Machine

/-! ### Quads on their way (R46, R77, R78, 01_burst_path.md R13, R17, R18) -/

/-- The quads packed and not released, oldest first: in the entry buffers, in the seams, in the quad FIFO. -/
def Burst.quads (b : Burst) : List Nat := b.entryBuf ++ b.seam ++ b.fifo

/-- R78: the lead: vectors emitted and not released. -/
def Burst.lead (b : Burst) : Nat := b.quads.sum + b.part

/-- The vectors that still fit: the entry buffers hold 16 quads, the seams 32 and the quad FIFO 128. A fenced seam lets nothing through. -/
def Burst.room (fenced : Bool) (b : Burst) : Nat :=
  4 * ((if fenced then b.entryBuf.length + 160 else 176) - b.quads.length) - b.part

/-- R77: of `n` vectors in words of four, those whose words issue where `room` vectors fit. -/
def issueCount (n room : Nat) : Nat := if n ≤ room then n else room / 4 * 4

/-- The yoke and the seams pass quads on as far as there is room, in order. -/
def Burst.spread (fenced : Bool) (quads : List Nat) (b : Burst) : Burst :=
  let q := quads.drop b.entryBuf.length
  if fenced then { b with seam := q.take 32, fifo := q.drop 32 }
  else { b with entryBuf := quads.take 16, seam := (quads.drop 16).take 32, fifo := quads.drop 48 }

/-- A synchronised JIF emits copies of its vector (R56). -/
def Burst.settling (b : Burst) : Bool :=
  match b.wait with
  | some (.jif _ _ _ _ copies) => copies && b.fin.isNone
  | _ => false

/-- R46: the engine waits, so a quad leaves with the vectors it has: at HALT and every other end, during a WAITT or a synchronised JIF,
and at the end of a MATCH. -/
def Burst.resting (b : Burst) : Bool :=
  (b.fin.isSome && b.unissued = 0) || (match b.wait with
    | none => false
    | some (.matching _ _ _ _ _) => b.unissued = 0 || b.matchHit.isSome
    | some _ => true)

/-- Whether the vectors a queue ends with are numbered, so that their words have their stop enable set (R83). -/
def Burst.stopWords (b : Burst) : Bool := b.queue.getLast?.any fun r => r.kind = .numbered || r.kind = .matchRep

/-- The words still to issue do not: a stop event waits for them (R83), or their MATCH has matched (R58). -/
def Burst.heldBack (b : Burst) : Bool := (b.stopEvent.isSome && b.stopWords) || b.matchHit.isSome

/-- `c` more copies in the run that a synchronised JIF repeats. -/
def moreCopies (c : Nat) (q : List VecRun) : List VecRun :=
  q.map fun r => if r.kind = .settle && r.ongoing then { r with count := r.count + c } else r

/-- R46, R77: words issue while they find room, their vectors are packed into quads of four, and the quads go on (DESIGN CHOICE, log 5). -/
def Burst.flow (fenced : Bool) (b : Burst) : Burst :=
  let room := b.room fenced
  let k := if b.heldBack then 0 else issueCount b.unissued room
  let b := { b with unissued := b.unissued - k }
  let c := if b.settling ∧ b.unissued = 0 then room - k else 0
  let n := b.part + k + c
  let quads := b.quads ++ List.replicate (n / 4) 4
  let b := if c = 0 then b else { b with queue := moreCopies c b.queue }
  if b.resting ∧ n % 4 ≠ 0 then ({ b with part := 0 }).spread fenced (quads ++ [n % 4])
  else ({ b with part := n % 4 }).spread fenced quads

/-- A vector of the first quad in the entry buffers is released; with its last the next quad comes (R152). -/
def Burst.popQuad (b : Burst) : Burst :=
  match b.entryBuf with
  | [] => b
  | q :: qs => if q ≤ 1 then { b with entryBuf := qs, midQuad := false, oldMaps := [] } else { b with entryBuf := (q - 1) :: qs, midQuad := true }

/-- Quads without their newest `k` vectors, the newest first. -/
def trimQuads : Nat → List Nat → List Nat
  | _, [] => []
  | k, q :: qs => if q ≤ k then trimQuads (k - q) qs else (q - k) :: qs

/-- The vectors on the engine's side of the yoke; a seam delivers each of the others (R17). -/
def Burst.engineSide (b : Burst) : Nat := b.unissued + b.part + b.fifo.sum

/-- The newest `k` vectors of the engine's side taken back from the emission: those not issued first, then those in the quad FIFO. -/
def Burst.takeBack (k : Nat) (b : Burst) : Burst :=
  let u := min k b.unissued
  let p := min (k - u) b.part
  { b with unissued := b.unissued - u, part := b.part - p, fifo := (trimQuads (k - u - p) b.fifo.reverse).reverse }

/-- R46: the vectors packed so far leave as a quad. -/
def Burst.closePart (fenced : Bool) (b : Burst) : Burst :=
  if b.part = 0 then b else ({ b with part := 0 }).spread fenced (b.quads ++ [b.part])

/-- The first `k` vectors of a queue of runs. -/
def takeRuns : Nat → List VecRun → List VecRun
  | _, [] => []
  | k, r :: rs => if k = 0 then [] else if r.count ≤ k then r :: takeRuns (k - r.count) rs else [{ r with count := k }]

/-- The vectors of a queue, and the numbered ones. -/
def vectorsIn (q : List VecRun) : Nat := (q.map (·.count)).sum
def numberedIn (q : List VecRun) : Nat := vectorsIn (q.filter fun r => r.kind = .numbered || r.kind = .matchRep)

/-- A queue without its first `k` vectors. -/
def dropRuns : Nat → List VecRun → List VecRun
  | _, [] => []
  | k, r :: rs => if r.count ≤ k then dropRuns (k - r.count) rs else { r with count := r.count - k, first := r.first + k, acts := [] } :: rs

/-- The markers that vectors carry. -/
def marksIn (q : List VecRun) : List Act := q.flatMap fun r => r.acts.filter fun a => a matches .mark _

/-- The burst with the vectors that wait at a stalled word taken back: its program goes no further, and their markers wait (R66). -/
def Burst.issuedOnly (b : Burst) : Burst :=
  let n := vectorsIn b.queue - b.unissued
  let q := takeRuns n b.queue
  { b with queue := q, unissued := 0, next := b.next - (numberedIn b.queue - numberedIn q)
           acts := b.acts ++ if b.unissued = 0 then [] else marksIn (b.queue.drop q.length) }

/-- R109: numbered vectors emitted. -/
def Burst.emitted (b : Burst) : Nat := b.released + (numberedIn b.queue - (if b.stopWords then b.unissued else 0))

/-! ### Emission -/

/-- R34, R37: whether a numbered vector is captured. -/
def capOf (b : Burst) (h : Word64) : Bool := if hCap h = 1 then true else if hCap h = 2 then false else b.capOn

/-- R33, R39, R45: numbered vectors emitted: they take the next numbers, replace the image,
and see every change made before them. -/
def emitNumbered (b : Burst) (syms : BitVec 512) (ts count : Nat) (capture : Bool) : Burst :=
  { b with
    queue := b.queue ++ [{ kind := .numbered, syms, ts, count, first := b.next, capture, capMode := b.capMode, acts := b.acts }]
    unissued := b.unissued + count, acts := [], image := syms, next := b.next + count }

/-- R33: an unnumbered run emitted: it leaves the image and masks its compares. -/
def emitUnnumbered (b : Burst) (r : VecRun) : Burst :=
  { b with queue := b.queue ++ [{ r with acts := b.acts }], unissued := b.unissued + r.count, acts := [] }

/-- R36: a numbered vector emitted whose set must be valid. -/
def emitChecked (d : Dev) (b : Burst) (syms : BitVec 512) (ts count : Nat) (capture : Bool) : Except Stop Burst :=
  if d.tsValid b.site ts then .ok (emitNumbered b syms ts count capture) else .error (.code fcTsInvalid)

/-- The vector an instruction carries, if any, emitted (R45). -/
def emitOwn (d : Dev) (b : Burst) (h : Word64) (v : Option (BitVec 512)) : Except Stop Burst :=
  match v with
  | none => .ok b
  | some s => emitChecked d b s (headerTs b h) 1 (capOf b h)

/-- The vectors of a VEC emitted in order, each with its set (R47, R48). -/
def emitList (d : Dev) (capture : Bool) : List (BitVec 512) → List Nat → Burst → Except Stop Burst
  | [], _, b => .ok b
  | s :: ss, ts, b => do
    let b' ← emitChecked d b s (ts.headD b.dts) 1 capture
    emitList d capture ss ts.tail b'

/-! ### Decode checks (R35, Tables 2.4 and 2.5) -/

/-- What Tables 2.4 and 2.5 give an opcode: forms allowed (bit f), reserved FLAGS and IMM bits, and whether it takes a condition. -/
structure OpRow where
  forms : Nat
  flagsRes : Nat
  immRes : Nat
  cond : Bool := false
deriving DecidableEq, Repr

/-- Tables 2.4 and 2.5. -/
def opRow : Nat → Option OpRow
  | 0x01 => some { forms := 0xE, flagsRes := 0x1E, immRes := 0xFFFF0000 }
  | 0x02 => some { forms := 0xE, flagsRes := 0x1F, immRes := 0 }
  | 0x04 => some { forms := 0xF, flagsRes := 0x1F, immRes := 0 }
  | 0x05 => some { forms := 0xF, flagsRes := 0x1F, immRes := 0xFFFFFFFF }
  | 0x06 => some { forms := 0xF, flagsRes := 0x1E, immRes := 0 }
  | 0x07 => some { forms := 0xF, flagsRes := 0x1F, immRes := 0xFFFFFFFF }
  | 0x08 => some { forms := 0xF, flagsRes := 0x1C, immRes := 0 }
  | 0x09 => some { forms := 0xF, flagsRes := 0x10, immRes := 0, cond := true }
  | 0x0A => some { forms := 0xE, flagsRes := 0x18, immRes := 0, cond := true }
  | 0x0B => some { forms := 0xE, flagsRes := 0x1C, immRes := 0 }
  | 0x0C => some { forms := 0xF, flagsRes := 0x1F, immRes := 0xFFFFFFC0 }
  | 0x0D => some { forms := 0xF, flagsRes := 0x1F, immRes := 0xFFFFFFFC }
  | 0x0E => some { forms := 0xF, flagsRes := 0x1F, immRes := 0xFFFFFFFF }
  | 0x0F => some { forms := 0xF, flagsRes := 0x1E, immRes := 0xFFFFFFF0 }
  | 0x10 => some { forms := 0xF, flagsRes := 0x1C, immRes := 0xFFF8 }
  | 0x11 => some { forms := 0xF, flagsRes := 0x1F, immRes := 0 }
  | 0x12 => some { forms := 0x1, flagsRes := 0x1F, immRes := 0xFFFFFFFF }
  | 0x13 => some { forms := 0xF, flagsRes := 0, immRes := 0, cond := true }
  | 0x3F => some { forms := 0xF, flagsRes := 0x1F, immRes := 0xFFFF0000 }
  | _ => none

/-- The reserved field values of single opcodes: a mode, a record mode, a request, both jump flags of MATCH,
a header set beside per-vector sets, and a SYNC without a vector (R35, R48, Tables 2.4, 2.5 and 2.7). -/
def opField (h : Word64) : Bool :=
  match hOpc h with
  | 0x01 => hFlag h 0 && (hTsv h || hTs h ≠ 0)
  | 0x09 => hFlag h 2 && hForm h = 0
  | 0x0A => hFlag h 0 && hFlag h 1
  | 0x0B => hFlags h % 4 = 3 || (if hFlags h % 4 = 2 then hImm h / 16 % 16 ≠ 0 else hImm h ≠ 0)
  | 0x0D => hImm h % 4 = 3
  | 0x10 => hFlags h % 4 = 3
  | _ => false

/-- R35: whether the header holds a reserved or disallowed field value. -/
def headerField (r : OpRow) (h : Word64) : Bool :=
  hCap h ≥ 3 || (!hTsv h && hTs h ≠ 0) || !inSet r.forms (hForm h) || (hFlags h &&& r.flagsRes) ≠ 0 ||
  (hImm h &&& r.immRes) ≠ 0 || (!r.cond && (hCond h ≠ 0 || hNeg h || hCarg h ≠ 0)) || opField h

/-! ### Control stores (03_engines_and_microcode.md R84 to R87) -/

/-- GLB_VERUCODE.LOADED: the version of the loaded standard package, 0 for none. -/
def Dev.ucode (d : Dev) : Nat := d.get .GLB_VERUCODE 31 16

/-- A microword. -/
abbrev UWord := BitVec 176

/-- R81: a microword as it stands in a store, its CHECK computed. -/
def withCheck (w : UWord) : UWord := setBits w 175 168 (Config.hammingCheck (bits w 167 0))

/-- Words of the loaded package (R86). -/
def Dev.stdH (d : Dev) (a : Nat) : UWord := withCheck (BitVec.ofNat 176 (Config.stdHorizontal d.trust.pkgDigest a))
def Dev.stdN (d : Dev) (a : Nat) : UWord := withCheck (BitVec.ofNat 176 (Config.stdNano d.trust.pkgDigest a))

def Dev.stdP (d : Dev) (a : Nat) : BitVec 24 := BitVec.ofNat 24 (Config.stdPointer d.trust.pkgDigest a % 2 ^ 21)

/-- A word of an engine's horizontal store. -/
def Dev.hWord (d : Dev) (e a : Nat) : UWord :=
  ((d.engine e).hstore.get none a).getD (if a < 3072 ∧ d.ucode ≠ 0 then d.stdH a else 0)

/-- A word of the shared nano-store. -/
def Dev.nWord (d : Dev) (a : Nat) : UWord := (d.nano.get none a).getD (if a < 6144 ∧ d.ucode ≠ 0 then d.stdN a else 0)

/-- A micro-pointer of an engine. -/
def Dev.mpWord (d : Dev) (e a : Nat) : BitVec 24 :=
  ((d.engine e).mptr.get none a).getD (if a < 6144 ∧ d.ucode ≠ 0 then d.stdP a else 0)

/-- R86: the directory entry that the package gives an opcode: both forms and a twin map. -/
def Dev.stdDir (d : Dev) (k : Nat) : Word :=
  if k < 64 ∧ d.ucode ≠ 0 ∧ (opRow k).isSome then 0xD0000000 ||| BitVec.ofNat 32 (Config.stdDirectory d.trust.pkgDigest k % 2 ^ 25) else 0

/-- R85: a directory entry of an engine. -/
def Dev.dirEntry (d : Dev) (e k : Nat) : Word := ((d.engine e).dir.get none k).getD (d.stdDir k)

/-- R85: whether a routine is loaded in either store. -/
def Dev.present (d : Dev) (e k : Nat) : Bool := bit (d.dirEntry e k) 31 || bit (d.dirEntry e k) 30

/-- R85, R96, R108: whether a routine runs from its lining form. -/
def runsLining (d : Dev) (e k : Nat) : Bool :=
  bit (d.dirEntry e k) 30 && (!bit (d.dirEntry e k) 31 || (d.engine e).liningOnly.contains k || d.flag (.ENG_CTL e) 1)

/-! ### Routines of the opcodes

Each routine gives the burst after the instruction, with its program counter at the next instruction to execute.
`pc` is the address after the header. -/

/-- R48: the set bytes that follow a VEC header with PTS, and their check. -/
def ptsSets (d : Dev) (b : Burst) (pc n : Nat) : Except Stop (List Nat) := do
  let w ← fetchNum d b pc ((n + 7) / 8)
  let l := (List.range n).map fun i => w / 256 ^ i % 256
  if w ≥ 256 ^ n ∨ l.any (· ≥ 64) then .error (.code fcField) else return l

/-- VEC (R47, R48). -/
def rVec (d : Dev) (b : Burst) (h : Word64) (pc : Nat) : Except Stop Burst := do
  let n := hImm h % 65536 + 1
  let sets ← if hFlag h 0 then ptsSets d b pc n else pure (List.replicate n (headerTs b h))
  let pc := if hFlag h 0 then pc + (n + 7) / 8 else pc
  let r ← readRun d b (hForm h) n 0 pc b.image []
  let b ← emitList d (capOf b h) r.1 sets b
  return { b with pc := r.2 }

/-- RPT (R47). -/
def rRpt (d : Dev) (b : Burst) (h : Word64) (pc : Nat) : Except Stop Burst := do
  let r ← readRun d b (hForm h) 1 0 pc b.image []
  let b ← emitChecked d b (r.1.headD 0) (headerTs b h) (hImm h + 1) (capOf b h)
  return { b with pc := r.2 }

/-- LOOP (R49, R50). -/
def rLoop (d : Dev) (b : Burst) (h : Word64) (pc : Nat) : Except Stop Burst := do
  if b.loops.length ≥ 16 then .error (.code fcLoopDepth)
  let r ← readOne d b h pc
  let b ← emitOwn d b h r.1
  return { b with pc := r.2, loops := ⟨r.2, b.inStream, hImm h⟩ :: b.loops }

/-- R68, R235: whether a loop's body is longer than the pleat cache holds. -/
def longBody (l : LoopF) (endPc : Nat) : Bool := (endPc - l.start) * 8 > 262144

/-- ENDL (R49, R50, R235). A rewind of a long streamed loop needs a valid mark at or below its first instruction. -/
def rEndl (d : Dev) (b : Burst) (h : Word64) (pc : Nat) : Except Stop Burst := do
  match b.loops with
  | [] => .error (.code fcEndlOrphan)
  | l :: ls =>
    let r ← readOne d b h pc
    let rewind := l.ctr ≠ 0 ∧ l.stream ∧ b.inStream ∧ longBody l r.2
    if rewind ∧ !(d.markValid b.site && (d.ring b.site).m ≤ 8 * l.start) then .error (.code fcRewindLost)
    let b ← emitOwn d b h r.1
    if l.ctr = 0 then return { b with pc := r.2, loops := ls }
    else return { b with pc := l.start, inStream := l.stream, loops := { l with ctr := l.ctr - 1 } :: ls }

/-- R51: a frame pushed. -/
def pushFrame (b : Burst) (ret : Nat) : Except Stop Burst :=
  if b.calls.length ≥ 32 then .error (.code fcCallDepth)
  else .ok { b with calls := ⟨ret, b.inStream, b.loops.length⟩ :: b.calls }

/-- CALL (R51, R52, R67); of several broken rules the first in order is reported (DEDUCED, log 24). -/
def rCall (d : Dev) (b : Burst) (h : Word64) (pc : Nat) : Except Stop Burst := do
  if b.inStream ∧ !hFlag h 0 then .error (.code fcStreamOp)
  let r ← readOne d b h pc
  let b ← emitOwn d b h r.1
  let t ← if hFlag h 0 then absTarget b (hImm h) else relTarget b (pc - 1) (hImm h)
  let b ← pushFrame b r.2
  return { b with pc := t, inStream := false }

/-- RET (R51). -/
def rRet (d : Dev) (b : Burst) (h : Word64) (pc : Nat) : Except Stop Burst := do
  match b.calls with
  | [] => .error (.code fcRetEmpty)
  | f :: fs =>
    let r ← readOne d b h pc
    let b ← emitOwn d b h r.1
    return { b with pc := f.ret, inStream := f.stream, calls := fs, loops := b.loops.drop (b.loops.length - f.loops) }

/-- R50: POP innermost loops closed by a taken branch. -/
def popLoops (b : Burst) (k : Nat) : Except Stop Burst :=
  if k > b.loops.length then .error (.code fcLoopDepth) else .ok { b with loops := b.loops.drop k }

/-- JMP (R50, R52, R67); of several broken rules the first in order is reported (DEDUCED, log 24). -/
def rJmp (d : Dev) (b : Burst) (h : Word64) (pc : Nat) : Except Stop Burst := do
  if b.inStream then .error (.code fcStreamOp)
  let r ← readOne d b h pc
  let b ← emitOwn d b h r.1
  let t ← relTarget b (pc - 1) (hImm h)
  let b ← popLoops b (hFlags h % 4)
  return { b with pc := t }

/-- The transfer of a JIF whose condition has been tested: taken, it closes POP loops and goes to its target (R50, R52, R57). -/
def jifTransfer (b : Burst) (h : Word64) (at_ next : Nat) (hi : Int) (taken : Bool) : Except Stop Burst := do
  let b := if hFlag h 3 ∧ isCompare (hCond h) then moveClear b hi h else b
  if taken then
    let t ← relTarget b at_ (hImm h)
    let b ← popLoops b (hFlags h % 4)
    return { b with pc := t }
  else return { b with pc := next }

/-- JIF (R53 to R57, R67). A synchronised test of the compare class emits vector j and waits for the results below j;
an unsynchronised one waits for the results up to j - 1,025. -/
def rJif (d : Dev) (b : Burst) (h : Word64) (pc : Nat) : Except Stop Burst := do
  if b.inStream then .error (.code fcStreamOp)
  condCheck d b false h
  let r ← readOne d b h pc
  let j := b.next
  if isCompare (hCond h) ∧ hFlag h 2 then
    let ts := headerTs b h
    let b ← emitOwn d b h r.1
    let copies := decide (b.returned < j)
    return { b with
      pc := r.2, wait := some (.jif j h (pc - 1) r.2 copies), settles := 0
      queue := if copies then b.queue ++ [{ kind := .settle, syms := b.image, ts, count := 0, ongoing := true }]
               else b.queue }
  else if isCompare (hCond h) ∧ b.returned + 1024 < j then .error .wait
  else
    let hi := (j : Int) - 1025
    let taken := condHolds d b hi h
    let b ← emitOwn d b h r.1
    jifTransfer b h (pc - 1) r.2 hi taken

/-- MATCH (R53, R58): its repetitions are emitted up to T, and the engine waits for the outcome. -/
def rMatch (d : Dev) (b : Burst) (h : Word64) (pc : Nat) : Except Stop Burst := do
  condCheck d b true h
  let x ← fetchWord d b pc
  if bits x 63 40 ≠ 0 then .error (.code fcField)
  let r ← readRun d b (hForm h) 1 0 (pc + 1) b.image []
  let ts := headerTs b h
  if !d.tsValid b.site ts then .error (.code fcTsInvalid)
  let t := bits x 39 0 + 1
  let syms := r.1.headD 0
  return { b with
    pc := r.2, image := syms, acts := [], matchHit := none
    wait := some (.matching b.next t h (pc - 1) r.2), unissued := b.unissued + t
    queue := b.queue ++ [{ kind := .matchRep, syms, ts, count := t, first := b.next,
                           capture := capOf b h, capMode := b.capMode, acts := b.acts }] }

/-- R60: the target two extension words give, in units. -/
def waitTarget (e0 e1 : Word64) : Nat :=
  ((bits e0 47 0 * 1000000000 + bits e1 31 0) * 65536 + bits e0 63 48) * frac16

/-- WAITT (R60 to R62): the pad is emitted until a time or an event (DEDUCED, log 32). -/
def rWaitt (d : Dev) (b : Burst) (h : Word64) (pc : Nat) : Except Stop Burst := do
  let m := hFlags h % 4
  let ts := headerTs b h
  if m = 2 then
    let r ← readRun d b (hForm h) 1 0 pc b.image []
    if !d.tsValid b.site ts then .error (.code fcTsInvalid)
    let n := hImm h % 16
    let got := b.gotEvents.find? (·.1 = n)
    let dl := if hImm h / 256 = 0 then none else some (d.now + hImm h / 256 * micro1)
    return { emitUnnumbered b { kind := .waitPad, syms := r.1.headD 0, ts, count := 1, ongoing := true } with
      pc := r.2, waitFirst := none, gotEvents := b.gotEvents.erase (got.getD (16, 0)), wait := some (.event n dl (got.map (·.2))) }
  else
    let e0 ← fetchWord d b pc
    let e1 ← fetchWord d b (pc + 1)
    if bits e1 63 32 ≠ 0 then .error (.code fcField)
    let r ← readRun d b (hForm h) 1 0 (pc + 2) b.image []
    if !d.tsValid b.site ts then .error (.code fcTsInvalid)
    return { emitUnnumbered b { kind := .waitPad, syms := r.1.headD 0, ts, count := 1, ongoing := true } with
      pc := r.2, waitFirst := none, wait := some (.time (m = 1) (waitTarget e0 e1)) }

/-- An instruction that changes site state by `f` and may carry one vector, the first to see the change (R45). -/
def rState (d : Dev) (b : Burst) (h : Word64) (pc : Nat) (f : Burst → Burst) : Except Stop Burst := do
  let r ← readOne d b h pc
  let b ← emitOwn d (f b) h r.1
  return { b with pc := r.2 }

/-- TSET (R63). -/
def rTset (d : Dev) (b : Burst) (h : Word64) (pc : Nat) : Except Stop Burst :=
  rState d b h pc fun b => { b with dts := hImm h % 64 }

/-- CAPON (R64). -/
def rCapon (d : Dev) (b : Burst) (h : Word64) (pc : Nat) : Except Stop Burst :=
  rState d b h pc fun b => { b with capOn := true, capMode := hImm h % 4 }

/-- CAPOFF (R64). -/
def rCapoff (d : Dev) (b : Burst) (h : Word64) (pc : Nat) : Except Stop Burst :=
  rState d b h pc fun b => { b with capOn := false }

/-- A change that acts at the next vector emitted (R45). -/
def addAct (a : Act) (b : Burst) : Burst := { b with acts := b.acts ++ [a] }

/-- TRIG (R65). -/
def rTrig (d : Dev) (b : Burst) (h : Word64) (pc : Nat) : Except Stop Burst :=
  if unitOwned d b (hImm h % 16) then
    rState d b h pc (addAct (if hFlag h 0 then .disarm (hImm h % 16) else .arm (hImm h % 16)))
  else .error (.code fcOwner)

/-- WAVE (R65). -/
def rWave (d : Dev) (b : Burst) (h : Word64) (pc : Nat) : Except Stop Burst :=
  if sourceOwned d b (hImm h % 8) then
    rState d b h pc (addAct (.wave (hFlags h % 4) (hImm h / 65536) (hImm h % 8)))
  else .error (.code fcOwner)

/-- MARK (R66). -/
def rMark (d : Dev) (b : Burst) (h : Word64) (pc : Nat) : Except Stop Burst := rState d b h pc (addAct (.mark (hImm h)))

/-- STREAM (R67): a frame is pushed and execution goes on at the read pointer of the site's ring. -/
def rStream (d : Dev) (b : Burst) (_h : Word64) (pc : Nat) : Except Stop Burst := do
  if b.inStream ∨ !d.ringOn b.site then .error (.code fcStreamOp)
  let b ← pushFrame b pc
  return { b with pc := (d.ring b.site).rd / 8, inStream := true }

/-- HALT (R70). -/
def rHalt (d : Dev) (b : Burst) (h : Word64) (pc : Nat) : Except Stop Burst := do
  let r ← readOne d b h pc
  let b ← emitOwn d b h r.1
  return { b with pc := r.2, fin := some (.halt (hImm h % 65536)) }

/-! ### Execution -/

/-- ENG_STAT fields (R103). -/
def Dev.engState (d : Dev) (e : Nat) : Nat := d.get (.ENG_STAT e) 31 28
def Dev.dispatched (d : Dev) (e : Nat) : Bool := d.flag (.ENG_STAT e) 26

/-- R98: a host abort has reached the engine, at the latest 20 ns after its acceptance, which is 80 ns before the stop time. -/
def abortReached (d : Dev) (e : Nat) (b : Burst) : Bool :=
  (d.engine e).hostAbort && !d.seamFenced 32 && (b.stopped || b.stop.any fun z => decide (z * halfPs ≤ d.now + 80 * nano1))

/-- The burst of an engine that stands between two instructions: it is arming, armed or running, waits for nothing, has not ended, and every
word of the instructions before has issued (R77). -/
def boundaryBurst (d : Dev) (e : Nat) : Option Burst :=
  match d.burst e with
  | none => none
  | some b =>
    if (d.engState e = 2 ∨ d.engState e = 3 ∨ d.engState e = 4) ∧ b.wait = none ∧ b.fin = none ∧ b.micro = none ∧ b.unissued = 0
    then some b else none

/-- The burst an engine may execute an instruction of now: the boundary between two is a safe point, where an abort is taken first (R97, R98). -/
def readyBurst (d : Dev) (e : Nat) : Option Burst := (boundaryBurst d e).filter fun b => !abortReached d e b

/-- Whether a seam between the yoke and a cuff of a site is fenced (01_burst_path.md R20). -/
def Dev.yokeFenced (d : Dev) (s : Nat) : Bool :=
  (List.range 8).any fun k => d.seamFenced (34 + k) && (d.site s).decl.usesCuff k

/-- Whether the seam by which a cuff of a site returns results is fenced (R20). -/
def Dev.resultsFenced (d : Dev) (s : Nat) : Bool :=
  (List.range 8).any fun k => d.seamFenced (42 + k) && (d.site s).decl.usesCuff k

/-- R98: vectors behind the stop of a burst's cuffs are delivered and discarded. -/
def Burst.drained (b : Burst) : Burst :=
  { b with queue := [], unissued := 0, fifo := [], seam := [], entryBuf := [], part := 0, acts := b.acts ++ marksIn b.queue }

/-- R19, R98: every vector emitted and not released is delivered, discarded and counted; the burst goes on as `c`. -/
def discardEmitted (d : Dev) (e : Nat) (b c : Burst) : Dev :=
  d.modEngine e fun x => { x with burst := some c, discard := x.discard + (vectorsIn b.queue - b.unissued), emitted := b.emitted }

/-- The burst of an engine stored: its words issue as far as there is room (R77), or, where its cuffs have stopped, its vectors are
discarded and counted (R98); with ENG_EMITTED (R109). -/
def setBurst (d : Dev) (e : Nat) (b : Burst) : Dev :=
  let b' := b.flow (d.yokeFenced b.site)
  d.modEngine e fun x =>
    if b.stopped then { x with
      burst := some b.drained, emitted := x.emitted + numberedIn b.queue, discard := x.discard + vectorsIn b.queue }
    else { x with burst := some b', emitted := b'.emitted }

/-- R71: FADDR and FSTREAM of an instruction: its word address, or its offset in the ring (DEDUCED, log 28). -/
def faultAddr (d : Dev) (b : Burst) (pc : Nat) (stream : Bool) : Nat := if stream then 8 * pc % d.ringSize b.site else pc

/-- R71: the burst faults at the instruction at `pc`; the vectors emitted before it stand. -/
def programFault (d : Dev) (e : Nat) (b : Burst) (code pc : Nat) (stream : Bool) : Dev :=
  setBurst d e { b with
    wait := none, fin := some (.fault code (faultAddr d b pc stream) stream)
    flags := if code = fcRewindLost ∧ !d.markValid b.site then b.flags ||| 2 ^ 6 else b.flags }

/-- Time and class of a burst's END entry (Table 7.8). -/
def endTime (d : Dev) (b : Burst) : Nat × Nat :=
  match b.lastEnd with
  | some t => (t * halfPs, ucExact)
  | none => (d.now, ucEvent)

/-- R274: TIME_VALID at the time of a burst's END entry. -/
def endTv (d : Dev) (b : Burst) : Bool := if b.lastEnd.isSome then b.lastTv else d.timeValid

/-- R83, R266: a word with its stop enable set issues while a stop event is pending: nothing more is emitted, and a
MASK_STOP entry names the unit, the vector and, for a stream, the sample index. -/
def maskStop (d : Dev) (e : Nat) (b : Burst) : Dev :=
  match b.stopEvent with
  | none => d
  | some (u, v, i) =>
    setBurst (ledger d 0x07 ucEvent b.site u d.now 0 (v % 2 ^ 48) (i.getD (2 ^ 64 - 1))) e
      { b.issuedOnly with wait := none, micro := none, fin := some (.maskStop (some v)) }

/-- R68: the words of an instruction of an open streamed loop, kept in the pleat cache (DEDUCED, log 22). -/
def keepWords (d : Dev) (b : Burst) (t : Tbl (Option Word64)) (pc n : Nat) : Tbl (Option Word64) :=
  (List.range n).foldl (fun t i => match fetchWord d b (pc + i) with
    | .ok w => t.put none (pc + i) (some w)
    | .error _ => t) t

/-- R220: the refresh group for whose lines the prefetchers look further ahead: the one announced or in refresh. -/
def Dev.lookGroup (d : Dev) : Option Nat :=
  (List.range 4).find? fun g => (d.dram.groups.get {} g).announced.isSome || d.dram.inRefresh.any fun r => r.1 = g

/-- The byte address of a line of a prefetch buffer. -/
def lineAddr (d : Dev) (b : Burst) (x : Bool × Nat) : Nat := if x.1 then d.ringAddr b.site (64 * x.2) else 64 * x.2

/-- The tags of the `n` lines that a burst fetches next in sequence: of its stream as far as the host has written, or of its code. -/
def upcoming (d : Dev) (b : Burst) (n : Nat) : List (Bool × Nat) :=
  let r := d.ring b.site
  if b.inStream then (List.range (min n (r.w / 64 - r.rd / 64))).map fun i => (true, r.rd / 64 + i)
  else
    let first := (b.base + b.codeOff) / 64
    (List.range (min n ((b.codeWords + 7) / 8 - b.pc / 8))).map fun i => (false, first + b.pc / 8 + i)

/-- R213, R220: the lines a prefetch buffer is to hold: the next 512; or, where a refresh is announced or runs, the next 178, which are the
steady lookahead of Table 6.6, and the group's lines beyond them (DESIGN CHOICE, log 21). -/
def wantedLines (d : Dev) (b : Burst) : List (Bool × Nat) :=
  match d.lookGroup with
  | none => upcoming d b 512
  | some g =>
    let l := upcoming d b (178 + 4 * 334)
    (l.take 178 ++ (l.drop 178).filter fun x => groupOf (lineAddr d b x) = g).take 512

/-- A line read into a prefetch buffer. -/
def fetchLine (d : Dev) (b : Burst) (x : Bool × Nat) : Fetched :=
  let a := lineAddr d b x
  { ring := x.1, key := x.2, data := d.dram.line a, poison := d.dram.poisoned a }

/-- The line that a word is read from where neither cache holds it. -/
def directWord (d : Dev) (b : Burst) (pc : Nat) : Option Nat :=
  let held := if b.inStream then (b.pleat.get none pc).isSome || (heldLine b true (pc / 8)).isSome
    else (heldLine b false ((b.base + b.codeOff + 8 * pc) / 64)).isSome
  let a := if b.inStream then d.ringAddr b.site (8 * pc) else b.base + b.codeOff + 8 * pc
  if held then none else some (a / 64 * 64)

/-- The lines read for `n` words from an address on. -/
def directLines (d : Dev) (b : Burst) (pc n : Nat) : List Nat := ((List.range n).filterMap fun i => directWord d b (pc + i)).eraseDups

/-- The vectors that an instruction's payload names. -/
def payCount (h : Word64) : Nat := if hOpc h = 0x01 then hImm h % 65536 + 1 else 1

/-- The lines of the vector table that an instruction with its payload at `pc` reads. -/
def tableLines (d : Dev) (b : Burst) (h : Word64) (pc : Nat) : List Nat :=
  if hForm h ≠ 3 then []
  else (List.range (payCount h)).flatMap fun i => match fetchWord d b (pc + i / 4) with
    | .ok w => linesOf (tableAddr b (bits w (16 * (i % 4) + 15) (16 * (i % 4)))) (8 * fullWords b.n)
    | .error _ => []

/-- F of a ring: the first line from the read pointer on that its engine's buffer does not hold. -/
def frontier (b : Burst) : Nat → Nat → Nat
  | 0, k => k
  | n + 1, k => if (heldLine b true k).isSome then frontier b n (k + 1) else k

/-- R210, R222: what the controller does as lines are read for the device's real-time readers: byte addresses with whether they read poisoned. -/
def readsDone (d : Dev) (ls : List (Nat × Bool)) : Dev :=
  d.each ls fun d l => (rtIssue d l.1).onlyIf l.2 fun d => poisonRead d l.1

/-- R213, R216, R229: an engine's prefetcher holds the lines it is to hold, as far as their pseudo-channels are free; ring lines not yet
executed stay, and F follows. -/
def prefetch (d : Dev) (e : Nat) : Dev :=
  match d.burst e with
  | none => d
  | some b =>
    let rd := (d.ring b.site).rd
    let want := wantedLines d b
    let kept := b.lines.filter fun l => want.contains (l.ring, l.key) || (l.ring && decide (rd / 64 ≤ l.key))
    let fresh := ((want.filter fun x => (heldLine b x.1 x.2).isNone && !d.lineBusy (lineAddr d b x)).take (512 - kept.length)).map
      (fetchLine d b)
    let b' := { b with lines := kept ++ fresh, fetched := b.fetched + fresh.length }
    let d := readsDone (d.modBurst e fun _ => b') (fresh.map fun l => (lineAddr d b (l.ring, l.key), l.poison))
    if b.inStream then d.modRing b.site fun x => { x with f := max x.f (64 * frontier b' 512 (rd / 64)) } else d

/-- Every engine's prefetcher goes on. -/
def prefetchAll (d : Dev) : Dev := d.each (List.range 16) prefetch

/-- The ring's read pointer and the pleat cache after a streamed instruction that lies at `pc` up to `last`; a rewind takes F back and
drops the ring lines of the prefetch buffer (R68, R235) (DEDUCED, log 22). -/
def streamDone (d : Dev) (e : Nat) (b0 b : Burst) (last : Nat) : Dev :=
  let rewound := b0.loops.any fun l => l.stream ∧ longBody l last ∧ b.pc = l.start ∧ b.inStream
  let inLoop := b0.loops.any (·.stream)
  let t := if rewound then {} else if inLoop then keepWords d b0 b0.pleat b0.pc (last - b0.pc) else {}
  let lines := if rewound then b.lines.filter fun l => !l.ring else b.lines
  let t := if b.loops.any (·.stream) then t else {}
  let d := setBurst d e { b with pleat := t, pleatBad := if t.cells = [] then [] else b.pleatBad, lines }
  d.modRing b0.site fun x =>
    if rewound then { x with rd := 8 * b.pc, f := 8 * b.pc } else { x with rd := max x.rd (8 * last) }

/-- Table 2.4: the extension words of an opcode. -/
def extWords (h : Word64) : Nat :=
  match hOpc h with
  | 0x01 => if hFlag h 0 then (hImm h % 65536 + 1 + 7) / 8 else 0
  | 0x0A => 1
  | 0x0B => if hFlags h % 4 = 2 then 0 else 2
  | _ => 0

/-- The address after an instruction: its header, extension words and payload. -/
def instrEnd (d : Dev) (b : Burst) (h : Word64) : Nat :=
  let pc := b.pc + 1
  let ext := extWords h
  if hForm h = 0 then pc + ext
  else match readRun d b (hForm h) (payCount h) 0 (pc + ext) b.image [] with
    | .ok r => r.2
    | .error _ => pc + ext

/-- R210, R222: an instruction's reads of DRAM beside the buffers, as the controller sees them. -/
def instrRead (d : Dev) (b : Burst) (h : Word64) : Dev :=
  readsDone d ((directLines d b b.pc (instrEnd d b h - b.pc) ++ tableLines d b h (b.pc + 1 + extWords h)).map fun a => (a, d.dram.poisoned a))

/-- R222: the line from which poisoned data has reached the engine at an instruction, where no buffer holds it; one in a buffer was reported when
it was fetched. -/
def poisonLine (d : Dev) (b : Burst) : Option Nat :=
  match b.micro with
  | some m => (directLines d b m.pay 16).find? d.dram.poisoned
  | none => match fetchWord d b b.pc with
    | .ok h =>
      let n := match hForm h with
        | 0 => 0
        | 1 => payCount h * fullWords b.n
        | 2 => payCount h * ((b.n + 63) / 64 + fullWords b.n)
        | _ => (payCount h + 3) / 4
      (directLines d b b.pc (1 + extWords h + n) ++ tableLines d b h (b.pc + 1 + extWords h)).find? d.dram.poisoned
    | .error _ => (directWord d b b.pc).filter d.dram.poisoned

/-- R77: an instruction whose first word would emit and finds no room in the quad FIFO: it stalls. -/
def stalls (d : Dev) (b b' : Burst) : Bool := decide (b.room (d.yokeFenced b.site) < min 4 b'.unissued)

/-- R46: at a fetch stall the vectors packed so far leave as a quad. -/
def fetchStall (d : Dev) (e : Nat) (b : Burst) : Dev := d.modBurst e fun _ => b.closePart (d.yokeFenced b.site)

/-- What an instruction's routine gives is stored: its fault, its wait, or the burst after it. -/
def finishInstr (d : Dev) (e : Nat) (b : Burst) (h : Word64) (r : Except Stop Burst) : Dev :=
  match r with
  | .error .wait => d
  | .error .busy => fetchStall d e b
  | .error .dry => fetchStall d e b
  | .error .poison => d
  | .error (.code c) => programFault d e b c b.pc b.inStream
  | .ok b' =>
    let b' := { b' with redirected := false, op := hOpc h, payAt := b.pc + 1 + extWords h }
    if b.stopEvent.isSome ∧ (b'.next > b.next ∨ (b'.wait.isSome ∧ hOpc h = 0x0A)) then maskStop d e b
    else if stalls d b b' then d
    else
      let d := (instrRead d b h).set (.ENG_STAT e) 27 27 (runsLining d e (hOpc h)).toNat
      prefetch (if b.inStream ∧ b'.micro = none then streamDone d e b b' (instrEnd d b h) else setBurst d e b') e

/-- The routine of an Asell opcode other than UOP. -/
def routine (op : Nat) : Dev → Burst → Word64 → Nat → Except Stop Burst :=
  match op with
  | 0x01 => rVec | 0x02 => rRpt | 0x04 => rLoop | 0x05 => rEndl | 0x06 => rCall | 0x07 => rRet | 0x08 => rJmp
  | 0x09 => rJif | 0x0A => rMatch | 0x0B => rWaitt | 0x0C => rTset | 0x0D => rCapon | 0x0E => rCapoff
  | 0x0F => rTrig | 0x10 => rWave | 0x11 => rMark | 0x12 => rStream | _ => rHalt

/-- R44, R85: whether an opcode is undefined or its routine absent in both stores. -/
def opcodeAbsent (d : Dev) (e op : Nat) : Bool := (opRow op).isNone || !d.present e op

end Sys2Proof.Machine
end

