-- ==== Sys2Proof/Machine/Acquire.lean ====
section
/-! DEFINITION. Record lines, capture buffers and acquisition units (07_capture_and_acquisition.md R256 to R271). -/
namespace Sys2Proof.Machine

/-! ### Record lines (R257) -/

/-- Records of a size that fit a line after its header word. -/
def perLine (size : Nat) : Nat := 56 / size

/-- The 64 bytes of a line (Table 7.1). -/
def OpenLine.bytes (l : OpenLine) : List Byte :=
  let body := toBytes 8 (pack 64 [(60, 4, l.type), (54, 6, l.count), (49, 5, l.log2f), (0, 48, l.index)]).toNat ++ l.data
  body ++ List.replicate (64 - body.length) 0

/-- A line with a first record. -/
def newLine (type log2f idx step : Nat) (rec : List Byte) : OpenLine :=
  { type, log2f, index := idx, count := 1, size := rec.length, nextIdx := idx + step, data := rec }

/-- A line with a further record. -/
def OpenLine.add (l : OpenLine) (idx step : Nat) (rec : List Byte) : OpenLine :=
  { l with count := l.count + 1, nextIdx := idx + step, data := l.data ++ rec }

/-- Whether a record continues a line: same type, size and spacing, consecutive, and room is left. -/
def OpenLine.takes (l : OpenLine) (type log2f idx size : Nat) : Bool :=
  l.type = type && l.log2f = log2f && l.size = size && (l.nextIdx = idx || type = 2) && l.count < perLine size

/-! ### Draining (R258, R268) -/

/-- R258, R268: the lines a grant of 0.1 GB/s units lets drain between two times. -/
def paceLines (grant since now : Nat) : Nat := (now - since) * grant / (640 * nano1)

/-- R258, R268: the pace is kept over any 1 µs: what was not drained before that is not made up for. -/
def paceFrom (since now : Nat) : Nat := max since (now - micro1)

/-- Bytes of a region register: SIZE + 1 bolts. -/
def regionBytes (w : Word) : Nat := (bits w 30 16 + 1) * 0x200000
def regionBase (w : Word) : Nat := bits w 14 0 * 0x200000

/-- R206, R256: whether every bolt of a range is allocated to a site. -/
def Dev.boltsOf (d : Dev) (s first count : Nat) : Bool :=
  (List.range count).all fun i => (d.dram.bolt (first + i)).alloc && (d.dram.bolt (first + i)).site = s && first + i < 24576

/-- A line is written to DRAM, poisoned where the buffer's code could not correct it (15_dependability.md R477). -/
def writeBufLine (d : Dev) (l : BufLine) : Dev :=
  let d := devWrite d clsRealTime l.addr l.data
  if l.poison then d.modDram fun m => { m with
    poison := m.poison.filter (· < l.addr / 64) ++ [l.addr / 64] ++ m.poison.filter (l.addr / 64 < ·) } else d

/-- R211, R226: a line of a buffer finds no line in the write queues, or the stack takes none: the buffer's drain stalls. -/
def lineStalls (d : Dev) (l : BufLine) : Bool := !d.writeReaches l.addr || !writeFits d clsRealTime l.addr l.data

/-- Lines of a buffer written to DRAM in order, as far as none stalls, and how many; a line whose bolt has left the site is not written. -/
def writeBuf (d : Dev) (s : Nat) : List BufLine → Nat × Dev
  | [] => (0, d)
  | l :: ls =>
    let mine := d.boltsOf s (boltOf l.addr) 1
    if mine && lineStalls d l then (0, d)
    else
      let r := writeBuf (if mine then writeBufLine d l else d) s ls
      (r.1 + 1, r.2)

/-- Lines that have left a site's capture buffer: its capture's write position, its stamp region's (09_time_measurement.md
R334), and the records of each stamp input (R323). -/
def landed (d : Dev) (s : Nat) (ls : List BufLine) : Dev :=
  let caps := (ls.filter fun l => l.counted && l.stamps = []).length
  let stmp := (ls.filter fun l => l.counted && l.stamps ≠ []).length
  let d := d.modSite s fun x => { x with
    cap := { x.cap with wpos := x.cap.wpos + 64 * caps }, stamps := { x.stamps with wpos := x.stamps.wpos + 64 * stmp } }
  d.each ((ls.flatMap (·.stamps)).filter (· < 136)) fun d i => d.modStampIn i fun x => { x with recorded := x.recorded + 1 }

/-- Where a drain's pace goes on after `n` of the `m` lines that it allowed. -/
def paceAfter (grant since now n m : Nat) : Nat := if n = m ∧ grant > 0 then since + n * (640 * nano1) / grant else now

/-- `k` lines at most of a site's capture buffer drain, at the pace of its grant since a time. -/
def drainCapSince (d : Dev) (s since k : Nat) : Dev :=
  let x := (d.site s).cap
  let g := d.get (.ACQ_CAPGRANT s) 9 0
  let m := paceLines g since d.now
  let r := writeBuf d s (x.buf.take (min k m))
  (landed r.2 s (x.buf.take r.1)).modSite s fun y => { y with cap := { y.cap with
    buf := x.buf.drop r.1, drainT := paceAfter g since d.now r.1 m } }

/-- `k` lines at most of a unit's record buffer drain, at the pace of its grant since a time. -/
def drainAcqSince (d : Dev) (u since k : Nat) : Dev :=
  let x := d.acq u
  let g := d.get (.ACQ_GRANT u) 9 0
  let m := paceLines g since d.now
  let r := writeBuf d (d.acqSite u) (x.buf.take (min k m))
  r.2.modAcq u fun y => { y with
    buf := x.buf.drop r.1, rwpos := x.rwpos + 64 * ((x.buf.take r.1).filter (·.counted)).length, drainT := paceAfter g since d.now r.1 m }

/-- `k` lines of a buffer drain, within the grant over the last 1 µs (DESIGN CHOICE, log 12). -/
def drainCap (d : Dev) (s k : Nat) : Dev := drainCapSince d s (paceFrom (d.site s).cap.drainT d.now) k
def drainAcq (d : Dev) (u k : Nat) : Dev := drainAcqSince d u (paceFrom (d.acq u).drainT d.now) k

/-- The pace of a buffer goes on from now. -/
def paceCap (d : Dev) (s : Nat) : Dev := d.modSite s fun x => { x with cap := { x.cap with drainT := paceFrom x.cap.drainT d.now } }
def paceAcq (d : Dev) (u : Nat) : Dev := d.modAcq u fun a => { a with drainT := paceFrom a.drainT d.now }

/-- Drained amounts that come with a command: units 0 to 15, and the capture of site s as 16 + s (DESIGN CHOICE, log 12). -/
def drains (d : Dev) (l : List (Nat × Nat)) : Dev :=
  d.each l fun d p => if p.1 < 16 then drainAcq d p.1 p.2 else if p.1 < 32 then drainCap d (p.1 - 16) p.2 else d

/-! ### Stamp lines (09_time_measurement.md R321, R322) -/

/-- R322: a site's open line of stamp records enters the capture buffer as it stands, its unused records 0. -/
def stampClose (d : Dev) (s : Nat) : Dev :=
  let r := (d.site s).stamps
  if r.inputs = [] then d
  else d.modSite s fun x => { x with
    stamps := { r with line := [], inputs := [], pos := r.pos + 64 }
    cap := { x.cap with
      drainT := if x.cap.buf = [] then d.now else x.cap.drainT
      buf := x.cap.buf ++ [{ addr := regionBase r.base + r.pos, data := r.line ++ List.replicate (64 - r.line.length) 0
                             stamps := r.inputs }] } }

/-- R322: the write position of a site's stamp region returns to its start. -/
def stampHome (d : Dev) (s : Nat) : Dev :=
  (stampClose d s).modSite s fun x => { x with
    stamps := { x.stamps with pos := 0, wpos := 0 }
    cap := { x.cap with buf := x.cap.buf.map fun l => { l with counted := l.counted && decide (l.stamps = []) } } }

/-! ### Capture (R256 to R258) -/

/-- A closed line enters a site's capture buffer. -/
def capClose (d : Dev) (s : Nat) (l : OpenLine) : Dev :=
  d.modSite s fun x => { x with cap := { x.cap with
    line := none, pos := x.cap.pos + 64, drainT := if x.cap.buf = [] then d.now else x.cap.drainT
    buf := x.cap.buf ++ [{ addr := regionBase x.cap.region + x.cap.pos, data := l.bytes }] } }

/-- R258: a captured vector is lost: counted once, flagged, and entered in the ledger at the first loss of a burst. -/
def capLose (d : Dev) (s vec bit : Nat) : Dev :=
  let first := !(d.site s).cap.lostNow
  let d := d.modSite s fun x => { x with cap := { x.cap with lostv := x.cap.lostv + 1, lostNow := true } }
  (d.raise (.ACQ_CAPSTAT s) bit).onlyIf first fun d => ledger d 0x11 ucEvent s 0 d.now 0 (vec % 2 ^ 48) 0

/-- A capture record starts a line, or its vector is lost to the region end or to the buffer, in which an open line has its place (R258). -/
def capStart (d : Dev) (s type vec : Nat) (rec : List Byte) : Dev :=
  let x := (d.site s).cap
  if x.pos + 64 > regionBytes x.region then capLose d s vec 30
  else if x.buf.length + ((d.site s).stamps.inputs ≠ [] : Bool).toNat ≥ 2048 then capLose d s vec 31
  else
    let l := newLine type 0 vec 1 rec
    if perLine rec.length ≤ 1 then capClose d s l
    else d.modSite s fun y => { y with cap := { y.cap with line := some l } }

/-- A capture record of a vector (R257). -/
def capRecord (d : Dev) (s type vec : Nat) (rec : List Byte) : Dev :=
  match (d.site s).cap.line with
  | none => capStart d s type vec rec
  | some l =>
    if l.takes type 0 vec rec.length then
      let l := l.add vec 1 rec
      if l.count = perLine rec.length then capClose d s l
      else d.modSite s fun y => { y with cap := { y.cap with line := some l } }
    else capStart (capClose d s l) s type vec rec

/-- The raw states of slots as Table 7.2 packs them: CH of slot i at bit 2i + 1, CL at bit 2i. -/
def rawBits (n ch cl : Nat) : Nat :=
  ((List.range n).map fun i => (ch.testBit i).toNat * 2 ^ (2 * i + 1) + (cl.testBit i).toNat * 2 ^ (2 * i)).sum

/-- R256 to R258: a numbered vector under the capture state, with its failing slots and raw states. -/
def captureVector (d : Dev) (s n mode vec fails ch cl : Nat) : Dev :=
  if !d.flag (.ACQ_CAPCFG s) 31 then d
  else
    let d := d.modSite s fun x => { x with cap := { x.cap with vec := x.cap.vec + 1 } }
    if mode = 1 then
      if fails = 0 then d else capRecord d s 2 vec (toBytes 8 vec ++ toBytes ((n + 7) / 8) fails)
    else if mode = 2 then capRecord d s 3 vec (toBytes ((n + 3) / 4) (rawBits n ch cl))
    else capRecord d s 1 vec (toBytes ((n + 7) / 8) fails)

/-- R257: at the end of a burst the site's open capture line is closed. -/
def capEnd (d : Dev) (s : Nat) : Dev :=
  match (d.site s).cap.line with
  | none => d
  | some l => capClose d s l

/-- R256, R283: at a dispatch, without KEEP, the write position returns to the region's start and the values clear. -/
def capDispatch (d : Dev) (s : Nat) : Dev :=
  d.modSite s fun x =>
    if d.flag (.ACQ_CAPCFG s) 30 then { x with cap := { x.cap with lostNow := false } }
    else { x with cap := { x.cap with
      pos := 0, wpos := 0, vec := 0, lostv := 0, lostNow := false
      buf := x.cap.buf.map fun l => { l with counted := l.counted && decide (l.stamps ≠ []) } } }

/-! ### Stops by mask (R83, R266) -/

/-- R83: a pending stop event acts at once where words with their stop enable set are still to issue. -/
def stopNow (d : Dev) (e : Nat) : Dev :=
  match d.burst e with
  | none => d
  | some b => if b.unissued > 0 ∧ b.heldBack ∧ b.stopEvent.isSome ∧ b.fin.isNone then maskStop d e b else d

/-! ### Units -/

/-- ACQ_STAT.STATE (Table 7.10). -/
def Dev.acqState (d : Dev) (u : Nat) : Nat := d.get (.ACQ_STAT u) 31 29
/-- A unit is armed while its offered items have not stopped. -/
def Dev.acqArmed (d : Dev) (u : Nat) : Bool := 1 ≤ d.acqState u && d.acqState u ≤ 3

/-- R83, R266: a violation with STOP set becomes the site's pending stop event. -/
def acqStopEvent (d : Dev) (e u vec : Nat) (i : Option Nat) : Dev :=
  stopNow (d.modBurst e fun b => if b.stopEvent.isSome then b else { b with stopEvent := some (u, vec, i) }) e

/-- R265: the vector an event is attributed to, with the engine of the burst: the item's own vector, or for a stream the
numbered vector released last. -/
def eventVector (d : Dev) (u : Nat) (it : Item) : Option (Nat × Nat) :=
  match d.siteEngine (d.acqSite u) with
  | none => none
  | some e =>
    if !(d.acq u).cfg.stream then some (e, it.idx)
    else match d.burst e with
      | some b => if b.released > 0 then some (e, b.released - 1) else none
      | none => none

/-- R265: an event drives ACQ_EVENT where EVSEL chooses its kind (0 triggers, 1 violations, 2 both; 3 is reserved: a free choice). -/
def evSelected (d : Dev) (u : Nat) (violation : Bool) : Bool :=
  let v := bits (d.acq u).cfg.maskctl 29 28
  if v = 3 then Config.freeBool d.freeIdx else v = 2 || (v = 1 && violation) || (v = 0 && !violation)

/-- The sample index of a stream item, or all ones (Table 7.8). -/
def sampleWord (d : Dev) (u : Nat) (it : Item) : Nat := if (d.acq u).cfg.stream then it.idx else 2 ^ 64 - 1

/-- R57: whether a vector is a repetition of a MATCH. -/
def Burst.isRep (b : Burst) (v : Nat) : Bool :=
  (match b.wait with
    | some (.matching first _ _ _ _) => decide (first ≤ v)
    | _ => false) || b.reps.any fun r => r.1 ≤ v && v < r.1 + r.2

/-- R58: an event attributed to a repetition whose results have returned already matches, where the MATCH tests for it. -/
def matchOnEvent (b : Burst) (u v : Nat) : Burst :=
  match b.wait with
  | some (.matching first _ h _ _) =>
    if first ≤ v ∧ v < b.returned ∧ hCond h = 4 ∧ hCarg h = u ∧ !hNeg h then { b with matchHit := some (b.matchHit.getD v) } else b
  | _ => b

/-- R57, R58, R265: an event drives the condition ACQ_EVENT: of a JIF, or for a repetition of its MATCH. -/
def acqEvent (d : Dev) (e u vec : Nat) (violation : Bool) : Dev :=
  if evSelected d u violation then
    d.modBurst e fun b =>
      if b.isRep vec then matchOnEvent { b with repEvents := b.repEvents ++ [(u, vec)] } u vec
      else { b with events := b.events ++ [(u, vec)] }
  else d

/-- R265, R266: a mask violation at an item. -/
def acqViolation (d : Dev) (u : Nat) (it : Item) : Dev :=
  let d := (d.modAcq u fun a => { a with violations := a.violations + 1, firstViol := some (a.firstViol.getD it.idx) }).raise
    (.ACQ_STAT u) 25
  match eventVector d u it with
  | none => d
  | some (e, v) =>
    let d := acqEvent (d.modBurst e fun b => if b.isRep v then b else { b with viols := b.viols ++ [v] }) e u v true
    let d := if (d.acq u).violated then d
      else (ledger d 0x08 ucEvent (d.acqSite u) u d.now 0 (v % 2 ^ 48) (sampleWord d u it)).modAcq u fun a => { a with violated := true }
    d.onlyIf (bit (d.acq u).cfg.maskctl 30) fun d =>
      acqStopEvent d e u v (if (d.acq u).cfg.stream then some it.idx else none)

/-- A trigger raises an event (R265). -/
def acqTrigger (d : Dev) (u : Nat) (it : Item) : Dev :=
  let d := d.modAcq u fun a => { a with trigIdx := some it.idx, force := false }
  match eventVector d u it with
  | none => d
  | some (e, v) => acqEvent d e u v false

/-! ### Lines of a unit -/

/-- A unit's open line: 0 raw, 1 envelope, 2 bitmap. -/
def Acq.line (a : Acq) (k : Nat) : Option OpenLine := if k = 0 then a.raw else if k = 1 then a.envLine else a.bmLine

def Acq.setLine (a : Acq) (k : Nat) (l : Option OpenLine) : Acq :=
  if k = 0 then { a with raw := l } else if k = 1 then { a with envLine := l } else { a with bmLine := l }

/-- Open lines of a unit. -/
def Acq.opens (a : Acq) : Nat := a.raw.isSome.toNat + a.envLine.isSome.toNat + a.bmLine.isSome.toNat

/-- R268: the closed lines that the items of the pre-trigger part take in the record buffer (DEDUCED, log 46). -/
def Acq.preLines (a : Acq) : Nat := if bit a.cfg.dec 31 then a.pre.length / perLine (if a.cfg.stream then 2 else 8) else 0

/-- R268: the occupancy of the record buffer, in closed lines. -/
def Acq.occupancy (a : Acq) : Nat := a.buf.length + a.preLines

/-- A line closes into the record buffer at a time; it has its place in the region, and an empty buffer starts to drain. -/
def Acq.push (a : Acq) (now k : Nat) (l : OpenLine) : Acq :=
  { a.setLine k none with
    pos := a.pos + 64, drainT := if a.buf = [] then now else a.drainT
    buf := a.buf ++ [{ addr := regionBase a.cfg.rbase + a.pos, data := l.bytes }] }

/-- R268: the step rule, applied every time a line closes into the buffer. -/
def stepRule (d : Dev) (u : Nat) : Dev :=
  let a := d.acq u
  let fl := min a.floor a.occupancy
  if 7680 ≤ a.occupancy ∧ fl + 128 ≤ a.occupancy ∧ a.exp < 16 then
    let a := match a.raw with
      | some l => a.push d.now 0 l
      | none => a
    let d := d.modAcq u fun _ => { a with exp := a.exp + 1, floor := a.occupancy }
    let d := ledger (d.raise (.ACQ_STAT u) 28) 0x10 ucEvent (d.acqSite u) u d.now (a.exp + 1) (a.nextKept.getD 0) 0
    d.siteFlag (d.acqSite u) 5
  else d.modAcq u fun a => { a with floor := fl }

/-- A line of a unit closes. -/
def acqClose (d : Dev) (u k : Nat) (l : OpenLine) : Dev := stepRule (d.modAcq u fun a => a.push d.now k l) u

/-- A record starts a line, unless the region or the buffer has no line left; whether it was placed. -/
def acqStart (d : Dev) (u k type log2f idx step : Nat) (rec : List Byte) : Bool × Dev :=
  let a := d.acq u
  if a.pos + 64 * (a.opens + 1) > regionBytes a.cfg.rbase then (false, d.modAcq u fun a => { a with full := true })
  else if a.occupancy + a.opens ≥ 10240 then (false, d.raise (.ACQ_STAT u) 27)
  else (true, d.modAcq u fun a => a.setLine k (some (newLine type log2f idx step rec)))

/-- A record of a unit (R257); whether it was placed (DEDUCED, log 47). -/
def acqRecord (d : Dev) (u k type log2f idx step : Nat) (rec : List Byte) : Bool × Dev :=
  match (d.acq u).line k with
  | none => acqStart d u k type log2f idx step rec
  | some l =>
    if l.takes type log2f idx rec.length then
      let l := l.add idx step rec
      if l.count = perLine rec.length then (true, acqClose d u k l)
      else (true, d.modAcq u fun a => a.setLine k (some l))
    else acqStart (acqClose d u k l) u k type log2f idx step rec

/-- R269: a reduction record, counted when it finds no room. -/
def redRecord (d : Dev) (u k type idx : Nat) (rec : List Byte) : Dev :=
  let r := acqRecord d u k type 0 idx 1 rec
  if r.1 then r.2 else r.2.modAcq u fun a => { a with redlost := a.redlost + 1 }

/-- The bytes of an item's record (Table 7.2, types 0x4 and 0x5). -/
def itemBytes (a : Acq) (it : Item) : List Byte :=
  if a.cfg.stream then toBytes 2 (unsigned 16 it.smp) else toBytes 4 it.h ++ toBytes 4 it.f

/-- R268, R269: a captured item: recorded at the spacing, decimated or lost. -/
def acqCapture (d : Dev) (u : Nat) (it : Item) : Dev :=
  let d := d.modAcq u fun a => { a with captured := a.captured + 1, nextKept := some (a.nextKept.getD it.idx) }
  let a := d.acq u
  if a.nextKept ≠ some it.idx then d.modAcq u fun a => { a with decimated := a.decimated + 1 }
  else
    let d := d.modAcq u fun a => { a with nextKept := some (it.idx + 2 ^ a.exp) }
    if bit a.cfg.dec 31 then
      let r := acqRecord d u 0 (if a.cfg.stream then 5 else 4) a.exp it.idx (2 ^ a.exp) (itemBytes a it)
      if r.1 then r.2.modAcq u fun a => { a with recorded := a.recorded + 1 }
      else r.2.modAcq u fun a => { a with lost := a.lost + 1 }
    else d.modAcq u fun a => { a with decimated := a.decimated + 1 }

/-! ### Reductions (R267) -/

/-- The envelope record of a block. -/
def envRecord (d : Dev) (u : Nat) (x : Nat × Int × Int) : Dev :=
  redRecord d u 1 6 x.1 (toBytes 2 (unsigned 16 x.2.1) ++ toBytes 2 (unsigned 16 x.2.2))

/-- The fail-bitmap record of a block with fails. -/
def bmRecord (d : Dev) (u : Nat) (x : Nat × Nat) : Dev :=
  if x.2 = 0 then d else redRecord d u 2 7 x.1 (toBytes 4 x.1 ++ toBytes 4 x.2)

/-- R267: the envelope over a sample. -/
def envItem (d : Dev) (u : Nat) (it : Item) : Dev :=
  let a := d.acq u
  if !bit a.cfg.dec 30 then d
  else
    let n := bits a.cfg.dec 20 16
    let x := match a.envBlk with
      | some x => (x.1, min x.2.1 it.smp, max x.2.2 it.smp)
      | none => (it.idx / 2 ^ n, it.smp, it.smp)
    if (it.idx + 1) % 2 ^ n = 0 then envRecord (d.modAcq u fun a => { a with envBlk := none }) u x
    else d.modAcq u fun a => { a with envBlk := some x }

/-- R267: the compressed fail bitmap over a vector. -/
def bmItem (d : Dev) (u : Nat) (it : Item) : Dev :=
  let a := d.acq u
  if !bit a.cfg.dec 29 then d
  else
    let n := bits a.cfg.dec 12 8
    let x := match a.bmBlk with
      | some x => (x.1, x.2 ||| it.f)
      | none => (it.idx / 2 ^ n, it.f)
    if (it.idx + 1) % 2 ^ n = 0 then bmRecord (d.modAcq u fun a => { a with bmBlk := none }) u x
    else d.modAcq u fun a => { a with bmBlk := some x }

/-- R267: the reductions of an offered item. -/
def reduce (d : Dev) (u : Nat) (it : Item) : Dev :=
  let d := d.modAcq u fun a =>
    if a.cfg.stream then { a with
      offered := a.offered + 1, sum := a.sum + it.smp, sumsq := a.sumsq + (it.smp * it.smp).toNat
      least := some (match a.least with | some x => min x it.smp | none => it.smp)
      greatest := some (match a.greatest with | some x => max x it.smp | none => it.smp) }
    else { a with
      offered := a.offered + 1
      firstFail := if it.f ≠ 0 then some (a.firstFail.getD it.idx) else a.firstFail
      failCnt := (members 32 it.f).foldl (fun t k => t.put 0 k (t.get 0 k + 1)) a.failCnt }
  if (d.acq u).cfg.stream then envItem d u it else bmItem d u it

/-! ### The end of the offered items (R262, R267, R270) -/

/-- The integer square root by its bits from `k - 1` down. -/
def isqrt (n : Nat) : Nat → Nat → Nat
  | 0, r => r
  | k + 1, r => isqrt n k (if (r + 2 ^ k) * (r + 2 ^ k) ≤ n then r + 2 ^ k else r)

/-- ACQ_MEAN: SUM / OFFERED in Q16.16, rounded to nearest, a tie upwards (DEDUCED, log 52). -/
def meanOf (sum : Int) (n : Nat) : Int := (2 * 65536 * sum + n) / (2 * n : Nat)

/-- ACQ_RMS: the square root of SUMSQ / OFFERED in Q16.16, rounded to nearest. -/
def rmsOf (sumsq n : Nat) : Nat := (isqrt (2 ^ 34 * sumsq / n) 40 0 + 1) / 2

/-- R267, R280: the results of a stream. Of no sample they are free values. -/
def acqResults (d : Dev) (u : Nat) : Dev :=
  let a := d.acq u
  if !a.cfg.stream then d
  else match a.least, a.greatest with
    | some lo, some hi =>
      ((d.wr (.ACQ_MINMAX u) (BitVec.ofNat 32 (unsigned 16 hi * 65536 + unsigned 16 lo))).wr (.ACQ_MEAN u)
        (BitVec.ofNat 32 (unsigned 32 (meanOf a.sum a.offered)))).wr (.ACQ_RMS u) (BitVec.ofNat 32 (rmsOf a.sumsq a.offered))
    | _, _ =>
      let x := d.free 32
      let y := x.2.free 32
      let z := y.2.free 32
      ((z.2.wr (.ACQ_MINMAX u) (BitVec.ofNat 32 x.1)).wr (.ACQ_MEAN u) (BitVec.ofNat 32 y.1)).wr (.ACQ_RMS u) (BitVec.ofNat 32 z.1)

/-- An open line of a unit closed, if there is one (DEDUCED, log 48). -/
def acqCloseOpen (d : Dev) (u k : Nat) : Dev :=
  match (d.acq u).line k with
  | some l => acqClose d u k l
  | none => d

/-- R262, R267, R270: the offered items stop: the last blocks and lines close, results are written, and the buffer drains. -/
def acqStop (d : Dev) (u : Nat) : Dev :=
  if !d.acqArmed u then d
  else
    let d := match (d.acq u).envBlk with
      | some x => envRecord (d.modAcq u fun a => { a with envBlk := none }) u x
      | none => d
    let d := match (d.acq u).bmBlk with
      | some x => bmRecord (d.modAcq u fun a => { a with bmBlk := none }) u x
      | none => d
    let d := acqResults (acqCloseOpen (acqCloseOpen (acqCloseOpen d u 1) u 2) u 0) u
    (d.modAcq u fun a => { a with loading := false, pre := [] }).set (.ACQ_STAT u) 31 29 4

/-- R262: the record region is full: the offered items stop (DEDUCED, log 49). -/
def acqFull (d : Dev) (u : Nat) : Dev :=
  let a := d.acq u
  if a.full ∨ a.pos ≥ regionBytes a.cfg.rbase then acqStop (d.raise (.ACQ_STAT u) 26) u else d

/-! ### Triggers (R263, Table 7.4) -/

/-- A signed 16-bit field. -/
def s16 (x : Nat) : Int := signed 16 x

/-- R255: whether an item's time lies in the gate. -/
def inGate (a : Acq) (it : Item) : Bool := a.cfg.gopen ≤ it.time && it.time < a.cfg.gclose

/-- Rising, falling, and the choice of DIR: 0, 1 or either; 3 is reserved, a free choice (DEDUCED, log 53). -/
def dirHolds (d : Dev) (a : Acq) (up down : Bool) : Bool :=
  match bits a.cfg.trig 27 26 with
  | 0 => up
  | 1 => down
  | 2 => up || down
  | _ => Config.freeBool d.freeIdx

/-- Whether a sample lies in the window [B, A]. -/
def inWindow (a : Acq) (x : Int) : Bool := s16 (bits a.cfg.tlevel 15 0) ≤ x && x ≤ s16 (bits a.cfg.tlevel 31 16)

/-- Table 7.4: whether the trigger kind holds at an item, given what was known before it. -/
def kindHolds (d : Dev) (a : Acq) (it : Item) : Bool :=
  let av := bits a.cfg.tlevel 31 16
  let dist := if bits a.cfg.trig 19 12 = 0 then 1 else bits a.cfg.trig 19 12
  match bits a.cfg.trig 31 28 with
  | 0 => true
  | 1 => ((it.h ^^^ a.cfg.pword) &&& a.cfg.pcare) = 0
  | 2 => (it.f &&& a.cfg.pcare) ≠ 0
  | 3 => match a.lastH with
    | some p =>
      let k := bits a.cfg.trig 24 20
      dirHolds d a (!p.testBit k && it.h.testBit k) (p.testBit k && !it.h.testBit k)
    | none => false
  | 4 => dirHolds d a (a.level = -1 && s16 av ≤ it.smp) (a.level = 1 && it.smp ≤ s16 av)
  | 5 => match a.hist[dist - 1]? with
    | some p => dirHolds d a ((av : Int) ≤ it.smp - p) ((av : Int) ≤ p - it.smp)
    | none => false
  | 6 => match a.hist[0]? with
    | some p => dirHolds d a (inWindow a it.smp && !inWindow a p) (!inWindow a it.smp && inWindow a p)
    | none => false
  | 7 => inGate a it
  | _ => a.force

/-- The state of a LEVEL trigger after a sample: low is left at a sample of A or more, high at one of A or less (DEDUCED, log 55). -/
def levelAfter (a : Acq) (x : Int) : Int :=
  let av := s16 (bits a.cfg.tlevel 31 16)
  let bv : Int := bits a.cfg.tlevel 15 0
  if x < av - bv then -1 else if av + bv < x then 1
  else if a.level = -1 ∧ av ≤ x then 0 else if a.level = 1 ∧ x ≤ av then 0 else a.level

/-- R263: whether the trigger item is this one; the gate applies when GATED is 1. -/
def triggers (d : Dev) (a : Acq) (it : Item) : Bool :=
  kindHolds d a it && (bits a.cfg.trig 31 28 = 7 || !bit a.cfg.trig 25 || inGate a it)

/-- What an offered item leaves for the triggers of later items; a FORCE waits while the pre-trigger part fills (DEDUCED, log 46). -/
def remember (filling : Bool) (a : Acq) (it : Item) : Acq :=
  { a with
    hist := (it.smp :: a.hist).take 255, lastH := some it.h, level := levelAfter a it.smp
    force := a.force && filling }

/-! ### Mask tests (R264) -/

/-- Whether an offered item violates the mask. -/
def violates (a : Acq) (inSpan : Bool) (it : Item) : Bool :=
  bit a.cfg.maskctl 31 && (
    if !a.cfg.stream then ((it.h ^^^ a.cfg.expect) &&& a.cfg.ecare) ≠ 0
    else match a.trigIdx with
      | some t => inSpan && (match a.env[it.idx - t]? with
        | some w => it.smp < s16 (w % 65536) || s16 (w / 65536 % 65536) < it.smp
        | none => false)
      | none => false)

/-! ### Offering an item (R262, R263) -/

/-- The part of a record that a unit starts with: filling, or awaiting the trigger when PRE is 0. -/
def startPart (a : Acq) : Nat := if a.cfg.pre = 0 then 2 else 1

/-- R263: a span ends: the unit rearms, or its offered items stop. -/
def spanEnd (d : Dev) (u : Nat) : Dev :=
  let a := d.acq u
  if a.rearm > 0 then
    (d.modAcq u fun a => { a with
      rearm := if a.rearm = 255 then 255 else a.rearm - 1, pre := [], preCount := 0, nextKept := none }).set
      (.ACQ_STAT u) 31 29 (startPart a)
  else acqStop d u

/-- R263: the trigger item: the PRE items before it and it are captured, and POST items follow. -/
def spanStart (d : Dev) (u : Nat) (it : Item) : Dev :=
  let d := acqTrigger d u it
  let ps := (d.acq u).pre.reverse
  let d := (d.modAcq u fun a => { a with pre := [], postLeft := a.cfg.post, nextKept := none }).set (.ACQ_STAT u) 31 29 3
  d.each (ps ++ [it]) fun d i => acqCapture d u i

/-- The record part of an offered item: whether it lay in a span, and the device after it. -/
def spanItem (d : Dev) (u : Nat) (it : Item) : Bool × Dev :=
  let a := d.acq u
  match d.acqState u with
  | 3 => (true, acqCapture (d.modAcq u fun a => { a with postLeft := a.postLeft - 1 }) u it)
  | 2 =>
    if triggers d a it then (true, spanStart d u it)
    else (false, d.modAcq u fun a => { a with pre := (it :: a.pre).take a.cfg.pre })
  | _ =>
    let d := d.modAcq u fun a => { a with pre := (it :: a.pre).take a.cfg.pre, preCount := a.preCount + 1 }
    (false, if a.preCount + 1 ≥ a.cfg.pre then d.set (.ACQ_STAT u) 31 29 2 else d)

/-- R262 to R269: an item offered to an armed unit. Reductions run first, then the trigger and the record, then the mask. -/
def offer (d : Dev) (u : Nat) (it : Item) : Dev :=
  if !d.acqArmed u ∨ (d.acq u).loading then d
  else
    let filling := d.acqState u = 1
    let d := reduce d u it
    let r := spanItem d u it
    let d := r.2.onlyIf (violates (r.2.acq u) r.1 it) fun d => acqViolation d u it
    let d : Dev := { d.modAcq u (remember filling · it) with freeIdx := d.freeIdx + 1 }
    let d := if d.acqState u = 3 ∧ (d.acq u).postLeft = 0 then spanEnd d u else d
    acqFull d u

/-! ### Arming (R261) -/

/-- The slots an ACQ_GRP set selects, in ascending order. -/
def Dev.group (d : Dev) (u : Nat) : List Nat :=
  (List.range 4).flatMap fun i => (members 32 (d.rd (.ACQ_GRP u i)).toNat).map (32 * i + ·)

/-- Table 7.4: whether a trigger kind is allowed for an attachment. -/
def kindAllowed (stream : Bool) (k : Nat) : Bool :=
  k = 0 || k = 7 || k = 8 || (!stream && (k = 1 || k = 2 || k = 3)) || (stream && (k = 4 || k = 5 || k = 6))

/-- The settings read at arming. -/
def Dev.acqCfg (d : Dev) (u : Nat) : AcqCfg :=
  { stream := d.flag (.ACQ_ATTACH u) 31, strm := d.get (.ACQ_ATTACH u) 2 0, slots := d.group u, trig := d.rd (.ACQ_TRIG u)
    tlevel := d.rd (.ACQ_TLEVEL u), pre := d.get (.ACQ_PRE u) 16 0, post := d.get (.ACQ_POST u) 31 0, dec := d.rd (.ACQ_DEC u)
    maskctl := d.rd (.ACQ_MASKCTL u), rbase := d.rd (.ACQ_RBASE u), envtab := d.rd (.ACQ_ENVTAB u)
    pword := d.get (.ACQ_PWORD u) 31 0, pcare := d.get (.ACQ_PCARE u) 31 0, expect := d.get (.ACQ_EXPECT u) 31 0
    ecare := d.get (.ACQ_ECARE u) 31 0, gopen := (d.acq u).gopen, gclose := (d.acq u).gclose }

/-- R261: the envelope table is used by the mask test of a stream. -/
def AcqCfg.usesEnv (c : AcqCfg) : Bool := c.stream && bit c.maskctl 31

/-- Table 7.3: the first failing check of an arming, 0 for none (DEDUCED, log 54). -/
def armCheck (d : Dev) (u : Nat) (c : AcqCfg) : Nat :=
  let s := d.acqSite u
  if (c.stream ∧ !d.flag (.ACQ_SPER c.strm) 31) ∨ !kindAllowed c.stream (bits c.trig 31 28) then 1
  else if !c.stream ∧ (c.slots = [] ∨ c.slots.length > 32 ∨ c.slots.any (card 128 (d.site s).decl.chans ≤ ·)) then 2
  else if (if c.stream then 114688 else 28672) < c.pre then 3
  else if d.get (.ACQ_GRANT u) 9 0 = 0 ∧ bits c.dec 31 29 ≠ 0 then 4
  else if !d.boltsOf s (bits c.rbase 14 0) (bits c.rbase 30 16 + 1) ∨ (c.usesEnv ∧ !d.boltsOf s (bits c.envtab 14 0) 1) then 5
  else 0

/-- R261: a unit is armed, or its arming fails. -/
def acqArm (d : Dev) (u : Nat) : Dev :=
  let d := acqStop d u
  let c := d.acqCfg u
  let code := armCheck d u c
  if code ≠ 0 then (((d.raise (.ACQ_STAT u) 24).set (.ACQ_STAT u) 23 20 code).set (.ACQ_STAT u) 31 29 0)
  else
    let old := (d.acq u).buf.map fun l => { l with counted := false }
    let a : Acq := { cfg := c, loading := c.usesEnv, gopen := c.gopen, gclose := c.gclose, rearm := d.get (.ACQ_CTL u) 27 20
                     exp := min 16 (bits c.dec 28 24), buf := old, drainT := (d.acq u).drainT, violated := (d.acq u).violated, hostReq := (d.acq u).hostReq }
    (d.modAcq u fun _ => a).set (.ACQ_STAT u) 31 29 (startPart a)

/-- R261: a host's request at the item a program's request names acts after it. -/
def hostAgain (d : Dev) (u : Nat) : Dev :=
  match (d.acq u).hostReq with
  | some true => acqArm d u
  | some false => acqStop d u
  | none => d

/-- Arm or disarm by a program, at the vector of R45; a host's request for the same item acts after it (R261) (DEDUCED, log 18). -/
def acqAct (d : Dev) (a : AcqAct) : Dev :=
  match a with
  | .arm u => hostAgain (acqArm d u) u
  | .disarm u => hostAgain (acqStop d u) u

/-- R261: an item has come to a unit: a later host request names a later item. -/
def itemPast (d : Dev) (u : Nat) : Dev := d.modAcq u fun a => { a with hostReq := none }

/-- R261: the envelope table is loaded: entry p from its bolt, of the LEN field + 1 entries (DEDUCED, log 222). -/
def envelopeLoaded (d : Dev) (u : Nat) : Dev :=
  let c := (d.acq u).cfg
  if !(d.acq u).loading then d
  else d.modAcq u fun a => { a with
    loading := false
    env := (List.range (bits c.envtab 31 16 + 1)).map fun p => d.dram.num (regionBase c.envtab + 4 * p) 4 }

/-- R258, R268: the time at which a grant has let `n` lines drain. -/
def drainTime (grant since n : Nat) : Nat := if grant = 0 then since else since + (n * (640 * nano1) + grant - 1) / grant

/-- R270: the time at which a unit's grant has let its record buffer drain; with it, where no burst runs, the capture buffer that
shares the unit's memory. -/
def Dev.drainEndAt (d : Dev) (u : Nat) : Nat :=
  let a := drainTime (d.get (.ACQ_GRANT u) 9 0) (d.acq u).drainT (d.acq u).buf.length
  if d.siteEngine u = none then
    max a (drainTime (d.get (.ACQ_CAPGRANT u) 9 0) (d.site u).cap.drainT (d.site u).cap.buf.length)
  else a

/-- R270: a unit whose offered items stopped and whose buffer is empty: its drain is over. -/
def acqOver (d : Dev) (u : Nat) : Dev := d.onlyIf (d.acqState u = 4 && (d.acq u).buf = []) fun d => d.set (.ACQ_STAT u) 31 29 5

/-- R262, R270: what the grants have let out has drained (DESIGN CHOICE, log 12). -/
def acqDrained (d : Dev) (u : Nat) : Dev :=
  let d := if d.siteEngine u = none then drainCapSince d u (d.site u).cap.drainT (d.site u).cap.buf.length else d
  acqOver (drainAcqSince d u (d.acq u).drainT (d.acq u).buf.length) u

/-- The units assigned to a site. -/
def Dev.siteUnits (d : Dev) (s : Nat) : List Nat := (List.range 16).filter fun u => d.acqSite u = s

/-- R158, R156: the units of a site halt: their offered items stop. -/
def haltUnits (d : Dev) (s : Nat) : Dev := d.each (d.siteUnits s) acqStop

/-- R270, R323: what a site's buffers hold is closed before the site's wipe, and their pace goes on from now. -/
def closeSite (d : Dev) (s : Nat) : Dev := (paceCap (stampClose (haltUnits d s) s) s).each (d.siteUnits s) paceAcq

/-- R258, R268: the time at which the grants have let a site's buffers drain. -/
def siteDrainAt (d : Dev) (s : Nat) : Nat :=
  (d.siteUnits s).foldl (fun t u => max t (drainTime (d.get (.ACQ_GRANT u) 9 0) (d.acq u).drainT (d.acq u).buf.length))
    (drainTime (d.get (.ACQ_CAPGRANT s) 9 0) (d.site s).cap.drainT (d.site s).cap.buf.length)

/-- R270, R323: a site's buffers drain, at the pace of their grants. -/
def drainSite (d : Dev) (s : Nat) : Dev :=
  (drainCapSince d s (d.site s).cap.drainT (d.site s).cap.buf.length).each (d.siteUnits s) fun d u =>
    acqOver (drainAcqSince d u (d.acq u).drainT (d.acq u).buf.length) u

/-- R270, R323: whether a site's buffers have drained. -/
def siteDrained (d : Dev) (s : Nat) : Bool :=
  (d.site s).cap.buf = [] && (d.site s).stamps.inputs = [] && (d.siteUnits s).all fun u => (d.acq u).buf = []

end Sys2Proof.Machine
end

