-- ==== Sys2Proof/Machine/Access.lean ====
section
/-! DEFINITION. Who may write a register, and what a host's write to one passes before it acts
(12_register_interface.md R414 to R421). -/
namespace Sys2Proof.Machine

/-! ### Owners (R420, Table 12.3) -/

/-- The enabled site that holds a channel. -/
def Dev.siteOf (d : Dev) (c : Nat) : Option Nat :=
  (List.range 16).find? fun s => (d.site s).decl.en && inSet (d.site s).decl.chans c

/-- The owner of a channel's registers. -/
def Dev.chanOwner (d : Dev) (c : Nat) : Nat := match d.siteOf c with | some s => d.siteOwner s | none => 0

/-- R420: the ports that own the symbol map of a cuff: HP0 and the owner of every enabled site with a channel of it. -/
def Dev.cuffOwned (d : Dev) (k p : Nat) : Bool :=
  p = 0 || (List.range 16).any fun s =>
    (d.site s).decl.en && (d.site s).decl.owner = p && (List.range 16).any fun j => inSet (d.site s).decl.chans (16 * k + j)

/-- R370: the port named for a compare unit. -/
def Dev.cmpCount (d : Dev) : Nat := d.get .TIM_CMPMODE 6 0
def Dev.cmpOwner (d : Dev) (n : Nat) : Nat := d.get (.TIM_CMPOWN (n / 8)) (4 * (n % 8) + 2) (4 * (n % 8))

/-- Table 12.3: whether a port owns a register. Any port writes TRU_LOGSEL (14_power_reset_and_trust.md R471; DEDUCED, log 73). -/
def Dev.owns (d : Dev) (p : Nat) (r : Reg) : Bool :=
  match r with
  | .SCH_SUBMIT q _ | .SCH_CANCEL q | .SCH_PSTAT q | .SCH_LDBOLT q | .SCH_LDCTL q | .SCH_LDSTAT q => p = q
  | .SCH_SITESTAT s | .SCH_HFLAG s | .SCH_SITECMD s => p = d.siteOwner s
  | .ENG_STAT e | .ENG_TRAP e | .ENG_CSERR e | .ENG_STRETCH e | .ENG_UREG e | .ENG_CTL e =>
    p = (if d.flag (.ENG_STAT e) 26 then d.siteOwner (d.get (.ENG_STAT e) 19 16) else 0)
  | .CUF_EDGE_LO c _ _ | .CUF_EDGE_HI c _ _ | .CUF_FMT c _ | .CUF_CHSTAT c | .CUF_CHCTL c | .CUF_COLLCNT c => p = d.chanOwner c
  | .CUF_PERIOD_LO s _ | .CUF_PERIOD_HI s _ | .CUF_TSCOMMIT s | .CUF_TSSTAT s | .CUF_TSVALID s _ => p = d.siteOwner s
  | .CUF_SYMMAP k _ => d.cuffOwned k p
  | .ACQ_CTL u | .ACQ_STAT u | .ACQ_ATTACH u | .ACQ_TRIG u | .ACQ_TLEVEL u | .ACQ_PRE u | .ACQ_POST u | .ACQ_DEC u
  | .ACQ_MASKCTL u | .ACQ_RBASE u | .ACQ_ENVTAB u | .ACQ_GRP u _ | .ACQ_PWORD u | .ACQ_PCARE u | .ACQ_EXPECT u | .ACQ_ECARE u
  | .ACQ_GOPEN u _ | .ACQ_GCLOSE u _ | .ACQ_MINMAX u | .ACQ_MEAN u | .ACQ_RMS u => p = d.siteOwner (d.acqSite u)
  | .ACQ_CAPBASE s | .ACQ_CAPCFG s | .ACQ_CAPSTAT s => p = d.siteOwner s
  | .SRC_CTL n | .SRC_STAT n | .SRC_CFG n | .SRC_RBASE n | .SRC_TBASE n | .SRC_TSTART n _ => p = d.siteOwner (d.srcSite n)
  | .DRC_SRBASE s | .DRC_SRCFG s | .DRC_SRMARKLO s | .DRC_SRMARKHI s | .DRC_SRSTAT s => p = d.siteOwner s
  | .TIM_CMPCTL n | .TIM_CMPT n _ => p = d.cmpOwner n
  | .TDC_IN i | .TDC_HOLD i | .TDC_ISTAT i | .TDC_LOOP i => p = (if i < 128 then d.chanOwner i else 0)
  | .TDC_RBASE s | .TDC_RCTL s | .TDC_RSTAT s => p = d.siteOwner s
  | .TDC_IVCFG u | .TDC_IVCTL u | .TDC_IVSTAT u | .TDC_IVLIM u | .TDC_FQCFG u | .TDC_FQCTL u | .TDC_FQSTAT u
  | .TDC_GOPEN u _ | .TDC_GCLOSE u _ => p = d.siteOwner u
  | .LNK_PSTAT q | .LNK_PERR q | .LNK_QCTL q | .LNK_QSTAT q | .LNK_EVQLO q | .LNK_EVQHI q | .LNK_CMDQLO q | .LNK_CMDQHI q
  | .LNK_CMDQHIE q | .LNK_IRQEN q | .LNK_IRQSTAT q | .LNK_IRQMOD q | .LNK_MSIADDRLO q | .LNK_MSIADDRHI q | .LNK_MSIDATA q
  | .LNK_DBELL q | .MBX_SEL q | .MBX_STAT q | .MBX_DATA q _ => p = q
  | .TRU_LOGSEL => true
  | .TRU_QNONCE q _ | .TRU_QCTL q | .TRU_QSTAT q | .TRU_QBODY q _ => p = q
  | _ => p = 0

/-- R420: a register whose fields are all RO has no owner for writes. -/
def Reg.readOnly (r : Reg) : Bool := r.row.rw = 0 && r.row.w1c = 0 && r.row.rc = 0 && r.row.cmd = 0

/-- R201, R420: a write of SCH_SITECMD may set only command bits that the port owns. -/
def Dev.siteCmdOwned (d : Dev) (p s : Nat) (w : Word) : Bool :=
  (!bit w 31 || p = 0) && (!bit w 30 || p = 0 || p = d.siteOwner s) && (!bit w 29 || p = d.siteOwner s)

/-- Table 12.2, step 5: whether a port may make a write. -/
def Dev.mayWrite (d : Dev) (p : Nat) (r : Reg) (w : Word) : Bool :=
  r.readOnly || (match r with
    | .SCH_SITECMD s => d.siteCmdOwned p s w
    | _ => d.owns p r)

/-! ### Writes -/

/-- GLB_STAT.READY (R428). -/
def Dev.ready (d : Dev) : Bool := d.flag .GLB_STAT 31

/-- R452: blocks a host may write before READY: GLB, LNK and TRU. -/
def earlyBlock (a : Nat) : Bool :=
  a < 0x100000 || (0x900000 ≤ a && a < 0xA00000) || (0xB00000 ≤ a && a < 0xC00000)

/-- A bit of LNK_PERR of the writing port set. -/
def perr (d : Dev) (p i : Nat) : Dev := d.raise (.LNK_PERR p) i

/-- R159: the partition is locked. -/
def Dev.locked (d : Dev) : Bool := d.flag .SCH_PLOCK 0

/-- Table 12.2, step 6: the bits of a register that are locked now. -/
def Dev.lockMask (d : Dev) (r : Reg) : Nat := if d.locked then r.row.lk else 0

/-- Table 12.2, step 6: a write to locked fields sets WRITE_AFTER_LOCK. -/
def lockFlag (d : Dev) (p : Nat) (r : Reg) : Dev := d.onlyIf (d.lockMask r ≠ 0) (perr · p 30)

/-- A register stored as its bits' types state, with locked fields unchanged (R8, R418). -/
def Dev.storeBy (d : Dev) (p : Nat) (r : Reg) (w : Word) : Dev :=
  (lockFlag d p r).wr r (plainWrite r.row (d.rd r) w (d.lockMask r))

/-- Table 1.5, Table 1.1: the seams by which accesses to a decoded address leave the control island and come back: those of a cuff, of the
engine cluster with its control stores, of the DRAM interface, and of the time base. -/
def accessSeams (a : Nat) : Option (Nat × Nat) :=
  if 0x300000 ≤ a ∧ a < 0x400000 then some (82 + (a - 0x300000) / 0x20000, 90 + (a - 0x300000) / 0x20000)
  else if (0x200000 ≤ a ∧ a < 0x300000) ∨ (0x400000 ≤ a ∧ a < 0x580000) ∨ 0x1000000 ≤ a then some (32, 33)
  else if 0x600000 ≤ a ∧ a < 0x700000 then some (52, 53)
  else if 0x700000 ≤ a ∧ a < 0x780000 then some (80, 81)
  else none

/-- R142: the canonical addresses of site registers, which every cuff holds. -/
def siteScoped (a : Nat) : Bool := 0x300000 ≤ a && a < 0x320000 && 0x1400 ≤ a % 0x2000 && a % 0x2000 < 0x1610

/-- R20, R142: whether a write at a canonical address has no effect, its seam fenced; one of a site register goes to all eight cuffs
(DEDUCED, log 146). -/
def Dev.writeCut (d : Dev) (a : Nat) : Bool :=
  if siteScoped a then (List.range 8).all fun k => d.seamFenced (82 + k)
  else (accessSeams a).any fun x => d.seamFenced x.1

/-- R20, R142: whether a read at a decoded address does not reach its island, or its data does not come back. -/
def Dev.readCut (d : Dev) (a : Nat) : Bool := (accessSeams a).any fun x => d.seamFenced x.1 || d.seamFenced x.2

/-- Table 12.2: a port's 32-bit write of a register, whose effect is `f` once the checks have passed;
whether it passed them (R414, R452) (DESIGN CHOICE, log 15) (DESIGN CHOICE, log 42). -/
def hostWrite (d : Dev) (p : Nat) (r : Reg) (w : Word) (f : Dev → Word → Dev) : Bool × Dev :=
  if !d.ready ∧ !earlyBlock r.addr then (false, d)
  else if d.mayWrite p r w then (true, if d.writeCut r.addr then d else f d w)
  else (false, perr d p 28)

/-- 11_lanes_and_host_link.md R402, R403: a port's write of a register that waits for room, or for a stage of the chain. -/
def writeHeld (d : Dev) (p : Nat) (r : Reg) (w : Word) : Dev := d.modPort p fun x => { x with waitWrite := some (r.addr, w) }

/-- R421; 05_sites_and_dispatch.md R170, 11_lanes_and_host_link.md R402, R403: accesses of a port are accepted while it is up, no submission
of it is held and no write of it waits (DESIGN CHOICE, log 3). -/
def Dev.accepts (d : Dev) (p : Nat) : Bool := d.portUp p && (d.schPort p).held.isNone && (d.port p).waitWrite.isNone

/-- An access of a port, which does nothing where it is not accepted. -/
def ifAccepted (d : Dev) (p : Nat) (f : Dev → Dev) : Dev := if d.accepts p then f d else d

/-! ### Lanes (11_lanes_and_host_link.md R378, R386) -/

/-- LAN_STAT.STAGE of a lane (Table 11.5). -/
def Dev.stage (d : Dev) (l : Nat) : Nat := d.get (.LAN_STAT l) 31 28

/-- A lane is up. -/
def Dev.laneUp (d : Dev) (l : Nat) : Bool := d.stage l = 6

/-- 13_calibration.md R436: the passes of a STITCH or CONV run place a lane in loopback. -/
def Dev.calLooped (d : Dev) (l : Nat) : Bool :=
  d.cal.op.any fun o => o.run && o.passes && o.snap.isNone &&
    ((o.qty = 3 && 24 ≤ l && l < 28 && inSet o.target (l - 24)) || (o.qty = 4 && 16 ≤ l && l < 24 && inSet o.target (l - 16)))

/-- R386: a lane is in a loopback: codes 1 to 3; the reserved codes are taken as none (DEDUCED, log 40). -/
def Dev.looped (d : Dev) (l : Nat) : Bool := (1 ≤ d.get (.LAN_CTL l) 30 28 && d.get (.LAN_CTL l) 30 28 ≤ 3) || d.calLooped l

/-- 15_dependability.md R477: a seam between a lane's island and the rest of the device is fenced (DEDUCED, log 146). -/
def Dev.laneFenced (d : Dev) (l : Nat) : Bool :=
  if l < 16 then d.seamFenced l || d.seamFenced (16 + l)
  else if l < 24 then d.seamFenced (38 + l) || d.seamFenced (46 + l)
  else d.seamFenced (46 + l) || d.seamFenced (50 + l)

/-- A command that is a port's write of one register. -/
def regCommand (d : Dev) (p : Nat) (r : Reg) (w : Word) (f : Dev → Word → Dev) : Dev := ifAccepted d p fun d => (hostWrite d p r w f).2

end Sys2Proof.Machine
end

