-- ==== Sys2Proof/Machine/Source.lean ====
section
/-! DEFINITION. Waveform sources (08_waveform_source.md). -/
namespace Sys2Proof.Machine

/-! ### Slots (R285) -/

/-- SRC_STAT.STATE (Table 8.7). -/
def Dev.srcState (d : Dev) (n : Nat) : Nat := d.get (.SRC_STAT n) 31 29
def Dev.srcOn (d : Dev) (n : Nat) : Bool := d.flag (.SRC_SPER n) 31

/-- R285: the time of slot k in half-picoseconds. -/
def slotTime (d : Dev) (n k : Nat) : Nat :=
  (((d.src n).anchor + halfPs / 2) / halfPs + (k * d.get (.SRC_SPER n) 30 0 : Nat)).toNat

/-- 160 ns in half-picoseconds (R295). -/
def ns160 : Nat := 320000

/-! ### The segment table (R288, R289) -/

/-- R289: an entry read and checked. -/
def readEntry (d : Dev) (n e : Nat) : SegRead :=
  let a := d.get (.SRC_TBASE n) 14 0 * 0x200000 + 16 * e
  let w0 := d.dram.word a
  let w1 := d.dram.word (a + 8)
  let len := 32 * (bits w0 35 16 + 1)
  if d.dram.poisoned a then .fault 4
  else if !bit w1 0 then .fault 1
  else if bit w0 63 ∨ bits w1 7 3 ≠ 0 ∨ len < 128 ∨ bits w1 63 32 < 0x10000 then .fault 2
  else if bits w0 62 36 * 64 + 2 * len > regionBytes (d.rd (.SRC_RBASE n)) then .fault 3
  else .seg { start := bits w0 62 36, len, next := bits w0 15 0, rate := bits w1 63 32, passes := bits w1 31 8 + 1
              ends := bit w1 2, jump := bit w1 1 }

/-- R291: INC of a rate: 2^48 / RATE to nearest, a tie away from zero. -/
def srcInc (rate : Nat) : Nat := (2 ^ 49 + rate) / (2 * rate)

/-- R303: whether the unit's table bolt and sample region are allocated to its site. -/
def srcBolts (d : Dev) (n : Nat) : Bool :=
  d.boltsOf (d.srcSite n) (d.get (.SRC_TBASE n) 14 0) 1 &&
  d.boltsOf (d.srcSite n) (d.get (.SRC_RBASE n) 14 0) (d.get (.SRC_RBASE n) 30 16 + 1)

/-! ### The source buffer (R290, R299, R300) -/

/-- The byte address in DRAM of sample j of a segment. -/
def sampleAddr (d : Dev) (n : Nat) (s : Segment) (j : Nat) : Nat := regionBase (d.rd (.SRC_RBASE n)) + s.start * 64 + 2 * j

/-- R290: an entry of the chain, or of a redirect, is read for a visit. -/
def readVisit (d : Dev) (n e : Nat) : Visit × Dev :=
  let a := d.get (.SRC_TBASE n) 14 0 * 0x200000 + 16 * e
  ({ entry := e, read := readEntry d n e }, readsDone d [(a, d.dram.poisoned a)])

/-- A line of samples as it is fetched. -/
def srcLineAt (d : Dev) (a : Nat) : SrcLine := { addr := a, data := d.dram.line a, poison := d.dram.poisoned a }

/-- The lines of a 1 MiB buffer. -/
def srcBufLines : Nat := 16384

/-- The lines of a segment. -/
def Segment.lines (s : Segment) : Nat := s.len / 32

/-- R299: the next line that read-ahead fetches of a segment, by its number, after `k` lines in `passes` passes: a segment of no more than
1 MiB is fetched once, and its passes replay it. -/
def Segment.wants (s : Segment) (k passes : Nat) : Option Nat :=
  if k < (if s.lines ≤ srcBufLines then s.lines else s.lines * passes) then some (k % s.lines) else none

/-- A visit's next line. -/
def Visit.wants (v : Visit) : Option (Segment × Nat) :=
  match v.read with
  | .seg s => (s.wants v.fetched s.passes).map fun i => (s, i)
  | .fault _ => none

/-- A visit with a further line. -/
def Visit.add (v : Visit) (l : SrcLine) : Visit := { v with lines := v.lines ++ [l], fetched := v.fetched + 1 }

/-- The lines in a unit's buffer. -/
def Source.held (x : Source) : Nat :=
  let p (o : Option SrcPend) : Nat := ((o.bind (·.target)).map (·.lines.length)).getD 0
  ((x.play.map (·.lines.length)).getD 0) + p x.pend + p x.pend2 + ((x.starting.map (·.1.lines.length)).getD 0) +
    (x.ahead.map (·.lines.length)).sum

/-- The entry that follows the last visit read ahead along the chain. -/
def Source.chainNext (x : Source) : Option Nat :=
  match x.ahead.getLast?, x.play with
  | some v, _ => match v.read with
    | .seg s => if s.ends then none else some s.next
    | .fault _ => none
  | none, some p => if p.seg.ends then none else some p.seg.next
  | none, none => none

/-- A line number of a segment, fetched where its channel is free; and the device after the read. -/
def fetchSample (d : Dev) (n : Nat) (s : Segment) (i : Nat) : Option (SrcLine × Dev) :=
  let l := srcLineAt d (sampleAddr d n s (32 * i))
  if !d.engineReads then none else some (l, readsDone d [(l.addr, l.poison)])

/-- Visits with the newest line of the last of them that holds one given up; none where none does. -/
def giveUpAhead (vs : List Visit) : Option (List Visit) :=
  ((List.range vs.length).reverse.find? fun k => vs[k]?.any (·.lines ≠ [])).map fun k =>
    vs.modify k fun v => { v with lines := v.lines.dropLast, fetched := v.fetched - 1 }

/-- R300: in a full buffer a redirect's target takes the place of the newest line read ahead along the chain, and then, while it holds fewer
lines than the visit in play, of that visit's newest one (DESIGN CHOICE, log 200). -/
def Source.giveUp (x : Source) (v : Visit) : Option Source :=
  match giveUpAhead x.ahead, x.play with
  | some vs, _ => some { x with ahead := vs }
  | none, some p => if v.lines.length < p.lines.length then some { x with play := some { p with lines := p.lines.dropLast, fetched := p.fetched - 1 } } else none
  | none, none => none

/-- R300: the requests whose targets are still to be fetched, and the room made for one. -/
def roomFor (d : Dev) (n : Nat) : Option Dev :=
  ((((d.src n).pend.bind (·.target)).filter (·.wants.isSome)).orElse fun _ => ((d.src n).pend2.bind (·.target)).filter (·.wants.isSome)).bind fun v =>
    ((d.src n).giveUp v).map fun x => d.modSrc n fun _ => x

/-- R300: a redirect's target is fetched from its latch on. -/
def pendFetch (d : Dev) (n : Nat) (q : Option SrcPend) (put : Source → Option SrcPend → Source) : Option Dev := do
  let q ← q
  let v ← q.target
  let w ← v.wants
  let r ← fetchSample d n w.1 w.2
  some (r.2.modSrc n fun x => put x (some { q with target := some (v.add r.1) }))

/-- A start's samples are fetched from its latch on. -/
def startFetch (d : Dev) (n : Nat) : Option Dev := do
  let q ← (d.src n).starting
  let w ← q.1.wants
  let r ← fetchSample d n w.1 w.2
  some (r.2.modSrc n fun x => { x with starting := some (q.1.add r.1, q.2) })

/-- R299: the next line of the visit in play. -/
def playFetch (d : Dev) (n : Nat) : Option Dev := do
  let p ← (d.src n).play
  let i ← p.seg.wants p.fetched p.seg.passes
  let r ← fetchSample d n p.seg i
  some (r.2.modSrc n fun x => { x with play := some { p with lines := p.lines ++ [r.1], fetched := p.fetched + 1 } })

/-- R299: the next line of the first visit ahead that wants one; else the next entry of the chain. -/
def aheadFetch (d : Dev) (n : Nat) : Option Dev :=
  let vs := (d.src n).ahead
  match vs.findIdx? (·.wants.isSome) with
  | some k => do
    let v ← vs[k]?
    let w ← v.wants
    let r ← fetchSample d n w.1 w.2
    some (r.2.modSrc n fun x => { x with ahead := vs.set k (v.add r.1) })
  | none => (d.src n).chainNext.map fun e =>
    let r := readVisit d n e
    r.2.modSrc n fun x => { x with ahead := vs ++ [r.1] }

/-- A fetch of a redirect's target. -/
def targetFetch (d : Dev) (n : Nat) : Option Dev :=
  (pendFetch d n (d.src n).pend fun x q => { x with pend := q }).orElse fun _ => pendFetch d n (d.src n).pend2 fun x q => { x with pend2 := q }

/-- R299, R300: one fetch of a unit's read-ahead: a redirect's target first, then, as far as the buffer has room, the chain
(DESIGN CHOICE, log 200). -/
def srcFetch (d : Dev) (n : Nat) : Dev :=
  if srcBufLines ≤ (d.src n).held then ((roomFor d n).bind fun d => targetFetch d n).getD d
  else ((((targetFetch d n).orElse fun _ => startFetch d n).orElse fun _ => playFetch d n).orElse fun _ => aheadFetch d n).getD d

/-- `k` fetches. -/
def srcFetches (n : Nat) : Nat → Dev → Dev
  | 0, d => d
  | k + 1, d => srcFetches n k (srcFetch d n)

/-! ### State changes -/

/-- R289: the unit is idle with a fault. -/
def srcFault (d : Dev) (n code entry : Nat) : Dev :=
  (((d.modSrc n fun x => { x with play := none, starting := none, ahead := [] }).set (.SRC_STAT n) 31 29 0).raise (.SRC_STAT n) 26
    |>.set (.SRC_STAT n) 19 16 code).set (.SRC_STAT n) 15 0 entry

/-- Requests replaced or discarded (R296, R297). -/
def srcDiscard (d : Dev) (n k : Nat) : Dev := d.modSrc n fun x => { x with replaced := x.replaced + k }

/-- The requests a unit holds are discarded. -/
def srcDropPending (d : Dev) (n : Nat) : Dev :=
  let x := d.src n
  (srcDiscard d n (x.pend.isSome.toNat + x.pend2.isSome.toNat)).modSrc n fun x => { x with pend := none, pend2 := none }

/-- The unit goes idle. -/
def srcIdle (d : Dev) (n : Nat) : Dev :=
  (d.modSrc n fun x => { x with play := none, starting := none, ahead := [] }).set (.SRC_STAT n) 31 29 0

/-- R298: HALT: the unit is idle at once and its requests are dropped. -/
def srcHalt (d : Dev) (n : Nat) : Dev :=
  (srcIdle d n).modSrc n fun x => { x with pend := none, pend2 := none, reqs := [] }

/-- A visit begins; `pos` is the position its first pass starts at, and `urgent` says that its first samples may be late (R300). -/
def srcVisit (d : Dev) (n pos : Nat) (v : Visit) (urgent : Bool) : Dev :=
  match v.read with
  | .fault c => srcDropPending (srcFault d n c v.entry) n
  | .seg s =>
    let p : Play := { entry := v.entry, seg := s, pos, left := s.passes - 1, lines := v.lines, fetched := v.fetched, urgent }
    ((d.modSrc n fun x => { x with play := some p }).set (.SRC_STAT n) 15 0 v.entry).set (.SRC_STAT n) 31 29
      (if (d.src n).pend.isSome then 3 else 2)

/-- R292: the position the next pass starts at. -/
def carryPos (p : Play) (r : SegRead) : Nat :=
  match r with
  | .seg s => if s.rate = p.seg.rate then p.pos - p.seg.len * 2 ^ 32 else 0
  | .fault _ => 0

/-- The time of the first slot of the hem that play is in, or has just left, at the next slot. -/
def hemTime (d : Dev) (n : Nat) (p : Play) : Nat :=
  slotTime d n ((d.src n).slot - (p.pos - (p.seg.len - 64) * 2 ^ 32) / srcInc p.seg.rate)

/-- R300: a redirect's first samples may be late: it was latched less than 160 ns before the hem of the pass that ends at its switch. -/
def redirectLate (d : Dev) (n : Nat) (p : Play) (q : SrcPend) : Bool := decide (hemTime d n p < q.latch + ns160)

/-- R296: the pending request takes effect at a pass end. -/
def srcSwitch (d : Dev) (n : Nat) (p : Play) (q : SrcPend) : Dev :=
  let late := redirectLate d n p q
  let d := d.modSrc n fun x => { x with pend := x.pend2, pend2 := none, ahead := [] }
  match q.target with
  | none => srcDropPending (srcIdle d n) n
  | some v => srcVisit d n (carryPos p v.read) v late

/-- R290, R293: the chain's next visit, read ahead or read now. -/
def chainVisit (d : Dev) (n e : Nat) : Visit × Dev :=
  match (d.src n).ahead with
  | v :: vs => (v, d.modSrc n fun x => { x with ahead := vs })
  | [] => readVisit d n e

/-- R292, R293: the pass ends, and the chain goes on (DEDUCED, log 57). -/
def srcChain (d : Dev) (n : Nat) (p : Play) : Dev :=
  let d := d.modSrc n fun x => { x with pend := x.pend.map fun q => { q with skip := q.skip - 1 } }
  if p.left > 0 then
    d.modSrc n fun x => { x with play := some { p with pos := p.pos - p.seg.len * 2 ^ 32, left := p.left - 1 } }
  else if p.seg.ends then srcDropPending (srcIdle d n) n
  else
    let r := chainVisit d n p.seg.next
    srcVisit r.2 n (carryPos p r.1.read) r.1 false

/-- R292, R296: the slot opens the next pass when the position has reached L. -/
def srcPassEnd (d : Dev) (n : Nat) : Dev :=
  match (d.src n).play with
  | none => d
  | some p =>
    if p.pos < p.seg.len * 2 ^ 32 then d
    else match (d.src n).pend with
      | some q => if q.skip = 0 ∧ p.seg.jump then srcSwitch d n p q else srcChain d n p
      | none => srcChain d n p

/-- The hem of a pass: the position is L - 64 or more. -/
def inHem (p : Play) : Bool := (p.seg.len - 64) * 2 ^ 32 ≤ p.pos

/-- R297: a pending request is decided when play enters the hem of the pass whose end is its switch boundary. -/
def srcDecide (d : Dev) (n : Nat) : Dev :=
  match (d.src n).play with
  | none => d
  | some p => d.modSrc n fun x => { x with
      pend := x.pend.map fun q => if inHem p ∧ q.skip = 0 ∧ p.seg.jump then { q with decided := true } else q }

/-! ### Latching (R294 to R297) -/

/-- A request on a unit that is not idle, latched at a slot of time `t`, becomes its pending request (DEDUCED, log 58). -/
def srcPendRequest (d : Dev) (n : Nat) (q : SrcReq) (t : Nat) : Dev :=
  let r : Option Visit × Dev := if q.act = .stop then (none, d) else let v := readVisit d n q.entry; (some v.1, v.2)
  let d := r.2
  let x := d.src n
  let late := match x.play with | some p => inHem p | none => false
  let new : SrcPend := { target := r.1, latch := t, skip := late.toNat }
  let d := match x.pend with
    | some old =>
      if old.decided then
        (srcDiscard d n x.pend2.isSome.toNat).modSrc n fun x => { x with pend2 := some { new with skip := 0 } }
      else (srcDiscard d n 1).modSrc n fun x => { x with pend := some new }
    | none => d.modSrc n fun x => { x with pend := some new }
  d.onlyIf (d.srcState n = 2) fun d => d.set (.SRC_STAT n) 31 29 3

/-- R295, R303: a start on an idle unit, latched at a slot of time `t`. -/
def srcBegin (d : Dev) (n : Nat) (q : SrcReq) (t : Nat) : Dev :=
  if !srcBolts d n then srcFault d n 5 q.entry
  else
    let r := readVisit d n q.entry
    (r.2.modSrc n fun x => { x with starting := some (r.1, q.timed.getD (t + ns160)), startTimed := q.timed.isSome }).set (.SRC_STAT n) 31 29 1

/-- A request latched at a slot of time `t`; one whose entry the stack does not give now waits, and the unit with it (06_pattern_memory.md R226)
(DEDUCED, log 212). -/
def srcLatch (d : Dev) (n : Nat) (t : Nat) (q : SrcReq) : Dev :=
  if q.act ≠ .stop && !d.engineReads then d.modSrc n fun x => { x with reqs := x.reqs ++ [q] }
  else if d.srcState n = 0 then (if q.act = .start then srcBegin d n q t else d.raise (.SRC_STAT n) 24)
  else srcPendRequest d n q t

/-- R294: the requests delivered by a slot's time are latched: program requests in order, then the host's. -/
def srcLatchAll (d : Dev) (n : Nat) (t : Nat) : Dev :=
  let due := (d.src n).reqs.filter (·.time ≤ t)
  let d := d.modSrc n fun x => { x with reqs := x.reqs.filter fun q => !(q.time ≤ t) }
  d.each (due.filter (!·.host) ++ due.filter (·.host)) fun d q => srcLatch d n t q

/-- R295: a start that waits begins at the first slot at or after its time. -/
def srcStartDue (d : Dev) (n : Nat) (t : Nat) : Dev :=
  match (d.src n).starting with
  | none => d
  | some (v, at_) =>
    if t < at_ then d
    else
      let k := (d.src n).slot
      srcVisit (d.modSrc n fun x => { x with starting := none, startSlot := k, firstUnder := none }) n 0 v false

/-! ### Samples (R291, R301) -/

/-- Where a sample comes from: the visit in play, the target of the switch at the end of this pass, or the chain's next visit (R292). -/
inductive From where
  | play
  | target
  | chain
deriving DecidableEq, Repr

/-- R292: the partner of the last sample of a pass: the first sample of the next pass where the rate stays, else the last sample itself. -/
def lastPartner (x : Source) (p : Play) : From × Segment × Nat :=
  let same (w : From) (r : SegRead) : From × Segment × Nat := match r with
    | .seg s => if s.rate = p.seg.rate then (w, s, 0) else (.play, p.seg, p.seg.len - 1)
    | .fault _ => (.play, p.seg, p.seg.len - 1)
  let chain := if p.left > 0 then (.play, p.seg, 0) else match x.ahead with
    | v :: _ => same .chain v.read
    | [] => (.play, p.seg, p.seg.len - 1)
  match x.pend with
  | some q => if q.skip = 0 ∧ p.seg.jump then (match q.target with | some v => same .target v.read | none => (.play, p.seg, p.seg.len - 1))
    else chain
  | none => chain

/-- R291, R292: the samples that a slot needs: the one at the position, and with INTERP its partner. -/
def neededSamples (d : Dev) (n : Nat) (p : Play) : List (From × Segment × Nat) :=
  let j := p.pos / 2 ^ 32
  (From.play, p.seg, j) ::
    (if d.flag (.SRC_CFG n) 31 then [if j + 1 < p.seg.len then (.play, p.seg, j + 1) else lastPartner (d.src n) p] else [])

/-- The lines that a unit's buffer holds for a visit. -/
def Source.linesOf (x : Source) (w : From) : List SrcLine :=
  match w with
  | .play => (x.play.map (·.lines)).getD []
  | .target => ((x.pend.bind (·.target)).map (·.lines)).getD []
  | .chain => (x.ahead.head?.map (·.lines)).getD []

/-- The line of a sample in the buffer. -/
def heldSample (d : Dev) (n : Nat) (q : From × Segment × Nat) : Option SrcLine :=
  ((d.src n).linesOf q.1).find? (·.addr = sampleAddr d n q.2.1 q.2.2 / 64 * 64)

/-- A visit with the line of a sample; its read-ahead goes on after it. -/
def Visit.bring (v : Visit) (l : SrcLine) (i : Nat) : Visit := { v with lines := v.lines ++ [l], fetched := if v.fetched = i then i + 1 else v.fetched }

/-- R299, R300: a sample's line is brought in time. -/
def bringSample (d : Dev) (n : Nat) (q : From × Segment × Nat) : Dev :=
  if (heldSample d n q).isSome then d
  else
    let i := q.2.2 / 32
    let l := srcLineAt d (sampleAddr d n q.2.1 q.2.2 / 64 * 64)
    (readsDone d [(l.addr, l.poison)]).modSrc n fun x => match q.1 with
      | .play => { x with play := x.play.map fun p => { p with
          lines := p.lines ++ [l], fetched := if p.fetched % p.seg.lines = i then p.fetched + 1 else p.fetched } }
      | .target => { x with pend := x.pend.map fun r => { r with target := r.target.map fun v => v.bring l i } }
      | .chain => { x with ahead := match x.ahead with | v :: vs => v.bring l i :: vs | [] => [] }

/-- R290, R292: the chain's next entry has been read where its first sample is wanted. -/
def chainRead (d : Dev) (n : Nat) (p : Play) : Dev :=
  if (d.src n).ahead = [] ∧ p.left = 0 ∧ !p.seg.ends ∧ d.flag (.SRC_CFG n) 31 ∧ p.seg.len ≤ p.pos / 2 ^ 32 + 1 then
    let r := readVisit d n p.seg.next
    r.2.modSrc n fun x => { x with ahead := [r.1] }
  else d

/-- R299 to R301: a sample that is not in the buffer may be late: the load is beyond the budget of R215, or it is among the first of a
redirect latched too late. -/
def mayBeLate (d : Dev) (n : Nat) (p : Play) (beyond : Bool) (q : From × Segment × Nat) : Bool :=
  beyond || !d.engineReads || (match q.1 with
    | .play => p.urgent
    | .target => (d.src n).pend.any (redirectLate d n p)
    | .chain => false)

/-- R301: a slot's sample is late. -/
def slotLate (d : Dev) (n : Nat) (p : Play) (beyond : Bool) : Bool :=
  (neededSamples d n p).any fun q => (heldSample d n q).isNone && mayBeLate d n p beyond q

/-- R291: a value in 2^-32 units rounded to nearest, a tie away from zero. -/
def roundAway (x : Int) : Int := if x ≥ 0 then (x + 2 ^ 31) / 2 ^ 32 else -((-x + 2 ^ 31) / 2 ^ 32)

/-- The stored value of a sample, or none when its line reads poisoned. -/
def sampleValue (d : Dev) (n : Nat) (q : From × Segment × Nat) : Option Nat :=
  match heldSample d n q with
  | some l => if l.poison then none else some (l.data / 2 ^ (16 * (q.2.2 % 32)) % 2 ^ 16)
  | none => none

/-- R291: the played sample at the oscillator's position, or none when a line it needs reads poisoned. -/
def playedSample (d : Dev) (n : Nat) (p : Play) : Option Nat :=
  let f : Nat := p.pos % 2 ^ 32
  match (neededSamples d n p).map (sampleValue d n) with
  | [some a] => some a
  | [some a, some b] => some (unsigned 16 (roundAway (signed 16 a * 2 ^ 32 + (f : Int) * (signed 16 b - signed 16 a))))
  | _ => none

/-- R286: the payload block of eight consecutive slots, slot 8m + i in bits [16i+15:16i]. -/
def srcBlock (b : List Nat) : Block := BitVec.ofNat 128 (b.foldr (fun v n => v % 2 ^ 16 + 2 ^ 16 * n) 0)

/-- R286, R383: a slot's sample joins the block; a full block goes out on the lane, or is counted where the lane is not up. -/
def srcPut (d : Dev) (n v : Nat) : Dev :=
  let b := if (d.src n).block.length ≥ 8 then [v] else (d.src n).block ++ [v]
  let d := d.modSrc n fun x => { x with slot := x.slot + 1, block := b }
  if b.length < 8 then d
  else if d.laneUp (16 + n) then dealTo [16 + n] (d.modLane (16 + n) fun x => { x with txBlk := some (srcBlock b) }) (srcBlock b)
  else d.modLane (16 + n) fun x => { x with dropBlk := (x.dropBlk + 1) % 2 ^ 64 }

/-- R301: what replaces a sample: the one sent in the slot before, or IDLE where none has been played. -/
def substitute (d : Dev) (n : Nat) : Nat := (d.src n).last.getD (d.get (.SRC_CFG n) 15 0)

/-- R299: the lines that play has left are gone, unless further passes replay them. -/
def dropPlayed (d : Dev) (n : Nat) (p : Play) : Play :=
  let a := sampleAddr d n p.seg (p.pos / 2 ^ 32) / 64 * 64
  if p.left > 0 ∧ p.seg.lines ≤ srcBufLines ∨ !p.lines.any (·.addr = a) then p
  else { p with lines := p.lines.dropWhile (·.addr ≠ a) }

/-- The oscillator advances by one slot (R291). -/
def srcAdvance (d : Dev) (n : Nat) : Dev :=
  d.modSrc n fun x => { x with play := x.play.map fun p => dropPlayed d n { p with pos := p.pos + srcInc p.seg.rate } }

/-- R287, R301: a playing slot; `beyond` says that the real-time load is beyond the budget of 06_pattern_memory.md R215. -/
def playSlot (d : Dev) (n : Nat) (p : Play) (beyond : Bool) : Dev :=
  let d := chainRead d n p
  if slotLate d n p beyond then
    let v := substitute d n
    let d := (srcPut d n v).modSrc n fun x => { x with
      underSamp := x.underSamp + 1, firstUnder := some (x.firstUnder.getD (x.slot - 1)), last := x.last.map fun _ => v }
    srcAdvance (d.raise (.SRC_STAT n) 28) n
  else
    let d := (d.each (neededSamples d n p) fun d q => bringSample d n q).modSrc n fun x => { x with
      play := x.play.map fun p => { p with urgent := false } }
    match playedSample d n p with
    | some v => srcAdvance ((srcPut d n v).modSrc n fun x => { x with played := x.played + 1, last := some v }) n
    | none =>
      let v := substitute d n
      let d := (srcPut d n v).modSrc n fun x => { x with poisonSamp := x.poisonSamp + 1, last := x.last.map fun _ => v }
      srcAdvance (d.raise (.SRC_STAT n) 27) n

/-- R291, R294 to R297: a slot, by which the unit has made `fetched` more fetches. -/
def sourceSlot (d : Dev) (n fetched : Nat) (beyond : Bool) : Dev :=
  if !d.srcOn n then d
  else
    let t := slotTime d n (d.src n).slot
    let d := srcPassEnd (srcFetches n (min srcBufLines fetched) d) n
    let d := srcStartDue (srcLatchAll (srcDecide d n) n t) n t
    match (d.src n).play with
    | some p => playSlot d n p beyond
    | none =>
      let v := d.get (.SRC_CFG n) 15 0
      (srcPut d n v).modSrc n fun x => { x with idleSlots := x.idleSlots + 1, last := x.last.map fun _ => v }

/-- When a unit's next slot falls due. -/
def slotDue (d : Dev) (n : Nat) : Option Nat := if d.srcOn n then some (slotTime d n (d.src n).slot * halfPs) else none

/-- SOURCE_SLOT (R291): the next slot of a unit, by which it has made `fetched` more fetches of entries and lines (R299); `beyond` says that the
real-time load is beyond the budget of 06_pattern_memory.md R215 (DESIGN CHOICE, log 200). -/
def execSourceSlot (n : Fin 8) (fetched : Nat) (beyond : Bool) (s : State) : Host.Outcome State Fault Refusal :=
  actAt s (slotDue s.dev n) fun d => sourceSlot d n fetched beyond

/-! ### Requests (R294, R295) -/

/-- A request reaches a unit. -/
def srcDeliver (d : Dev) (n : Nat) (q : SrcReq) : Dev :=
  if !d.srcOn n then d.raise (.SRC_STAT n) 24 else d.modSrc n fun x => { x with reqs := x.reqs ++ [q] }

/-- R65, R294: a program's request, delivered at a T0. -/
def waveRequest (d : Dev) (n act entry t0 : Nat) : Dev :=
  srcDeliver d n { act := if act = 0 then .start else if act = 1 then .redirect else .stop, entry, time := t0 }

/-- R295: a host start. -/
def srcHostStart (d : Dev) (n : Nat) (w : Word) : Dev :=
  let q : SrcReq := { act := .start, entry := bits w 15 0, time := toHalf d.now, host := true }
  if bit w 27 then
    if (d.src n).tstart < d.now + 160 * nano1 then (srcDeliver d n q).raise (.SRC_STAT n) 25
    else srcDeliver d n { q with timed := some (toHalf (d.src n).tstart) }
  else srcDeliver d n q

/-- R304: a write of SRC_CTL. -/
def srcCtlWrite (n : Nat) (d : Dev) (w : Word) : Dev :=
  if !bit w 28 ∧ (bit w 31).toNat + (bit w 30).toNat + (bit w 29).toNat > 1 then d.raise (.SRC_STAT n) 24 else
  let d := d.store (.SRC_CTL n) w
  let q : SrcReq := { act := .stop, entry := bits w 15 0, time := toHalf d.now, host := true }
  if bit w 28 then srcHalt d n
  else if bit w 31 then srcHostStart d n w
  else if bit w 30 then srcDeliver d n { q with act := .redirect }
  else if bit w 29 then srcDeliver d n q
  else d

/-- SRC_START (R295): port `p` writes SRC_CTL with START. -/
def execSrcStart (p : Fin 8) (n : Fin 8) (w : Word) (s : State) : Host.Outcome State Fault Refusal :=
  act s fun d => regCommand d p (.SRC_CTL n) (setBit w 31 true) (srcCtlWrite n)

/-- SRC_REDIRECT (R296). -/
def execSrcRedirect (p : Fin 8) (n : Fin 8) (w : Word) (s : State) : Host.Outcome State Fault Refusal :=
  act s fun d => regCommand d p (.SRC_CTL n) (setBit w 30 true) (srcCtlWrite n)

/-- SRC_STOP (R296). -/
def execSrcStop (p : Fin 8) (n : Fin 8) (w : Word) (s : State) : Host.Outcome State Fault Refusal :=
  act s fun d => regCommand d p (.SRC_CTL n) (setBit w 29 true) (srcCtlWrite n)

/-- SRC_HALT (R298). -/
def execSrcHalt (p : Fin 8) (n : Fin 8) (w : Word) (s : State) : Host.Outcome State Fault Refusal :=
  act s fun d => regCommand d p (.SRC_CTL n) (setBit w 28 true) (srcCtlWrite n)

/-! ### The stream (R285, R286, R303) -/

/-- Table 8.1: the smallest PERIOD of a lane rate code. -/
def minPeriod (rate : Nat) : Nat :=
  match rate with
  | 0 => 3301
  | 1 => 2063
  | 2 => 1290
  | _ => 1250

/-- R285, R286: EN goes from 0 to 1, or fails. -/
def srcEnable (d : Dev) (n : Nat) : Dev :=
  let per := d.get (.SRC_SPER n) 30 0
  if !d.laneUp (16 + n) ∨ per < minPeriod (d.get (.LAN_CTL (16 + n)) 27 26) ∨ d.srcState n ≠ 0 then d.raise (.SRC_STAT n) 22
  else
    (d.modSrc n fun x => { tstart := x.tstart, anchor := ((d.now + micro1 - 1) / micro1 * micro1 : Nat), startSlot := x.startSlot,
                           replaced := x.replaced, firstUnder := x.firstUnder }).set (.SRC_SPER n) 31 31 1

/-- R298: EN goes to 0: no more sample blocks, and a running unit halts. -/
def srcDisable (d : Dev) (n : Nat) : Dev := (srcHalt d n).set (.SRC_SPER n) 31 31 0

/-- R303, R307: a write of SRC_SPER. -/
def srcSperWrite (n : Nat) (d : Dev) (w : Word) : Dev :=
  if d.srcOn n then
    let d := d.onlyIf (bits w 30 0 ≠ d.get (.SRC_SPER n) 30 0) (·.raise (.SRC_STAT n) 23)
    if bit w 31 then d else srcDisable d n
  else
    let d := d.set (.SRC_SPER n) 30 0 (bits w 30 0)
    if bit w 31 then srcEnable d n else d

/-- SRC_STREAM_ENABLE (R286): port `p` writes SRC_SPER with EN = 1. -/
def execSrcStreamEnable (p : Fin 8) (n : Fin 8) (w : Word) (s : State) : Host.Outcome State Fault Refusal :=
  act s fun d => regCommand d p (.SRC_SPER n) (setBit w 31 true) (srcSperWrite n)

/-- SRC_STREAM_DISABLE (R298): port `p` writes SRC_SPER with EN = 0. -/
def execSrcStreamDisable (p : Fin 8) (n : Fin 8) (w : Word) (s : State) : Host.Outcome State Fault Refusal :=
  act s fun d => regCommand d p (.SRC_SPER n) (setBit w 31 false) (srcSperWrite n)

/-- R303: configuration writes while the unit is not idle are ignored. -/
def srcCfgWrite (r : Reg) (n : Nat) (d : Dev) (w : Word) : Dev :=
  if d.srcState n ≠ 0 then d.raise (.SRC_STAT n) 23 else d.store r w

/-- R308: a write of SRC_TSTART; the write of word 2 takes all three. -/
def srcTstartWrite (n i : Nat) (d : Dev) (w : Word) : Dev :=
  let d := d.store (.SRC_TSTART n i) w
  if i ≠ 2 then d
  else
    let g (k : Nat) := (d.rd (.SRC_TSTART n k)).toNat
    d.modSrc n fun x => { x with tstart := ofTimeWords (g 0) (g 1) (g 2) }

/-- R158, R298: the source units of a site halt. -/
def haltSources (d : Dev) (s : Nat) : Dev :=
  d.each (List.range 8) fun d n => if d.srcSite n = s then srcHalt d n else d

end Sys2Proof.Machine
end

