-- ==== Sys2Proof/Machine/Micro.lean ====
section
/-! DEFINITION. Microwords: the fields of Table 3.1, the control stores, and how a user micro-routine runs
(03_engines_and_microcode.md R80 to R96, 02_asell_programs.md R69). -/
namespace Sys2Proof.Machine

/-- R80: whether a word holds a reserved encoding or a nonzero reserved bit; the reserved ledger kinds of Table 7.8 are reserved
encodings of LEDG (DEDUCED, log 26), and so is the record mode 0b11 of Table 2.4 in CAPC. -/
def reservedWord (lining : Bool) (w : UWord) : Bool :=
  let csel := bits w 139 134
  let seq := bits w 155 153
  bits w 167 156 ≠ 0 || bits w 91 90 ≠ 0 || bits w 83 82 ≠ 0 || bits w 131 129 ≥ 5 || bits w 128 127 = 3 ||
  bits w 125 122 ≥ 4 || bits w 115 112 ≥ 5 || bits w 111 110 = 3 || bits w 93 92 = 3 || bits w 86 84 ≥ 4 ||
  bits w 79 77 ≥ 4 || bits w 76 73 ≥ 3 || bits w 72 68 ≥ 0x19 || bits w 61 58 ≥ 4 || bits w 51 48 ≥ 7 ||
  (bit w 101 && bits w 99 98 = 3) || !(csel ≤ 8 || (16 ≤ csel && csel < 48) || csel = 48) ||
  (!lining && (seq = 1 || seq = 2 || seq = 3) && bits w 152 152 ≠ 0)

/-! ### Where the next word comes from -/

/-- R92: the micro-pointer at an index, and the nano-word of its run. -/
def nanoWord (d : Dev) (e mp run : Nat) : UWord :=
  d.nWord ((bits (d.mpWord e mp) 12 0 + run) % 8192)

/-- The word a routine in progress issues next (DEDUCED, log 39). -/
def nextWord (d : Dev) (e : Nat) (m : Micro) : UWord :=
  if m.lining then nanoWord d e m.upc m.run else d.hWord e (m.upc % 4096)

/-- The position after a word in sequence (R92). -/
def seqNext (d : Dev) (e : Nat) (m : Micro) : Nat × Nat :=
  if m.lining then
    if m.run < bits (d.mpWord e m.upc) 20 13 then (m.upc, m.run + 1) else (m.upc + 1, 0)
  else (m.upc + 1, 0)

/-- MP_BASE of a directory entry (Table 3.3). -/
def mpBase (d : Dev) (e k : Nat) : Nat := bits (d.dirEntry e k) 24 12

/-- The position a branch target names (Table 3.1, BT). -/
def branchTo (d : Dev) (e : Nat) (m : Micro) (w : UWord) : Nat × Nat :=
  if m.lining then (mpBase d e m.routine + bits w 152 140, 0) else (bits w 151 140, 0)

/-- A routine dispatched: whether it runs from the lining, and its first position (R85, R93). -/
def startMicro (d : Dev) (e k : Nat) : Bool × Nat :=
  if runsLining d e k then (true, mpBase d e k) else (false, bits (d.dirEntry e k) 11 0)

/-- A user routine that the burst's loadable declares (R69, R91). -/
def userRoutine (d : Dev) (e n : Nat) : Option UserRoutine := (d.engine e).user.find? (·.number = n)

/-- R69, R85: whether a user routine is undeclared, or loaded in neither control store. -/
def userAbsent (d : Dev) (e n : Nat) : Bool := (userRoutine d e n).isNone || !d.present e (64 + n)

/-! ### Fields of a word -/

/-- A scratch register. -/
def Micro.scrAt (m : Micro) (i : Nat) : Nat := m.scr[i]?.getD 0

/-- BSEL: the second operand. -/
def bOperand (b : Burst) (m : Micro) (w : UWord) : Nat :=
  match bits w 41 40 with
  | 0 => m.scrAt (bits w 44 42)
  | 1 => bits w 39 0
  | 2 => hImm m.hdr
  | _ => (b.loops[bits w 119 116]?.map (·.ctr)).getD 0

/-- CSEL and CNEG: the condition of a word. -/
def cselHolds (d : Dev) (b : Burst) (m : Micro) (w : UWord) : Bool :=
  let c := bits w 139 134
  let v :=
    if c = 0 then true
    else if c = 1 then condHolds d b ((b.next : Int) - 1025) m.hdr
    else if c = 2 then (match fetchWord d b m.pay with | .ok _ => true | .error _ => false)
    else if c = 3 then b.fifo.length + (if b.part = 0 then 0 else 1) < 128
    else if c = 4 then b.next ≤ b.returned + 1024
    else if c = 5 then m.scrAt (bits w 44 42) = 0
    else if c = 6 then d.ringPresent b.site (d.ring b.site).rd
    else if c = 7 then (match m.waitTarget with | some t => t ≤ d.now | none => m.eventWait && b.gotEvents ≠ [])
    else if c = 8 then b.matchHit.isSome
    else if c < 32 then (b.loops[c - 16]?.map (·.ctr)) = some 0
    else if c < 48 then b.events.any fun f => f.1 = c - 32 && decide ((b.clrAcq.get (-1) (c - 32)) < (f.2 : Int))
    else b.viols.any fun v => decide (b.clrViol < (v : Int))
  v != bit w 133

/-- ESRC: the vector a word emits next, and the payload pointer after it. -/
def sourceVector (d : Dev) (b : Burst) (m : Micro) (w : UWord) : Except Stop (BitVec 512 × Nat × Nat) :=
  match bits w 128 127 with
  | 0 => do
    let r ← readVector d b (if hForm m.hdr = 2 then 2 else 1) m.pay b.image
    return (r.1, r.2, 0)
  | 1 => .ok (m.held, m.pay, m.paySlot)
  | _ => do
    let v ← tableSlot d b m.pay m.paySlot
    return (v, if m.paySlot = 3 then m.pay + 1 else m.pay, (m.paySlot + 1) % 4)

/-- TSRC: the timing set of the next vector of a word: kept, of the header, of the word, or of the next set byte (R48). -/
def microTs (d : Dev) (b : Burst) (m : Micro) (w : UWord) : Except Stop Nat :=
  match bits w 109 108 with
  | 0 => .ok m.ts
  | 1 => .ok (headerTs b m.hdr)
  | 2 => .ok (bits w 107 102)
  | _ => do
    let x ← fetchWord d b (b.pc + 1 + m.sets / 8)
    return bits x (8 * (m.sets % 8) + 5) (8 * (m.sets % 8))

/-- ECOUNT, ENUM: `k` vectors emitted by a word. Unnumbered ones leave the image and mask their compares (R33). -/
def microEmit (d : Dev) (w : UWord) : Nat → Burst × Micro → Except Stop (Burst × Micro)
  | 0, r => .ok r
  | k + 1, (b, m) => do
    let v ← sourceVector d b m w
    let ts ← microTs d b m w
    if !d.tsValid b.site ts then .error (.code fcTsInvalid)
    let b := if bit w 126 then emitNumbered b v.1 ts 1 (capOf b m.hdr)
      else emitUnnumbered b { kind := .settle, syms := v.1, ts, count := 1 }
    let m := { m with ts, emitted := m.emitted + 1, sets := m.sets + (if bits w 109 108 = 3 then 1 else 0) }
    microEmit d w k (b, if bits w 125 122 = 1 then { m with pay := v.2.1, paySlot := v.2.2 } else m)

/-- A read that a word makes by the way: a fault leaves the old value, and a wait holds the word (DEDUCED, log 38). -/
def orKeep {α β : Type} (r : Except Stop α) (old : β) (f : α → β) : Except Stop β :=
  match r with
  | .ok v => .ok (f v)
  | .error (.code _) => .ok old
  | .error x => .error x

/-- PAY: the payload pointer loaded, or the current vector latched as the held vector. -/
def microPay (d : Dev) (b : Burst) (m : Micro) (w : UWord) : Except Stop Micro :=
  match bits w 125 122 with
  | 2 => .ok { m with pay := b.pc + 1 + m.extWords, paySlot := 0, payLoaded := true }
  | 3 => orKeep (sourceVector d b m w) m fun v => { m with held := v.1 }
  | _ => .ok m

/-- HDR: the next header latched, an extension word moved into scratch, or the extension words skipped. -/
def microHdr (d : Dev) (b : Burst) (m : Micro) (w : UWord) : Except Stop Micro :=
  match bits w 121 120 with
  | 1 => orKeep (fetchWord d b (if m.payLoaded then m.pay + (if m.paySlot = 0 then 0 else 1) else b.pc + 1 + m.extWords)) m fun h =>
      { m with hdr := h }
  | 2 => orKeep (fetchWord d b (b.pc + 1 + m.ext)) m fun x => { m with ext := m.ext + 1, scr := m.scr.set (bits w 47 45) x.toNat }
  | 3 => .ok { m with ext := m.extWords }
  | _ => .ok m

/-- R69: the address after a user routine's instruction: its extension words are skipped, and its payload as far as it was read
(DEDUCED, log 184). -/
def microNext (b : Burst) (m : Micro) : Nat :=
  if m.payLoaded then m.pay + (if m.paySlot = 0 then 0 else 1) else b.pc + 1 + m.extWords

/-- LOP: the loop operations of a word; a decrement of 0 wraps (DESIGN CHOICE, log 218). -/
def microLoop (b : Burst) (m : Micro) (w : UWord) : Except Stop Burst :=
  let l := bits w 119 116
  match bits w 115 112 with
  | 1 => if b.loops.length ≥ 16 then .error (.code fcLoopDepth)
    else .ok { b with loops := ⟨microNext b m, b.inStream, (if bits w 41 40 = 0 then m.scrAt (bits w 44 42) else bits w 39 0) % 2 ^ 32⟩ :: b.loops }
  | 2 => .ok { b with loops := b.loops.modify l fun x => { x with ctr := (x.ctr + 2 ^ 32 - 1) % 2 ^ 32 } }
  | 3 => if b.loops = [] then .error (.code fcEndlOrphan) else .ok { b with loops := b.loops.tail }
  | 4 => popLoops b (hFlags m.hdr % 4)
  | _ => .ok b

/-- STK: the Asell call stack. A pop transfers control at the routine's end (DEDUCED, log 38). -/
def microStack (b : Burst) (m : Micro) (w : UWord) : Except Stop (Burst × Micro) :=
  match bits w 111 110 with
  | 1 => do return (← pushFrame b (microNext b m), m)
  | 2 => match b.calls with
    | [] => .error (.code fcRetEmpty)
    | f :: fs => .ok ({ b with calls := fs, loops := b.loops.drop (b.loops.length - f.loops) }, { m with jump := some (f.ret, f.stream) })
  | _ => .ok (b, m)

/-- STRM: where a word that enters, leaves or rewinds the stream sends the routine's end (DEDUCED, log 38). -/
def microStream (d : Dev) (b : Burst) (m : Micro) (w : UWord) : Except Stop Micro :=
  match bits w 79 77 with
  | 1 => if b.inStream ∨ !d.ringOn b.site then .error (.code fcStreamOp)
    else .ok { m with jump := some ((d.ring b.site).rd / 8, true) }
  | 2 => .ok { m with jump := some ((m.jump.map (·.1)).getD (microNext b m), false) }
  | 3 => if d.markValid b.site then .ok { m with jump := some ((d.ring b.site).m / 8, true) } else .error (.code fcRewindLost)
  | _ => .ok m

/-- CAPC, AOP, SOP, FCLR: changes of site state a word directs. -/
def microSite (d : Dev) (b : Burst) (m : Micro) (w : UWord) : Except Stop Burst := do
  let b := if bit w 101 then { b with capOn := bit w 100, capMode := bits w 99 98 } else b
  let u := bits w 97 94
  let b ← match bits w 93 92 with
    | 1 => if unitOwned d b u then pure (addAct (.arm u) b) else .error (.code fcOwner)
    | 2 => if unitOwned d b u then pure (addAct (.disarm u) b) else .error (.code fcOwner)
    | _ => pure b
  let n := bits w 89 87
  let sop := bits w 86 84
  let b ← if sop = 0 then pure b
    else if sourceOwned d b n then pure (addAct (.wave (sop - 1) (bOperand b m w % 65536) n) b) else .error (.code fcOwner)
  return if bits w 81 80 = 1 then moveClear b ((b.next : Int) - 1025) m.hdr else b

/-- TIMC: a WAITT target loaded from scratch in 2^-16 ns, or a stitch-event wait armed. -/
def microTime (m : Micro) (w : UWord) : Micro :=
  match bits w 76 73 with
  | 1 => { m with waitTarget := some (m.scrAt (bits w 44 42) * frac16) }
  | 2 => { m with eventWait := true }
  | _ => m

/-- AOPC: the scratch operation. The spec states no result of `compare`: `fv` is a free value (DESIGN CHOICE, log 7). -/
def microScratch (b : Burst) (m : Micro) (w : UWord) (fv : Nat) : Micro :=
  let i := bits w 47 45
  let x := m.scrAt i
  let y := bOperand b m w
  let r := match bits w 51 48 with
    | 1 => y
    | 2 => (x + y) % 2 ^ 64
    | 3 => (x + 2 ^ 64 - y % 2 ^ 64) % 2 ^ 64
    | 4 => x &&& y
    | 5 => x ||| y
    | 6 => fv
    | _ => x
  { m with scr := m.scr.set i r }

/-- SCHS: `armed` is signalled to the scheduler, the burst ends, or it faults with FCODE as its instruction does (R71). -/
def microSched (b : Burst) (m : Micro) (w : UWord) : Except Stop Burst :=
  match bits w 61 58 with
  | 1 => .ok { b with armSignal := true }
  | 2 => .ok { b with fin := some (.halt (bOperand b m w % 65536)) }
  | 3 => .error (.code (bits w 56 52))
  | _ => .ok b

/-- R69: a user routine ends: the next instruction, where no word of it transferred control (DEDUCED, log 184). -/
def microReturn (b : Burst) (m : Micro) : Burst :=
  { b with micro := none, redirected := false, pc := (m.jump.map (·.1)).getD (microNext b m), inStream := (m.jump.map (·.2)).getD b.inStream }

/-- SEQ: the next word, or the end of the routine (none). `fv` stands for the return position when the micro stack is empty,
which the spec does not state (DESIGN CHOICE, log 7); a call on a full micro stack drops the oldest position (DESIGN CHOICE, log 217). A dispatch to a user routine checks it as R69 and R85 state. -/
def microSeq (d : Dev) (e : Nat) (m : Micro) (w : UWord) (holds : Bool) (fv : Nat) : Except Stop (Option Micro) :=
  let nx := seqNext d e m
  let bt := branchTo d e m w
  let go (p : Nat × Nat) : Except Stop (Option Micro) := .ok (some { m with upc := p.1, run := p.2 })
  match bits w 155 153 with
  | 0 => go nx
  | 1 => if holds then go bt else go nx
  | 2 => go bt
  | 3 => .ok (some { m with upc := bt.1, run := bt.2, stack := (nx :: m.stack).take 4 })
  | 4 => match m.stack with
    | [] => go (fv, 0)
    | p :: ps => .ok (some { m with upc := p.1, run := p.2, stack := ps })
  | 5 => .ok none
  | 6 =>
    let n := bits w 39 0 % 256
    let st := startMicro d e (64 + n)
    if userAbsent d e n then .error (.code fcUopAbsent)
    else .ok (some { m with routine := 64 + n, lining := st.1, upc := st.2, run := 0 })
  | _ => if holds then go nx else .ok (some m)

/-- R92, R93, R97: the engine cycles a word takes: one, and three more where it branches in the lining, or into it. -/
def wordCycles (d : Dev) (e : Nat) (m : Micro) (w : UWord) (holds : Bool) : Nat :=
  let seq := bits w 155 153
  let taken := (seq = 1 && holds) || (2 ≤ seq && seq ≤ 6)
  let into := seq = 6 && (startMicro d e (64 + bits w 39 0 % 256)).1
  if taken && (m.lining || into) then 4 else 1

/-- The fields of one microword act, or it faults (DEDUCED, log 38): the burst and the routine's state after it, and the next word's. -/
def issueFields (d : Dev) (e : Nat) (b : Burst) (m : Micro) (w : UWord) (fv : Nat) : Except Stop (Burst × Micro × Option Micro) := do
  if bits w 139 134 = 1 ∧ !m.checked then condCheck d b false m.hdr
  let holds := cselHolds d b m w
  let m := { m with
    checked := m.checked || bits w 139 134 = 1, safe := bit w 132
    cycles := if bit w 132 then 0 else m.cycles + wordCycles d e m w holds }
  let b ← microSite d b m w
  let b ← microLoop b m w
  let m ← microStream d b m w
  let (b, m) ← microStack b m w
  let m ← microHdr d b m w
  let m ← if bits w 125 122 = 2 then microPay d b m w else pure m
  let (b, m) ← microEmit d w (bits w 131 129) (b, m)
  let m ← if bits w 125 122 = 3 then microPay d b m w else pure m
  let m := microTime (microScratch b m w fv) w
  let b ← microSched b m w
  return (b, m, ← microSeq d e m w holds fv)

/-- One microword issues, or faults; with its last word the routine returns. -/
def issueWord (d : Dev) (e : Nat) (b : Burst) (m : Micro) (w : UWord) (fv : Nat) : Except Stop Burst := do
  let r ← issueFields d e b m w fv
  match r.2.2 with
  | none => return microReturn r.1 r.2.1
  | some m => return { r.1 with micro := some m }

/-- The address up to which the words of a routine's instruction have been read, with the word that issues (R68, R69). -/
def readUpTo (d : Dev) (e : Nat) (b : Burst) (m : Micro) (w : UWord) (fv : Nat) : Nat :=
  match issueFields d e b m w fv with
  | .ok r => max (microNext b r.2.1) b.pc
  | .error _ => max (microNext b m) b.pc

/-- Table 7.8: time, class and UNIT of an entry of a kind that a word writes. -/
def microEntry (d : Dev) (e : Nat) (b : Burst) (w : UWord) (kind : Nat) : Nat × Nat × Nat :=
  if kind = 0x01 then (b.start.getD 0 * halfPs, ucExact, e)
  else if kind = 0x02 ∨ kind = 0x18 then ((endTime d b).1, (endTime d b).2, e)
  else if kind = 0x03 ∨ kind = 0x04 then (((b.failBlk.map (·.firstT0)).getD b.nextT0) * halfPs, ucExact, 0)
  else if kind = 0x0A ∨ kind = 0x0C then (b.nextT0 * halfPs, ucExact, 0)
  else if kind = 0x07 ∨ kind = 0x08 ∨ kind = 0x10 then (d.now, ucEvent, bits w 97 94)
  else if kind = 0x12 ∨ kind = 0x16 then (d.nowOn 10, ucFirmware, 0)
  else (d.now, ucEvent, 0)

/-- LEDG: the ledger entry a word writes, with the second operand and the next vector number; a MARKER is written at the T0 of its vector
(DEDUCED, log 26). -/
def microLedger (d : Dev) (e : Nat) (b : Burst) (m : Micro) (w : UWord) : Dev :=
  let k := bits w 72 68
  let x := microEntry d e b w k
  if k = 0 ∨ k = 0x05 then d else ledger d k x.2.1 b.site x.2.2 x.1 0 (bOperand b m w) b.next

/-- A word that writes a MARKER marks the next vector emitted (R45, R66). -/
def microMark (m : Micro) (w : UWord) (b : Burst) : Burst :=
  if bits w 72 68 = 0x05 then addAct (.mark (bOperand b m w % 2 ^ 32)) b else b

/-- DKIND, DLEN: the lines that a word requests into the prefetch buffer: of the code, of the payload, or of the stream ring. -/
def microRequest (d : Dev) (e : Nat) (b : Burst) (m : Micro) (w : UWord) : Dev :=
  let line (pc : Nat) : Bool × Nat := if b.inStream then (true, pc / 8) else (false, (b.base + b.codeOff + 8 * pc) / 64)
  let first := match bits w 67 66 with
    | 1 => line b.pc
    | 2 => line m.pay
    | _ => (true, (d.ring b.site).f / 64)
  let want := (List.range (bits w 65 62 + 1)).map fun i => (first.1, first.2 + i)
  let fresh := want.filter fun x => (heldLine b x.1 x.2).isNone && !d.lineBusy (lineAddr d b x) &&
    (!x.1 || d.ringPresent b.site (64 * x.2))
  if bits w 67 66 = 0 then d
  else match d.burst e with
    | none => d
    | some y =>
      let fresh := (fresh.take (512 - y.lines.length)).map (fetchLine d b)
      readsDone (d.modBurst e fun _ => { y with lines := y.lines ++ fresh, fetched := y.fetched + fresh.length })
        (fresh.map fun l => (lineAddr d b (l.ring, l.key), l.poison))

/-! ### Traps (R94, R95) -/

/-- ENG_TRAP: a trap, redirect or interrupt of a code is counted (R104). -/
def trapCount (d : Dev) (e code : Nat) : Dev := (d.countUp (.ENG_TRAP e) 15 0 1).set (.ENG_TRAP e) 23 16 code

/-- A position in the form of the trap frame's micro-PC (Table 3.7). -/
def posWord (lining : Bool) (p : Nat × Nat) : Nat := if lining then 2 ^ 31 + p.1 * 256 + p.2 else p.1

/-- The first payload word of the instruction whose standard routine an engine is in, or is about to dispatch. -/
def payloadAt (d : Dev) (b : Burst) : Nat :=
  if b.wait.isSome ∨ b.unissued ≠ 0 then b.payAt
  else match fetchWord d b b.pc with
    | .ok h => b.pc + 1 + extWords h
    | .error _ => b.pc + 1

/-- The micro-state of a standard routine: the spec gives its words no content, so what it holds is free; `at_` is the store form and the
position of the word that trapped, where the trap names it (DESIGN CHOICE, log 7). -/
def stdMicro (d : Dev) (b : Burst) (at_ : Option (Bool × Nat)) : Micro × Dev :=
  let f (i : Nat) : Nat := Config.freeNat (d.freeIdx + i)
  ({ pay := payloadAt d b, payLoaded := true, routine := 0, lining := at_.any (·.1), upc := (at_.map (·.2)).getD (f 0 % 3072), scr := (List.range 8).map fun i => f (i + 1) % 2 ^ 64
     stack := (List.range (f 9 % 5)).map fun i => (f (10 + i) % 3072, 0) }, { d with freeIdx := d.freeIdx + 14 })

/-- Table 3.7: the frame of the micro-state. -/
def frameOf (b : Burst) (m : Micro) : TrapFrame :=
  { upc := posWord m.lining (m.upc, m.run)
    depths := m.stack.length * 2 ^ 24 + b.calls.length * 2 ^ 16 + b.loops.length
    ctrs := b.loops.map (·.ctr), scr := m.scr, pay := if m.payLoaded then m.pay else b.pc + 1 + m.extWords
    reps := if b.op = 0x02 ∨ b.op = 0x0A then b.unissued else 0, stack := m.stack.map (posWord m.lining) }

/-- R95: a trap's entry, at the position `at_` where the trap names one: its frame is saved and it is counted. -/
def trapEntry (d : Dev) (e code : Nat) (at_ : Option (Bool × Nat)) : Dev :=
  match d.burst e with
  | none => trapCount d e code
  | some b =>
    let r := match b.micro with
      | some m => (m, d)
      | none => stdMicro d b at_
    trapCount (r.2.modEngine e fun x => { x with frame := frameOf b r.1 }) e code

/-- R71, R94: a device fault ends the burst; the vectors emitted before it stand. -/
def deviceFault (d : Dev) (e code : Nat) : Dev :=
  match d.burst e with
  | none => d
  | some b => if b.fin.isSome then d
    else setBurst d e { b.issuedOnly with wait := none, micro := none, fin := some (.fault code 0 false) }

/-- R80: a word with a reserved encoding issues. -/
def cstoreField (d : Dev) (e : Nat) : Dev := deviceFault (trapEntry d e 0x05 none) e 0x22

/-! ### Running -/

/-- R71: what a user routine has emitted and the yoke has not passed on is withdrawn: its instruction faults (DEDUCED, log 28). -/
def withdrawn (b : Burst) (m : Micro) : Burst :=
  let q := b.queue.take (b.queue.length - min m.emitted b.engineSide)
  let gone := b.queue.drop q.length
  { b.takeBack (vectorsIn gone) with queue := q, next := b.next - numberedIn gone, image := m.image0, micro := none }

/-- What an issued word leaves beside the burst: its entry, its requests, a redirect into the lining (R94), ENG_STAT.LINING (R103); and at
the end of a streamed routine its words are done (R68). -/
def wordDone (d : Dev) (e : Nat) (b : Burst) (m : Micro) (w : UWord) (b' : Burst) : Dev :=
  let last := readUpTo d e b m w (Config.freeNat d.freeIdx % 2 ^ 64)
  let d := readsDone d ((directLines d b m.pay (last - m.pay)).map fun a => (a, d.dram.poisoned a))
  let d := microLedger { d with freeIdx := d.freeIdx + 1 } e b m w
  let d := d.set (.ENG_STAT e) 27 27 m.lining.toNat
  let d := d.onlyIf (bits w 155 153 = 6 && b'.micro.any (·.lining)) (trapCount · e 0x02)
  let b' := microMark m w b'
  let d := if b.inStream ∧ b'.micro = none then streamDone d e b b' last else setBurst d e b'
  microRequest d e b m w

/-- R76: an engine cycle, 1.25 ns. -/
def engineCycle : Nat := 1250 * 2 ^ 45

/-- R99: the words a service routine has issued by a time. -/
def ServiceRun.issued (r : ServiceRun) (now : Nat) : Nat := r.done + (match r.since with | some t => (now - t) / engineCycle | none => 0)

/-- R99: the service routines of an engine, the innermost running since a time: one that has issued its last word is gone, and the one
it interrupted resumes there. -/
def serviceFrom (now : Nat) : Option Nat → List ServiceRun → List ServiceRun
  | _, [] => []
  | none, l => l
  | some t, r :: rs =>
    let stop := t + (r.words - r.done) * engineCycle
    if now < stop then { r with since := some t } :: rs else serviceFrom now (some stop) rs

/-- R99: the service routines of an engine at a time. -/
def serviceAt (now : Nat) (l : List ServiceRun) : List ServiceRun := serviceFrom now (l.head?.bind (·.since)) l

/-- R99: an interrupt stops the service routine in progress before its next word. -/
def pauseService (d : Dev) (e : Nat) : Dev :=
  d.modEngine e fun x => { x with service := match serviceAt d.now x.service with
    | [] => []
    | r :: rs => { r with done := r.issued d.now, since := none } :: rs }

/-- R94, R99: a service routine begins; what it does, and how many words it has, no rule states (DESIGN CHOICE, log 27). -/
def beginService (d : Dev) (e : Nat) : Dev :=
  let d := pauseService (trapCount d e 0x08) e
  let words := Config.freeNat d.freeIdx
  ({ d with freeIdx := d.freeIdx + 1 } : Dev).modEngine e fun x => { x with
    serviceReq := x.serviceReq - 1, service := { words, since := some d.now } :: x.service }

/-- R94: a service request that waits is taken at the next word of a routine in progress: a service routine (Table 3.3). -/
def takesService (d : Dev) (e : Nat) (m : Micro) : Bool := (d.engine e).serviceReq ≠ 0 && bit (d.dirEntry e m.routine) 29

/-- R97: whether an interrupt may fall before the next word of a routine in progress: at a safe point, after 1,024 cycles without one, or
anywhere in a service routine. -/
def wordBoundary (d : Dev) (e : Nat) (m : Micro) : Bool := m.safe || decide (1024 ≤ m.cycles) || bit (d.dirEntry e m.routine) 29

/-- R94, R97, R98: the next word does not issue: a host abort that has reached the engine is taken before it, or a service routine runs. -/
def wordsStop (d : Dev) (e : Nat) (b : Burst) (m : Micro) : Bool :=
  (abortReached d e b && wordBoundary d e m) || !(serviceAt d.now (d.engine e).service).isEmpty

/-- Microwords of a routine in progress issue, `n` of them at most. -/
def runWords (d : Dev) (e : Nat) : Nat → Dev
  | 0 => d
  | n + 1 =>
    match d.burst e with
    | none => d
    | some b =>
      match b.micro with
      | none => d
      | some m =>
        let w := nextWord d e m
        if b.fin.isSome ∨ b.room (d.yokeFenced b.site) < bits w 131 129 ∨ wordsStop d e b m then d
        else if takesService d e m then beginService d e
        else if reservedWord m.lining w then d
        else if bit w 57 ∧ b.stopEvent.isSome then maskStop d e b
        else match issueWord d e b m w (Config.freeNat d.freeIdx % 2 ^ 64) with
          | .error (.code c) => programFault d e (withdrawn b m) c b.pc b.inStream
          | .error .busy => fetchStall d e b
          | .error .dry => fetchStall d e b
          | .error _ => d
          | .ok b' => runWords (wordDone d e b m w b') e n

/-- R80: a routine begins at the first word of its form. -/
def beginMicro (d : Dev) (e k : Nat) (b : Burst) (h : Word64) (extWords : Nat) : Burst :=
  let st := startMicro d e k
  { b with micro := some {
      routine := k, lining := st.1, upc := st.2, ts := headerTs b h, hdr := h, extWords, next0 := b.next, image0 := b.image } }

/-- R69: UOP starts its routine, whose words then issue; a routine in progress goes on. -/
def startUop (d : Dev) (b : Burst) (h : Word64) (_pc : Nat) (e : Nat) : Except Stop Burst :=
  let n := hImm h % 256
  match userRoutine d e n with
  | none => .error (.code fcUopAbsent)
  | some u => if userAbsent d e n then .error (.code fcUopAbsent) else .ok (beginMicro d e (64 + n) b h u.extWords)

/-- R110: whether a host has changed the word at a position of a form, or has put a word where the package has none. -/
def changedAt (d : Dev) (e : Nat) (lining : Bool) (p : Nat × Nat) : Bool :=
  if lining then
    let n := bits (d.mpWord e p.1) 12 0 + p.2
    (((d.engine e).mptr.get none p.1).any fun w => decide (6144 ≤ p.1) || w ≠ d.stdP p.1) ||
      (d.nano.get none n).any fun w => decide (6144 ≤ n) || w ≠ d.stdN n
  else ((d.engine e).hstore.get none p.1).any fun w => decide (3072 ≤ p.1) || w ≠ d.stdH p.1

/-- R110: whether a host has changed any word of the standard region of a form. -/
def changedForm (d : Dev) (e : Nat) (lining : Bool) : Bool :=
  if lining then
    ((d.engine e).mptr.cells.any fun c => decide (c.1 < 6144) && changedAt d e true (c.1, 0)) ||
      d.nano.cells.any fun c => decide (c.1 < 6144) && c.2.any fun w => w ≠ d.stdN c.1
  else (d.engine e).hstore.cells.any fun c => decide (c.1 < 3072) && changedAt d e false (c.1, 0)

/-- The positions to which a word of a routine can pass control within the routine (Table 3.1, SEQ). -/
def wordFollows (d : Dev) (e : Nat) (m : Micro) : List (Nat × Nat) :=
  let w := nextWord d e m
  match bits w 155 153 with
  | 0 | 7 => [seqNext d e m]
  | 1 | 3 => [seqNext d e m, branchTo d e m w]
  | 2 => [branchTo d e m w]
  | _ => []

/-- The positions that can be reached from some, those seen already beside them. -/
def reachable (next : Nat × Nat → List (Nat × Nat)) : Nat → List (Nat × Nat) → List (Nat × Nat) → List (Nat × Nat)
  | 0, _, seen => seen
  | _, [], seen => seen
  | n + 1, p :: l, seen => if seen.contains p then reachable next n l seen else reachable next n (next p ++ l) (p :: seen)

/-- R110: whether a host has rewritten a word that the routine of an opcode can come to, or its directory entry: the routine is then what its
words make of it (DEDUCED, log 186). -/
def rewritten (d : Dev) (e k : Nat) : Bool :=
  let st := startMicro d e k
  let at_ (p : Nat × Nat) : Micro := { routine := k, lining := st.1, upc := p.1, run := p.2 }
  changedAt d e st.1 (st.2, 0) || ((d.engine e).dir.get none k).any (· ≠ d.stdDir k) ||
    (changedForm d e st.1 && (reachable (fun p => wordFollows d e (at_ p)) (2 ^ 22) [(st.2, 0)] []).any (changedAt d e st.1))

/-- An engine executes the Asell instruction at its program counter when that is `op`; an undefined opcode there faults,
and another opcode is left to its own command (DEDUCED, log 24). -/
def runOpcode (d : Dev) (e op : Nat) (run : Dev → Burst → Word64 → Nat → Except Stop Burst) : Dev :=
  match readyBurst d e with
  | none => d
  | some b =>
    match fetchWord d b b.pc with
    | .error (.code c) => programFault d e b c b.pc b.inStream
    | .error _ => d
    | .ok h =>
      if opcodeAbsent d e (hOpc h) then programFault d e b fcOpcode b.pc b.inStream
      else if hOpc h ≠ op then d
      else match opRow op with
        | none => d
        | some row =>
          if runsLining d e op ∧ !b.redirected then d
          else if headerField row h then programFault d e b fcField b.pc b.inStream
          else if rewritten d e op then runWords (setBurst d e (beginMicro d e op b h (extWords h))) e 1024
          else finishInstr d e b h (run d b h (b.pc + 1))

end Sys2Proof.Machine
end

