-- ==== Sys2Proof/Machine/Asell.lean ====
section
/-! DEFINITION. Meanings of the Asell instructions, one command each, and of the ends of their waits
(02_asell_programs.md R44 to R70). -/
namespace Sys2Proof.Machine

/-! ### Instructions -/

/-- R81: a single-bit control-store error is corrected as the word is read, and counted.
Stores: 0 horizontal, 1 nano-store, 2 micro-pointer store, 3 directory. -/
def cstoreCorrected (d : Dev) (e store addr : Nat) : Dev :=
  let d := ((d.raise (.ENG_CSERR e) 30).countUp (.ENG_CSERR e) 27 20 1).set (.ENG_CSERR e) 29 28 store
  rasReport (d.set (.ENG_CSERR e) 12 0 addr) (if store = 0 then 0x01 else 0x02) sevCorrected 8 addr 0 (some e) none

/-- The corrected error a command's control-store read meets, if any. -/
def withCorrected (d : Dev) (e : Nat) (c : Option (Fin 4 × Fin 8192)) : Dev :=
  match c with
  | none => d
  | some (s, a) => cstoreCorrected d e s a

/-- VEC (R47, R48); `corr` is a single-bit error corrected in a word of its routine (R81). -/
def execVec (e : Fin 16) (corr : Option (Fin 4 × Fin 8192)) (s : State) : Host.Outcome State Fault Refusal :=
  act s fun d => runOpcode (withCorrected d e corr) e 0x01 rVec

/-- RPT (R47). -/
def execRpt (e : Fin 16) (s : State) : Host.Outcome State Fault Refusal := act s fun d => runOpcode d e 0x02 rRpt

/-- LOOP (R49). -/
def execLoop (e : Fin 16) (s : State) : Host.Outcome State Fault Refusal := act s fun d => runOpcode d e 0x04 rLoop

/-- ENDL (R49, R235). -/
def execEndl (e : Fin 16) (s : State) : Host.Outcome State Fault Refusal := act s fun d => runOpcode d e 0x05 rEndl

/-- CALL (R51). -/
def execCall (e : Fin 16) (s : State) : Host.Outcome State Fault Refusal := act s fun d => runOpcode d e 0x06 rCall

/-- RET (R51). -/
def execRet (e : Fin 16) (s : State) : Host.Outcome State Fault Refusal := act s fun d => runOpcode d e 0x07 rRet

/-- JMP (R50). -/
def execJmp (e : Fin 16) (s : State) : Host.Outcome State Fault Refusal := act s fun d => runOpcode d e 0x08 rJmp

/-- JIF (R55, R56). -/
def execJif (e : Fin 16) (s : State) : Host.Outcome State Fault Refusal := act s fun d => runOpcode d e 0x09 rJif

/-- MATCH (R58). -/
def execMatch (e : Fin 16) (s : State) : Host.Outcome State Fault Refusal := act s fun d => runOpcode d e 0x0A rMatch

/-- WAITT (R60). -/
def execWaitt (e : Fin 16) (s : State) : Host.Outcome State Fault Refusal := act s fun d => runOpcode d e 0x0B rWaitt

/-- TSET (R63). -/
def execTset (e : Fin 16) (s : State) : Host.Outcome State Fault Refusal := act s fun d => runOpcode d e 0x0C rTset

/-- CAPON (R64). -/
def execCapon (e : Fin 16) (s : State) : Host.Outcome State Fault Refusal := act s fun d => runOpcode d e 0x0D rCapon

/-- CAPOFF (R64). -/
def execCapoff (e : Fin 16) (s : State) : Host.Outcome State Fault Refusal := act s fun d => runOpcode d e 0x0E rCapoff

/-- TRIG (R65). -/
def execTrig (e : Fin 16) (s : State) : Host.Outcome State Fault Refusal := act s fun d => runOpcode d e 0x0F rTrig

/-- WAVE (R65). -/
def execWave (e : Fin 16) (s : State) : Host.Outcome State Fault Refusal := act s fun d => runOpcode d e 0x10 rWave

/-- MARK (R66). -/
def execMark (e : Fin 16) (s : State) : Host.Outcome State Fault Refusal := act s fun d => runOpcode d e 0x11 rMark

/-- STREAM (R67). -/
def execStream (e : Fin 16) (s : State) : Host.Outcome State Fault Refusal := act s fun d => runOpcode d e 0x12 rStream

/-- HALT (R70). -/
def execHalt (e : Fin 16) (s : State) : Host.Outcome State Fault Refusal := act s fun d => runOpcode d e 0x3F rHalt

/-- R69, R94: a user routine that starts in the lining is a redirect of code 0x02. -/
def uopRedirect (d : Dev) (e : Nat) : Dev :=
  match (d.burst e).bind (·.micro) with
  | some m => if m.lining then (trapCount d e 0x02).set (.ENG_STAT e) 27 27 1 else d
  | none => d

/-- UOP (R69): the routine starts, or a routine in progress goes on, and at most `words` microwords issue. -/
def execUop (e : Fin 16) (words : Nat) (s : State) : Host.Outcome State Fault Refusal :=
  act s fun d =>
    if ((d.burst e).bind (·.micro)).isSome then runWords d e words
    else runWords (uopRedirect (runOpcode d e 0x13 fun d b h pc => startUop d b h pc e) e) e words

/-! ### Ends of waits -/

/-- The first run of a kind in a queue, changed by `f`; none removes it. -/
def editRun (k : VKind) (f : VecRun → Option VecRun) : List VecRun → List VecRun
  | [] => []
  | r :: rs => if r.kind = k ∧ r.ongoing then (match f r with | none => rs | some r' => r' :: rs) else r :: editRun k f rs

/-- What a resolved transfer gives is stored; its fault is found after the vectors emitted, which stand (R71). -/
def resolved (d : Dev) (e : Nat) (b : Burst) (at_ : Nat) (r : Except Stop Burst) : Dev :=
  match r with
  | .ok b' => setBurst d e b'
  | .error (.code c) => programFault d e b c at_ b.inStream
  | .error _ => setBurst d e b

/-- The copies of a synchronised JIF's vector that are emitted and not released. -/
def copiesLeft (q : List VecRun) : Nat := vectorsIn (q.filter fun r => r.kind = .settle && r.ongoing)

/-- R56: the branch of a synchronised JIF resolves; `extra` settle copies are emitted by then and not yet released: as many at most as the
buffers have taken, and as many at least as have passed the yoke (DESIGN CHOICE, log 5). -/
def jifResolve (d : Dev) (e extra : Nat) : Dev :=
  match d.burst e with
  | none => d
  | some b => match b.wait with
    | some (.jif j h at_ next copies) =>
      if b.returned < j ∨ b.fin.isSome then d
      else
        let n := copiesLeft b.queue
        let x := if copies then max (min extra n) (n - b.engineSide) else 0
        let b := { b.takeBack (n - x) with
          wait := none, settles := 0
          queue := editRun .settle (fun r => if x = 0 then none else some { r with count := x, ongoing := false }) b.queue }
        let settles := ((d.burst e).map (·.settles)).getD 0 + x
        let d := ledger d 0x0B ucEvent b.site 0 d.now 0 j settles
        let hi := (j : Int) - 1
        resolved d e b at_ (jifTransfer b h at_ next hi (condHolds d b hi h))
    | _ => d

/-- JIF_SYNC_RESOLVE (R56). -/
def execJifSyncResolve (e : Fin 16) (extra : Nat) (s : State) : Host.Outcome State Fault Refusal :=
  act s fun d => jifResolve d e extra

/-- The repetitions of a MATCH that are emitted and not released, cut to `k` (DEDUCED, log 37). -/
def cutMatch (k : Nat) : List VecRun → List VecRun
  | [] => []
  | r :: rs => if r.kind = .matchRep then (if k = 0 then rs else { r with count := k } :: rs) else r :: cutMatch k rs

/-- The repetitions of a MATCH that are not released. -/
def matchLeft (q : List VecRun) : Nat := ((q.filter (·.kind = .matchRep)).map (·.count)).sum

/-- R59, Table 2.7: whether a MATCH jumps. -/
def matchJumps (h : Word64) (hit : Bool) : Bool :=
  if hFlag h 1 then false else hit == hFlag h 0

/-- R59: a MATCH of at most `t` repetitions ends with `k` emitted: MATCHED, its ledger entry, its transfer. One in streamed code transfers within the stream, by the stream's word positions (DEDUCED, log 207). -/
def matchFinish (d : Dev) (e : Nat) (b : Burst) (first t k : Nat) (h : Word64) (at_ next : Nat) (hit : Option Nat) : Dev :=
  let left := k - (t - matchLeft b.queue)
  let b := { b.takeBack (matchLeft b.queue - left) with wait := none, matchHit := none, matched := hit.isSome, next := first + k, queue := cutMatch left b.queue, reps := b.reps ++ [(first, k)], repEvents := [] }
  let d := if hFlag h 2 then
      ledger d 0x06 ucEvent b.site 0 d.now 0 ((if hit.isSome then 0 else 2 ^ 63) + (hit.getD (first + k - 1)) % 2 ^ 48) (k % 2 ^ 40)
    else d
  resolved d e b at_ (if matchJumps h hit.isSome then (do
    let t ← relTarget b at_ (hImm h)
    return { b with pc := t }) else .ok { b with pc := next })

/-- R58: a MATCH ends on its first matching repetition, with `emitted` repetitions emitted by then, as many at most as have issued and at
least as have passed the yoke (DESIGN CHOICE, log 5), or on its timeout. -/
def matchEnd (d : Dev) (e emitted : Nat) : Dev :=
  match d.burst e with
  | none => d
  | some b => match b.wait with
    | some (.matching first t h at_ next) =>
      if b.fin.isSome then d
      else match b.matchHit with
        | some v =>
          let k := min (t - b.unissued) (max emitted (max (v - first + 1) (t - min (matchLeft b.queue) b.engineSide)))
          matchFinish d e b first t k h at_ next (some v)
        | none => if b.returned ≥ first + t then matchFinish d e b first t t h at_ next none else d
    | _ => d

/-- MATCH_END (R59) (DESIGN CHOICE, log 6). -/
def execMatchEnd (e : Fin 16) (emitted : Nat) (s : State) : Host.Outcome State Fault Refusal :=
  act s fun d => matchEnd d e emitted

/-- R61: the target of a WAITT in half-picoseconds. -/
def waitHalf (b : Burst) (relative : Bool) (t : Nat) : Nat :=
  if relative then b.start.getD 0 + toHalf t else toHalf t

/-- R61, R62: whether the pads of a WAITT have been released up to its end (DEDUCED, log 23). -/
def waitOver (b : Burst) : Bool :=
  match b.wait with
  | some (.time rel t) => b.waitFirst.isSome && decide (waitHalf b rel t ≤ b.nextT0)
  | some (.event _ _ (some g)) => b.waitFirst.isSome && decide (g + 40 * nano1 ≤ b.nextT0 * halfPs)
  | _ => false

/-- R61: a WAITT whose target lay before the end of its one pad. -/
def waitLate (b : Burst) : Bool :=
  match b.wait, b.waitFirst with
  | some (.time rel t), some f => decide (waitHalf b rel t < f + b.lastPeriod)
  | _, _ => false

/-- R61, R62: the next vector starts: the pad ends, WAITT_LATE is recorded, and the engine goes on. -/
def waittReached (d : Dev) (e : Nat) : Dev :=
  match d.burst e with
  | none => d
  | some b =>
    if !waitOver b then d
    else
      let d := if waitLate b then ledger d 0x0C ucExact b.site 0 (b.nextT0 * halfPs) 0 (b.next % 2 ^ 48) 0 else d
      setBurst d e { b.popQuad with wait := none, waitFirst := none, queue := editRun .waitPad (fun _ => none) b.queue }

/-- When a WAITT's next vector falls due. -/
def waittDue (d : Dev) (e : Nat) : Option Nat :=
  (d.burst e).bind fun b => if waitOver b then some (b.nextT0 * halfPs) else none

/-- WAITT_TARGET_REACHED (R61). -/
def execWaittTargetReached (e : Fin 16) (s : State) : Host.Outcome State Fault Refusal :=
  actAt s (waittDue s.dev e) fun d => waittReached d e

/-- The deadline of a WAITT for an event that has not arrived (R62). -/
def waittDeadline (d : Dev) (e : Nat) : Option Nat :=
  match (d.burst e).bind (·.wait) with
  | some (.event _ dl none) => dl
  | _ => none

/-- R62: the timeout elapses first: the next vector follows in the same way, and an entry is written. -/
def waittTimeout (d : Dev) (e : Nat) : Dev :=
  match d.burst e with
  | none => d
  | some b => match b.wait with
    | some (.event n (some dl) none) =>
      setBurst (ledger d 0x0D ucEvent b.site 0 dl n (b.next % 2 ^ 48) 0) e { b with wait := some (.event n (some dl) (some dl)) }
    | _ => d

/-- WAITT_TIMEOUT (R62). -/
def execWaittTimeout (e : Fin 16) (s : State) : Host.Outcome State Fault Refusal :=
  actAt s (waittDeadline s.dev e) fun d => waittTimeout d e

end Sys2Proof.Machine
end

