-- ==== Sys2Proof/Machine/Traps.lean ====
section
/-! DEFINITION. Meanings of the engine's traps and interrupts, and of the control-store windows
(03_engines_and_microcode.md R81, R86 to R100, R110). -/
namespace Sys2Proof.Machine

/-! ### Traps -/

/-- ENG_CSERR records an uncorrectable error of a store (R105), and the RAS block has its report (R477). -/
def cstoreUncorrected (d : Dev) (e store addr : Nat) : Dev :=
  let d := ((d.raise (.ENG_CSERR e) 31).set (.ENG_CSERR e) 29 28 store).set (.ENG_CSERR e) 12 0 addr
  let sites := match d.burst e with | some b => 2 ^ b.site | none => 0
  rasReport d (if store = 0 then 0x01 else 0x02) sevContained 8 addr sites (some e) none

/-- R88: a word waits for its repair; the routine of a horizontal word runs from its lining form until then. -/
def needRepair (d : Dev) (e store addr k : Nat) : Dev :=
  d.modEngine e fun x => { x with
    repairs := x.repairs ++ [(store, addr, k)]
    liningOnly := if store ≠ 0 ∨ x.liningOnly.contains k then x.liningOnly else k :: x.liningOnly }

/-- The routine an engine executes or is about to dispatch: one in progress word by word, the opcode whose words wait or stall, else the
next opcode. -/
def routineNow (d : Dev) (e : Nat) : Option Nat :=
  match d.burst e with
  | none => none
  | some b => match b.micro with
    | some m => some m.routine
    | none =>
      if b.fin.isNone ∧ (b.wait.isSome ∨ b.unissued ≠ 0) then some b.op
      else match boundaryBurst d e with
        | none => none
        | some b => match fetchWord d b b.pc with
          | .ok h => some (hOpc h)
          | .error _ => none

/-- R86, R96: the position in the lining that the twin map of a routine names for a horizontal word: an entry's micro-pointer, relative to the
routine's first, stands from bit 8 up, and its run offset in [7:0] (DESIGN CHOICE, log 219). -/
def twinOf (d : Dev) (e k addr : Nat) : Nat × Nat :=
  let t := if k < 64 then Config.stdTwin d.trust.pkgDigest addr
    else match userRoutine d e (k - 64) with
      | none => 0
      | some u => (u.twin[addr - u.hAddr.getD 0]?).getD 0
  (mpBase d e k + t / 256 % 8192, t % 256)

/-- R96: the micro-state goes on in the lining: its position and the returns of its micro stack are those of their twins (DEDUCED, log 45). -/
def toTwin (d : Dev) (e : Nat) (m : Micro) : Micro :=
  let t := twinOf d e m.routine m.upc
  { m with lining := true, upc := t.1, run := t.2, stack := m.stack.map fun p => twinOf d e m.routine p.1 }

/-- R94, R96: a double-bit error in a horizontal word whose routine has a twin: the frame is saved, the routine is marked
lining-only, and execution resumes at the twin with nothing replayed. -/
def twinTrap (d : Dev) (e addr : Nat) : Dev :=
  match routineNow d e with
  | none => d
  | some k =>
    if runsLining d e k ∨ !bit (d.dirEntry e k) 28 then d
    else
      let d := needRepair (cstoreUncorrected (trapEntry d e 0x01 (some (false, addr))) e 0 addr) e 0 addr k
      let dispatching := (boundaryBurst d e).isSome
      let d := d.set (.ENG_STAT e) 27 27 1
      d.modBurst e fun b => match b.micro with
        | some m => { b with micro := some { toTwin d e m with cycles := m.cycles + 4 } }
        | none => if dispatching then { b with redirected := true } else b

/-- R95: a dispatch to a routine that runs from its lining form: no frame, counted in ENG_TRAP. -/
def liningRedirect (d : Dev) (e : Nat) : Dev :=
  match readyBurst d e with
  | none => d
  | some b => match fetchWord d b b.pc with
    | .error _ => d
    | .ok h =>
      if runsLining d e (hOpc h) ∧ !b.redirected then
        (trapCount (setBurst d e { b with redirected := true }) e 0x02).set (.ENG_STAT e) 27 27 1
      else d

/-- LINING_REDIRECT (R95). -/
def execLiningRedirect (e : Fin 16) (s : State) : Host.Outcome State Fault Refusal := act s fun d => liningRedirect d e

/-- R94, R100: whether the word about to execute consumes poisoned data. -/
def consumesPoison (d : Dev) (e : Nat) : Bool :=
  match boundaryBurst d e with
  | some b => match fetchWord d b b.pc with
    | .error .poison => true
    | .error _ => false
    | .ok h => hOpc h ≠ 0x13 && (routine (hOpc h) d b h (b.pc + 1) matches .error .poison)
  | none => match d.burst e with
    | some b => match b.micro with
      | some m => b.fin.isNone && (issueWord d e b m (nextWord d e m) 0 matches .error .poison)
      | none => false
    | none => false

/-- The vectors of a run that can be read before the first that cannot. -/
def readable (d : Dev) (b : Burst) (form : Nat) : Nat → Nat → Nat → BitVec 512 → List (BitVec 512) → List (BitVec 512)
  | 0, _, _, _, acc => acc.reverse
  | k + 1, i, pc, img, acc =>
    match (if form = 3 then (tableSlot d b pc i).map fun v => (v, pc) else readVector d b form pc img) with
    | .ok r => readable d b form k (i + 1) r.2 r.1 (r.1 :: acc)
    | .error _ => acc.reverse

/-- R100: the burst with the vectors that the words of a VEC before the one that consumes poisoned data have emitted, four to a word. -/
def beforePoison (d : Dev) (b : Burst) : Burst :=
  match fetchWord d b b.pc with
  | .error _ => b
  | .ok h =>
    if hOpc h ≠ 0x01 then b
    else
      let n := hImm h % 65536 + 1
      match (if hFlag h 0 then ptsSets d b (b.pc + 1) n else pure (List.replicate n (headerTs b h))) with
      | .error _ => b
      | .ok sets =>
        let l := readable d b (hForm h) n 0 (b.pc + 1 + extWords h) b.image []
        match emitList d (capOf b h) (l.take (l.length / 4 * 4)) sets b with
        | .ok b' => b'
        | .error _ => b

/-- R100: the trap ends the burst, whose program's earlier words have all issued or still find room (DESIGN CHOICE, log 5). -/
def poisonTrap (d : Dev) (e : Nat) : Dev :=
  match d.burst e with
  | none => d
  | some b =>
    let d := trapEntry (d.each (poisonLine d b).toList poisonRead) e 0x03 none
    if b.micro.isSome then deviceFault d e 0x20
    else setBurst d e { beforePoison d b with wait := none, fin := some (.fault 0x20 0 false) }

/-- POISON_TRAP (R100): the burst ends ABORTED_FAULT with DRAM_UNCORR. -/
def execPoisonTrap (e : Fin 16) (s : State) : Host.Outcome State Fault Refusal :=
  act s fun d => if consumesPoison d e then poisonTrap d e else d

/-- Where an error in a control store stands, as a trap frame has it. -/
def storePos (store addr : Nat) : Option (Bool × Nat) :=
  if store = 0 then some (false, addr) else if store = 2 then some (true, addr) else none

/-- R94: an uncorrectable control-store error: the burst ends with CSTORE_UNCORR. One in a horizontal word whose routine has a twin is a
trap of code 0x01 instead. -/
def cstoreTrap (d : Dev) (e store addr : Nat) : Dev :=
  match routineNow d e with
  | none => d
  | some k =>
    if store = 0 ∧ bit (d.dirEntry e k) 28 then d
    else needRepair (cstoreUncorrected (deviceFault (trapEntry d e 0x04 (storePos store addr)) e 0x21) e store addr) e store addr k

/-- R80: whether the word about to issue holds a reserved encoding. -/
def reservedNow (d : Dev) (e : Nat) : Bool :=
  match (d.burst e).bind (·.micro) with
  | some m => reservedWord m.lining (nextWord d e m)
  | none => false

/-- CSTORE_FIELD_TRAP (R80). -/
def execCstoreFieldTrap (e : Fin 16) (s : State) : Host.Outcome State Fault Refusal :=
  act s fun d => if reservedNow d e then cstoreField d e else d

/-! ### Interrupts -/

/-- R97: whether an interrupt may fall at the boundary an engine stands at: after the last word of a standard routine, or at a word it
reissues; in a user routine at a safe point, after 1,024 cycles without one, or anywhere in a service routine. A word that stalls on a full
quad FIFO has still to issue (R98). -/
def atSafePoint (d : Dev) (e : Nat) (b : Burst) : Bool :=
  (b.unissued = 0 || b.stopped || b.heldBack) && (match b.micro with
    | none => true
    | some m => wordBoundary d e m)

/-- R98: the engine takes a host abort at a safe point: it emits nothing more. A burst that has ended already is not affected. -/
def hostAbort (d : Dev) (e : Nat) : Dev :=
  if !(d.engine e).hostAbort ∨ d.seamFenced 32 ∨ (d.burst e).any fun b => b.fin.isNone && !atSafePoint d e b then d
  else
    let d := trapCount ((pauseService d e).modEngine e fun x => { x with hostAbort := false, armReq := false }) e 0x06
    let d := if d.engState e = 1 ∨ d.engState e = 2 then d.set (.ENG_STAT e) 31 28 5 else d
    match d.burst e with
    | none => d
    | some b => if b.fin.isSome then d else setBurst d e { b.issuedOnly with wait := none, micro := none, fin := some .abort }

/-- HOST_ABORT_INTERRUPT (R98). -/
def execHostAbortInterrupt (e : Fin 16) (s : State) : Host.Outcome State Fault Refusal := act s fun d => hostAbort d e

/-- R94, R99: an idle engine takes a service request that waits, and otherwise resumes the service routine that an interrupt stopped.
STATE is 0x7 while one runs (R103). -/
def resumeService (d : Dev) (e : Nat) : Dev :=
  if d.engState e ≠ 0 ∧ d.engState e ≠ 7 then d
  else
    let d := d.modEngine e fun x => { x with service := serviceAt d.now x.service }
    let x := d.engine e
    if x.serviceReq = 0 then match x.service with
      | [] => d.set (.ENG_STAT e) 31 28 0
      | r :: rs => (d.modEngine e fun x => { x with service := { r with since := some (r.since.getD d.now) } :: rs }).set (.ENG_STAT e) 31 28 7
    else (beginService d e).set (.ENG_STAT e) 31 28 7

/-- R94: an arming request: the engine begins arming (ENG_STAT.STATE 0x2), and its prefetcher begins. A host abort that waits is taken first (DEDUCED, log 67). -/
def armingRequest (d : Dev) (e : Nat) : Dev :=
  if (d.engine e).armReq ∧ !(d.engine e).hostAbort then
    prefetch ((trapCount ((pauseService d e).modEngine e fun x => { x with armReq := false }) e 0x07).set (.ENG_STAT e) 31 28 2) e
  else d

/-- ARMING_REQUEST_INTERRUPT (R94). -/
def execArmingRequestInterrupt (e : Fin 16) (s : State) : Host.Outcome State Fault Refusal := act s fun d => armingRequest d e

/-- R94, R99: a service request, after the requests of the same boundary that Table 3.6 puts before it. An engine with a burst takes it at the
next word of a service routine, or when it is next idle. -/
def serviceRequest (d : Dev) (e : Nat) : Dev :=
  let d := d.modEngine e fun x => { x with serviceReq := x.serviceReq + 1 }
  if (d.engine e).armReq ∨ (d.engine e).hostAbort then d
  else match (d.burst e).bind (·.micro) with
    | some m => if takesService d e m then beginService d e else d
    | none => resumeService d e

/-- SERVICE_REQUEST_INTERRUPT (R99). -/
def execServiceRequestInterrupt (e : Fin 16) (s : State) : Host.Outcome State Fault Refusal := act s fun d => serviceRequest d e

/-! ### Control-store windows (R110) -/

/-- A staged word 0-4 of a window. -/
def stagedWord (t : Tbl Word) : Nat :=
  ((List.range 5).map fun i => (t.get 0 i).toNat * 2 ^ (32 * i)).sum

/-- R110: the microword that a write of 32-bit word 5 commits, CHECK computed. -/
def committedWord (t : Tbl Word) (v : Word) : UWord := withCheck (BitVec.ofNat 176 (stagedWord t + bits v 15 0 * 2 ^ 160))

/-- R110: a write into an engine's window at an offset. -/
def windowWrite (d : Dev) (e o : Nat) (v : Word) : Dev :=
  if o < 0x20000 then
    let i := o / 4 % 8
    if i < 5 then d.modEngine e fun x => { x with staged := x.staged.put 0 i v }
    else if i = 5 then d.modEngine e fun x => { x with hstore := x.hstore.put none (o / 32) (some (committedWord x.staged v)) }
    else d
  else if o < 0x28000 then
    d.modEngine e fun x => { x with mptr := x.mptr.put none ((o - 0x20000) / 4) (some (BitVec.ofNat 24 (bits v 23 0))) }
  else if o < 0x28500 then d.modEngine e fun x => { x with dir := x.dir.put none ((o - 0x28000) / 4) (some v) }
  else d

/-- R110: a write into the nano-store window at an offset. -/
def nanoWrite (d : Dev) (o : Nat) (v : Word) : Dev :=
  let i := o / 4 % 8
  if i < 5 then { d with nanoStaged := d.nanoStaged.put 0 i v }
  else if i = 5 then { d with nano := d.nano.put none (o / 32) (some (committedWord d.nanoStaged v)) }
  else d

/-- 32-bit word `i` of a microword. -/
def wordOf (w : UWord) (i : Nat) : Word := BitVec.ofNat 32 (if i < 6 then w.toNat / 2 ^ (32 * i) else 0)

/-- Table 3.7: the trap frame at an offset from 0x3_0000. -/
def frameRead (f : TrapFrame) (o : Nat) : Word :=
  BitVec.ofNat 32 (
    if o = 0 then f.upc else if o = 4 then f.depths
    else if 0x40 ≤ o ∧ o < 0x80 then (f.ctrs[(o - 0x40) / 4]?).getD 0
    else if 0x80 ≤ o ∧ o < 0xC0 then ((f.scr[(o - 0x80) / 8]?).getD 0) / 2 ^ (32 * (o / 4 % 2))
    else if o = 0xC0 then f.pay else if o = 0xC4 then f.pay / 2 ^ 32
    else if o = 0xC8 then f.reps else if o = 0xCC then f.reps / 2 ^ 32
    else if 0xD0 ≤ o ∧ o < 0xE0 then (f.stack[(o - 0xD0) / 4]?).getD 0
    else 0)

/-- R110: a read of a control-store window at a canonical address. -/
def storeRead (d : Dev) (a : Nat) : Word :=
  if a < 0x1800000 then
    let e := (a - 0x1000000) / 0x80000
    let o := a % 0x80000
    if o < 0x20000 then wordOf (d.hWord e (o / 32)) (o / 4 % 8)
    else if o < 0x28000 then BitVec.ofNat 32 (d.mpWord e ((o - 0x20000) / 4)).toNat
    else if o < 0x28500 then d.dirEntry e ((o - 0x28000) / 4)
    else if 0x30000 ≤ o then frameRead (d.engine e).frame (o - 0x30000)
    else 0
  else wordOf (d.nWord ((a - 0x1800000) / 32)) (a / 4 % 8)

/-- R110: a write of a control-store window at a canonical address. -/
def storeWrite (d : Dev) (a : Nat) (v : Word) : Dev :=
  if a < 0x1800000 then windowWrite d ((a - 0x1000000) / 0x80000) (a % 0x80000) v else nanoWrite d (a - 0x1800000) v

/-- R420, Table 12.3: the owner of engine n's block and of its user regions. -/
def Dev.engineOwner (d : Dev) (e : Nat) : Nat := if d.dispatched e then d.siteOwner (d.get (.ENG_STAT e) 19 16) else 0

/-- R420, Table 12.3: the owner of a control-store word, or none at a hole (R412). -/
def storeOwner (d : Dev) (a : Nat) : Option Nat :=
  if a < 0x1800000 then
    let e := (a - 0x1000000) / 0x80000
    let o := a % 0x80000
    if o < 0x20000 then some (if o / 32 < 3072 then 0 else d.engineOwner e)
    else if o < 0x28000 then some (if (o - 0x20000) / 4 < 6144 then 0 else d.engineOwner e)
    else if o < 0x28500 then some (if (o - 0x28000) / 4 < 64 then 0 else d.engineOwner e)
    else none
  else
    let i := (a - 0x1800000) / 32
    some (if i < 6144 then 0 else d.engineOwner ((i - 6144) / 128))

end Sys2Proof.Machine
end

