-- ==== Sys2Proof/Machine/Pins.lean ====
section
/-! DEFINITION. Timing sets, the release of vectors, drive edges and strobe windows (04_timing_sets_and_edges.md). -/
namespace Sys2Proof.Machine

/-! ### Staging and validation (R128 to R131, Table 4.5)

Offsets and periods are in half-picoseconds: 280 is 140 ps, 200 is 100 ps, 128000 is 64 ns. -/

/-- The staged offset of an edge of a channel in a set (R143). -/
def Dev.stagedEdge (d : Dev) (c t g : Nat) : Nat := d.get (.CUF_EDGE_HI c t g) 4 0 * 2 ^ 32 + d.get (.CUF_EDGE_LO c t g) 31 0

/-- The staged entry of a channel in a set. -/
def Dev.stagedChan (d : Dev) (c t : Nat) : ChanSet :=
  { fmt := d.get (.CUF_FMT c t) 2 0, edges := (List.range 6).map fun g => d.stagedEdge c t g }

/-- The staged period of a site's set, P in half-picoseconds (R111, R148). -/
def Dev.stagedPeriod (d : Dev) (s t : Nat) : Nat := d.get (.CUF_PERIOD_HI s t) 3 0 * 2 ^ 32 + d.get (.CUF_PERIOD_LO s t) 31 0 + 1

/-- The offset of an edge (Table 4.1). -/
def ChanSet.edge (x : ChanSet) (g : Nat) : Nat := (x.edges[g]?).getD 0

def fmtOff : Nat := 0
def fmtSbc : Nat := 4
def fmtDnrz : Nat := 5

/-- Table 4.4, R125: the drive edges a format uses; `odd` says that the channel is 2k + 1 of a DNRZ pair. -/
def driveEdges (fmt : Nat) (odd : Bool) : List Nat :=
  match fmt with
  | 0 => []
  | 1 => [0, 1, 3]
  | 2 | 3 | 4 => [0, 1, 2, 3]
  | 5 => if odd then [1] else [0, 1, 3]
  | _ => []

/-- Edges that a format uses, with the strobe edges (R121). -/
def usedEdges (fmt : Nat) (odd : Bool) : List Nat := if fmt = fmtOff then [] else driveEdges fmt odd ++ [4, 5]

/-- What a failing check reports: code, channel and edge (Table 4.5). -/
structure SetFault where
  code : Nat
  chan : Nat
  edge : Nat
deriving DecidableEq, Repr

/-- The entries of the channels of a snapshot. -/
def snapOf (l : List (Nat × ChanSet)) (c : Nat) : ChanSet := ((l.find? (·.1 = c)).map (·.2)).getD {}

/-- R123: PAIRING of a channel. A pair is taken at channel 2k. -/
def pairingFault (paired : Bool) (l : List (Nat × ChanSet)) (c : Nat) : Bool :=
  let x := snapOf l c
  if !paired then x.fmt = fmtDnrz
  else
    let y := snapOf l (c / 2 * 2 + (1 - c % 2))
    c % 2 = 0 && !((x.fmt = fmtDnrz && y.fmt = fmtDnrz) || (x.fmt = fmtOff && y.fmt = fmtOff))

/-- R115: the first used edge out of range. -/
def rangeFault (per : Nat) (c : Nat) (x : ChanSet) : Option Nat :=
  ((usedEdges x.fmt (c % 2 = 1)).filter fun g => min (2 * per) (per + 128000) ≤ x.edge g).head?

/-- ORDER of a channel that is no member of a pair: the later edge of the first failing condition. -/
def orderFault (x : ChanSet) : Option Nat :=
  let don := x.edge 0
  let dat := x.edge 1
  let ret := x.edge 2
  match x.fmt with
  | 1 => if dat = don ∨ don + 280 ≤ dat then none else some 1
  | 2 | 3 => if !(dat = don ∨ don + 280 ≤ dat) then some 1 else if ret < dat + 280 then some 2 else none
  | 4 => if dat < don + 280 then some 1 else if ret < dat + 280 then some 2 else none
  | _ => none

/-- ORDER of a DNRZ pair: channel offset from 2k, and edge. -/
def pairOrderFault (x y : ChanSet) : Option (Nat × Nat) :=
  if !(x.edge 1 = x.edge 0 ∨ x.edge 0 + 280 ≤ x.edge 1) then some (0, 1)
  else if y.edge 1 < x.edge 1 + 280 then some (1, 1) else none

/-- The last of a list of (channel, edge, offset) with the largest offset. -/
def latest : List (Nat × Nat × Nat) → Nat × Nat × Nat
  | [] => (0, 0, 0)
  | x :: xs => let y := latest xs; if y.2.2 < x.2.2 ∨ xs = [] then x else y

/-- SUCCESSION over drive edges given as (channel, edge, offset), ties to the one listed last. -/
def spanFault (per : Nat) (l : List (Nat × Nat × Nat)) : Option (Nat × Nat) :=
  let top := latest l
  let low := l.foldl (fun m x => min m x.2.2) top.2.2
  if l ≠ [] ∧ per < top.2.2 - low + 280 then some (top.1, top.2.1) else none

/-- The drive edges of a channel, or of the pair whose channel 2k it is; at equal offsets channel 2k + 1 counts before
channel 2k, and a higher index before a lower. -/
def spanOf (l : List (Nat × ChanSet)) (c : Nat) : List (Nat × Nat × Nat) :=
  let x := snapOf l c
  let own := (driveEdges x.fmt false).map fun g => (c, g, x.edge g)
  if x.fmt = fmtDnrz then own ++ [(c + 1, 1, (snapOf l (c + 1)).edge 1)] else own

/-- WINDOW of a channel. -/
def windowFault (per : Nat) (x : ChanSet) : Bool :=
  x.fmt ≠ fmtOff && (x.edge 5 < x.edge 4 + 200 || x.edge 4 + per < x.edge 5)

/-- The first channel with a fault. -/
def firstChan (l : List (Nat × ChanSet)) (code : Nat) (f : Nat → ChanSet → Option (Nat × Nat)) : Option SetFault :=
  (l.filterMap fun p => (f p.1 p.2).map fun r => { code, chan := r.1, edge := r.2 }).head?

/-- Whether a channel is 2k + 1 of a DNRZ pair, which the checks take at channel 2k. -/
def oddOfPair (paired : Bool) (c : Nat) (x : ChanSet) : Bool := paired && x.fmt = fmtDnrz && c % 2 = 1

/-- Table 4.5: the first failing check of a snapshot. -/
def validate (paired : Bool) (per : Nat) (l : List (Nat × ChanSet)) : Option SetFault :=
  (if per < 625 then some { code := 1, chan := 0xFF, edge := 0xF } else none).orElse fun _ =>
  (firstChan l 2 fun c x => if x.fmt ≥ 6 then some (c, 0xF) else none).orElse fun _ =>
  (firstChan l 3 fun c _ => if pairingFault paired l c then some (c, 0xF) else none).orElse fun _ =>
  (firstChan l 4 fun c x => (rangeFault per c x).map fun g => (c, g)).orElse fun _ =>
  (firstChan l 5 fun c x =>
    if oddOfPair paired c x then none
    else if x.fmt = fmtDnrz then (pairOrderFault x (snapOf l (c + 1))).map fun r => (c + r.1, r.2)
    else (orderFault x).map fun g => (c, g)).orElse fun _ =>
  (firstChan l 6 fun c x => if oddOfPair paired c x then none else spanFault per (spanOf l c)).orElse fun _ =>
  (firstChan l 7 fun c x => if windowFault per x then some (c, 5) else none).orElse fun _ =>
  firstChan l 8 fun c x =>
    if x.fmt ≠ fmtDnrz ∨ c % 2 = 1 then none
    else
      let y := snapOf l (c + 1)
      if y.edge 4 < x.edge 5 then some (c, 5) else if x.edge 4 + per < y.edge 5 then some (c + 1, 5) else none

/-! ### Commits (R130 to R133) -/

/-- R130: the snapshot of set t for a site. -/
def snapshot (d : Dev) (s t : Nat) : Commit :=
  { set := t, period := d.stagedPeriod s t, chans := (d.site s).decl.list.map fun c => (c, d.stagedChan c t) }

/-- R130, R133: a write of CUF_TSCOMMIT. -/
def tsCommitWrite (s : Nat) (d : Dev) (w : Word) : Dev :=
  let t := bits w 5 0
  let d := d.store (.CUF_TSCOMMIT s) w
  if bit w 31 then
    if d.flag (.CUF_TSSTAT s) 31 then d.raise (.CUF_TSSTAT s) 28
    else ((d.modSite s fun x => { x with commit := some (snapshot d s t) }).set (.CUF_TSSTAT s) 27 22 t).raise (.CUF_TSSTAT s) 31
  else if bit w 30 then
    if d.siteDispatched s then d.raise (.CUF_TSSTAT s) 28
    else d.clear (.CUF_TSVALID s (t / 32)) (t % 32)
  else d

/-- TIMING_SET_COMMIT (R130): port `p` writes CUF_TSCOMMIT with GO. -/
def execTimingSetCommit (p : Fin 8) (site : Fin 16) (w : Word) (s : State) : Host.Outcome State Fault Refusal :=
  act s fun d => regCommand d p (.CUF_TSCOMMIT site) (setBit w 31 true) (tsCommitWrite site)

/-- TIMING_SET_INVALIDATE (R133): port `p` writes CUF_TSCOMMIT with INVAL and without GO. -/
def execTimingSetInvalidate (p : Fin 8) (site : Fin 16) (w : Word) (s : State) : Host.Outcome State Fault Refusal :=
  act s fun d => regCommand d p (.CUF_TSCOMMIT site) (setBit (setBit w 31 false) 30 true) (tsCommitWrite site)

/-- CUF_TSSTAT's CHANNEL, EDGE and CODE. -/
def tsReport (d : Dev) (s : Nat) (f : SetFault) : Dev :=
  ((d.set (.CUF_TSSTAT s) 15 8 f.chan).set (.CUF_TSSTAT s) 7 4 f.edge).set (.CUF_TSSTAT s) 3 0 f.code

/-- R132: a snapshot becomes the active copy. -/
def applyCommit (d : Dev) (s : Nat) (x : Commit) : Dev :=
  let d : Dev := { d with periods := d.periods.put 0 (64 * s + x.set) x.period }
  let d := d.each x.chans fun d p => { d with chanSets := d.chanSets.put {} (64 * p.1 + x.set) p.2 }
  let d := tsReport (d.modSite s fun y => { y with commit := none }) s { code := 0, chan := 0xFF, edge := 0xF }
  ((d.raise (.CUF_TSVALID s (x.set / 32)) (x.set % 32)).outcome (.CUF_TSSTAT s) 30 29).clear (.CUF_TSSTAT s) 31

/-- R131, R132: validation ends: the commit is rejected, applied, or waits for its apply point (DEDUCED, log 65). -/
def validationEnd (d : Dev) (s : Nat) : Dev :=
  match (d.site s).commit with
  | none => d
  | some x =>
    if x.applyAt.isSome then d
    else match validate (d.site s).decl.paired x.period x.chans with
      | some f =>
        (((tsReport d s f).modSite s fun y => { y with commit := none }).outcome (.CUF_TSSTAT s) 29 30).clear (.CUF_TSSTAT s) 31
      | none =>
        if d.tsValid s x.set ∧ d.siteDispatched s then
          d.modSite s fun y => { y with commit := some { x with applyAt := some (d.now + 100 * nano1) } }
        else applyCommit d s x

/-- TIMING_SET_VALIDATION_END (R131). -/
def execTimingSetValidationEnd (site : Fin 16) (s : State) : Host.Outcome State Fault Refusal :=
  act s fun d => validationEnd d site

/-- R132: at the first T0 at or after the apply point the cuffs switch. -/
def switchSets (d : Dev) (s t0 : Nat) : Dev :=
  match (d.site s).commit with
  | some x => match x.applyAt with
    | some a => if a ≤ t0 * halfPs then applyCommit d s x else d
    | none => d
  | none => d

/-- R132: a commit that waits applies at the end of the burst. -/
def switchAtEnd (d : Dev) (s : Nat) : Dev :=
  match (d.site s).commit with
  | some x => if x.applyAt.isSome then applyCommit d s x else d
  | none => d

/-- R132: a commit that waits applies once no burst is dispatched to the site, as where a commitment is undone (R176, R181). -/
def switchIfFree (d : Dev) (s : Nat) : Dev := if d.siteDispatched s then d else switchAtEnd d s

/-! ### Drive edges (R116, R119, R120, R124 to R126) -/

/-- The active entry of a channel in a set, and the active period of a site's set. -/
def Dev.chanSet (d : Dev) (c t : Nat) : ChanSet := d.chanSets.get {} (64 * c + t)
def Dev.period (d : Dev) (s t : Nat) : Nat := d.periods.get 0 (64 * s + t)

/-- The symbol map entry of a symbol on a channel (R117, R152). -/
def Dev.symEntry (d : Dev) (c sym : Nat) : Word := d.rd (.CUF_SYMMAP (c / 16) sym)
def driveField (w : Word) : Nat := bits w 2 0
def compareField (w : Word) : Nat := bits w 6 4

/-- R117: whether an entry sets a reserved bit or a reserved encoding. -/
def badEntry (w : Word) : Bool := bits w 31 7 ≠ 0 || bit w 3 || compareField w > 5 || driveField w > 5

/-- R152: the entry of a symbol on a channel within a quad: `old` holds the words written over since the quad began. -/
def Dev.symIn (d : Dev) (old : List (Nat × Word)) (c sym : Nat) : Word :=
  ((old.find? (·.1 = 16 * (c / 16) + sym)).map (·.2)).getD (d.symEntry c sym)

/-- R152: a burst whose cuff `k` is inside a quad keeps the word that a write of entry `n` replaces. -/
def keepMap (d : Dev) (k n : Nat) (w : Word) (b : Burst) : Burst :=
  if b.midQuad ∧ (d.site b.site).decl.usesCuff k ∧ !b.oldMaps.any (·.1 = 16 * k + n) then
    { b with oldMaps := (16 * k + n, w) :: b.oldMaps }
  else b

/-- R117, R152: a write of a symbol map entry acts from the next quad; the entries of the fixed codes are read-only (DEDUCED, log 34). -/
def symmapWrite (k n : Nat) (d : Dev) (w : Word) : Dev :=
  if badEntry w then d
  else (d.each (List.range 16) fun d e => d.modBurst e (keepMap d k n (d.rd (.CUF_SYMMAP k n)))).store (.CUF_SYMMAP k n) w

/-- R120: a drive symbol's DRIVE. -/
def isDrive (v : Nat) : Bool := v = 1 || v = 2 || v = 4 || v = 5

/-- R119: the level of a drive symbol, from the current data at its release. -/
def levelOf (v : Nat) (cur : Bool) : Bool := if v = 1 then false else if v = 2 then true else if v = 4 then !cur else cur

/-- R116: an edge joined with an edge of the same vector at the same instant. -/
def joinEdge (e : DriveEdge) : List DriveEdge → List DriveEdge
  | [] => [e]
  | x :: xs =>
    if x.time = e.time then
      { x with en := e.en.or x.en, data := e.data.or x.data, cur := x.cur || e.cur } :: xs
    else x :: joinEdge e xs

/-- An edge put into a timeline: time order, earlier vectors first at one instant (R127, R135). -/
def placeEdge (e : DriveEdge) : List DriveEdge → List DriveEdge
  | [] => [e]
  | x :: xs => if e.time < x.time then e :: x :: xs else x :: placeEdge e xs

/-- Table 4.4: the drive edges of a vector on a channel that is not paired. -/
def edgesOf (x : ChanSet) (drive t0 num : Nat) (cur : Bool) : List DriveEdge :=
  let v := levelOf drive cur
  let at_ (g : Nat) : DriveEdge := { time := t0 + x.edge g, t0, num }
  if x.fmt = fmtOff then []
  else if drive = 0 then [{ at_ 3 with en := some false }]
  else if isDrive drive then
    let don := if x.fmt = fmtSbc then { at_ 0 with en := some true, data := some (!v) } else { at_ 0 with en := some true }
    let ret := match x.fmt with
      | 2 => [{ at_ 2 with data := some false, cur := true }]
      | 3 => [{ at_ 2 with data := some true, cur := true }]
      | 4 => [{ at_ 2 with data := some (!v), cur := true }]
      | _ => []
    joinEdge { at_ 1 with data := some v, cur := true } [don] ++ ret
  else []

/-- R125, R126: the drive edges of a vector on a DNRZ pair; DRIVE 0b011 (3) places no edge. For both slots, `cur` is the current data
of channel 2k at the release (DESIGN CHOICE, log 220). -/
def pairEdges (x y : ChanSet) (a b t0 num : Nat) (cur : Bool) : List DriveEdge :=
  let a' := if !isDrive a && a = 0 && isDrive b then b else a
  let b' := if !isDrive b && b = 0 && isDrive a then a else b
  let don : DriveEdge := { time := t0 + x.edge 0, t0, num, en := some true }
  let dat (e v : Nat) : DriveEdge := { time := t0 + e, t0, num, data := some (levelOf v cur), cur := true }
  if isDrive a' ∨ isDrive b' then
    let l := if isDrive a' then joinEdge (dat (x.edge 1) a') [don] else [don]
    if isDrive b' then joinEdge (dat (y.edge 1) b') l else l
  else if a = 3 ∧ b = 3 then []
  else [{ time := t0 + x.edge 3, t0, num, en := some false }]

/-- R126: a mixed pair (DEDUCED, log 43). -/
def mixedPair (a b : Nat) : Bool := (isDrive a && b = 0) || (a = 0 && isDrive b)

/-- R120: format OFF holds the driver off from a T0; carry-over edges at or after it are suppressed. -/
def holdOff (t0 : Nat) (x : Chan) : Chan := { x with en := false, edges := x.edges.filter (·.time < t0) }

/-- R138: edges at or after the target of a cut pad are suppressed (DEDUCED, log 35). -/
def cutEdges (cut : Option Nat) (l : List DriveEdge) : List DriveEdge :=
  match cut with
  | none => l
  | some k => l.filter (·.time < k)

/-- Edges of a released vector put on a channel's timeline. -/
def putEdges (d : Dev) (c : Nat) (cut : Option Nat) (l : List DriveEdge) : Dev :=
  d.modChan c fun x => { x with edges := (cutEdges cut l).foldl (fun es e => placeEdge e es) x.edges }

/-- The drive side of a released vector on one channel of a site. -/
def driveChan (d : Dev) (x : Decl) (old : List (Nat × Word)) (v : BitVec 512) (t t0 num : Nat) (cut : Option Nat) (c : Nat) : Dev :=
  let sym (c : Nat) : Nat := driveField (d.symIn old c (symAt v (x.slotOf c)))
  let e := d.chanSet c t
  if e.fmt = fmtOff then d.modChan c (holdOff t0)
  else if e.fmt = fmtDnrz ∧ c % 2 = 1 then d.modChan c fun y => { y with en := false, data := false }
  else if e.fmt = fmtDnrz then
    let a := sym c
    let b := sym (c + 1)
    let d := putEdges d c cut (pairEdges e (d.chanSet (c + 1) t) a b t0 num (d.chan c).cur)
    d.onlyIf (mixedPair a b) (·.raise (.CUF_CHSTAT c) 29)
  else putEdges d c cut (edgesOf e (sym c) t0 num (d.chan c).cur)

/-! ### Strobe windows (R121, R136) -/

/-- The strobe window of a released vector on a channel, with the placement of R136. -/
def windowOf (d : Dev) (x : Decl) (old : List (Nat × Word)) (v : BitVec 512) (t t0 : Nat) (cut : Option Nat) (c : Nat) : Option Win :=
  let e := d.chanSet c t
  let k := compareField (d.symIn old c (symAt v (x.slotOf c)))
  let opens := t0 + e.edge 4
  let closes := match cut with | some z => min z (t0 + e.edge 5) | none => t0 + e.edge 5
  if e.fmt = fmtOff ∨ k = 0 ∨ (cut.any fun z => decide (z ≤ opens)) then none
  else some { chan := c, slot := x.slotOf c, opens, closes, cmp := k
              suppressed := (d.chan c).lastClose.any fun z => decide (opens < z) }

/-- The windows of a released vector, and the channels' last windows after it. -/
def putWindows (d : Dev) (x : Decl) (old : List (Nat × Word)) (v : BitVec 512) (t t0 : Nat) (cut : Option Nat) : List Win × Dev :=
  let ws := x.list.filterMap fun c => windowOf d x old v t t0 cut c
  (ws, d.each ws fun d w => if w.suppressed then d else d.modChan w.chan fun y => { y with lastClose := some w.closes })

/-! ### Collisions (R135 to R137) -/

/-- R137: the first suppression of a burst writes a COLLISION entry; every one is flagged and counted. -/
def collide (d : Dev) (s c num : Nat) (strobe : Bool) : Dev :=
  let d := d.raise (.CUF_CHSTAT c) 31
  let d := if strobe then (d.raise (.CUF_CHSTAT c) 30).countUp (.CUF_COLLCNT c) 31 16 1 else d.countUp (.CUF_COLLCNT c) 15 0 1
  match d.siteEngine s with
  | none => d
  | some e => match d.burst e with
    | none => d
    | some b =>
      let d := if b.collided then d else ledger d 0x0E ucEvent s 0 d.now c (num % 2 ^ 48) 0
      d.modBurst e fun b => { b with collided := true, flags := b.flags ||| 2 ^ 7 }

/-- R116: whether a drive edge changes nothing: an enable transition to the state the driver has. -/
def noEdge (x : Chan) (e : DriveEdge) : Bool := e.data = none && e.en = some x.en

/-- R135: whether an edge is suppressed: too close after the last one placed, or of an earlier vector, also where it falls at the
instant of a later vector's edge (DEDUCED, log 221). -/
def edgeCollides (x : Chan) (e : DriveEdge) : Bool :=
  match x.last with
  | some (t, z) => decide (e.time < t + 280) || decide (e.t0 < z)
  | none => false

/-- An edge acts on the driver. -/
def actEdge (e : DriveEdge) (x : Chan) : Chan :=
  { x with
    en := e.en.getD x.en, data := e.data.getD x.data, cur := if e.cur then e.data.getD x.cur else x.cur
    last := some (e.time, e.t0) }

/-- R98, R179: whether a burst has released its last vector. -/
def burstOver (b : Burst) : Bool := b.fin.isSome && b.queue = []

/-- R70, R98: the cuffs of a burst release nothing more. -/
def burstStill (b : Burst) : Bool := burstOver b || b.stopped

/-- R139: a time at or after the end of the last period of a channel's burst, at which its channels have stopped. -/
def afterEnd (d : Dev) (c t : Nat) : Bool :=
  match (d.siteOf c).bind fun s => (d.siteEngine s).bind d.burst with
  | some b => burstStill b && b.lastEnd.any fun z => decide (z ≤ t)
  | none => false

/-- R120, R135, R139: the next edge of a channel's timeline arrives. -/
def driveEdge (d : Dev) (c : Nat) : Dev :=
  let x := d.chan c
  match x.edges with
  | [] => d
  | e :: es =>
    let ended := afterEnd d c e.time
    let d := d.modChan c fun y => { y with edges := es }
    if ended ∨ noEdge x e then d
    else if edgeCollides x e then collide d ((d.siteOf c).getD 0) c e.num false
    else d.modChan c (actEdge e)

/-- R139: at the end of the last period a channel takes its idle state: edges before it act, later ones are dropped. -/
def idleChannel (d : Dev) (t c : Nat) : Dev :=
  let d := d.each ((d.chan c).edges.filter (·.time < t)) fun d _ => driveEdge d c
  d.modChan c fun x => { x with edges := [], en := x.en && d.flag (.CUF_CHCTL c) 0 }

/-- R139: the channels of a burst idle at the end of its last period, once. -/
def idleBurst (d : Dev) (e : Nat) (b : Burst) : Dev :=
  match b.lastEnd with
  | some t => if b.idled then d
    else (d.each (d.site b.site).decl.list fun d c => idleChannel d t c).modBurst e fun b => { b with idled := true }
  | none => d

/-- R153, 13_calibration.md R447: a time of a drive or strobe edge on a channel, in half-picoseconds, moved by what PHASE of its cuff and the channel's
active trims and offsets have changed since the last edge-deskew commit (DEDUCED, log 198). -/
def Dev.phased (d : Dev) (strobe : Bool) (c t : Nat) : Nat :=
  let k := c / 16
  let m := d.cal.moved.get (0, 0) c
  ((t : Int) + (signed 10 (d.get (.CUF_PLL k) 9 0) - signed 10 (d.phaseRef.get 0 k)) + ((if strobe then m.2 else m.1) + 4) / 8).toNat

/-- When a channel's next drive edge falls due, by its cuff's mirror (01_burst_path.md R15). -/
def edgeDue (d : Dev) (c : Nat) : Option Nat := (d.chan c).edges.head?.map fun e => d.dueOn (c / 16) (d.phased false c e.time * halfPs)

/-- DRIVE_EDGE (R120): the next drive edge of a channel. -/
def execDriveEdge (c : Fin 128) (s : State) : Host.Outcome State Fault Refusal :=
  actAt s (edgeDue s.dev c) fun d => driveEdge d c

/-! ### Strobe edges (R121) -/

/-- The windows of a site's vectors on a channel at a stage, with their vectors' positions. -/
def winsOf (d : Dev) (s c : Nat) (st : WinStage) : List (Nat × Win) :=
  ((d.site s).flight.zipIdx.flatMap fun p => (p.1.wins.filter fun w => w.chan = c ∧ w.stage = st).map fun w => (p.2, w))

/-- The earliest of a list by a time, the first among equals. -/
def earliest (f : Win → Nat) : List (Nat × Win) → Option (Nat × Win)
  | [] => none
  | x :: xs => match earliest f xs with
    | none => some x
    | some y => if f y.2 < f x.2 then some y else some x

/-- The next window of a channel to open, and to close, with its site. -/
def nextWin (d : Dev) (c : Nat) (st : WinStage) : Option (Nat × Nat × Win) :=
  match d.siteOf c with
  | none => none
  | some s => (earliest (if st = .waiting then (·.opens) else (·.closes)) (winsOf d s c st)).map fun r => (s, r.1, r.2)

/-- A window of a site's vector replaced. -/
def putWin (d : Dev) (s i : Nat) (w : Win) : Dev :=
  d.modSite s fun x => { x with flight := x.flight.modify i fun f => { f with
    wins := f.wins.map fun y => if y.chan = w.chan then w else y } }

/-- Table 4.2: whether a compare kind holds for raw states. -/
def compareHolds (k : Nat) (ch cl : Bool) : Bool :=
  match k with
  | 1 => cl
  | 2 => ch
  | 3 => !ch && !cl
  | 4 => ch != cl
  | _ => true

/-- R121, R136: a window opens with the comparator inputs `ch` and `cl`; a suppressed one fails at once. -/
def strobeOpen (d : Dev) (c : Nat) (ch cl : Bool) : Dev :=
  match nextWin d c .waiting with
  | none => d
  | some (s, i, w) =>
    let w := { w with ch, cl }
    if w.suppressed then
      let num := (((d.site s).flight[i]?).map fun f => f.num.getD f.after).getD 0
      collide (putWin d s i { w with stage := .done, pass := false }) s c num true
    else putWin d s i { w with stage := .opened, pass := compareHolds w.cmp ch cl }

/-- When the next window of a channel opens. -/
def openDue (d : Dev) (c : Nat) : Option Nat := (nextWin d c .waiting).map fun r => d.dueOn (c / 16) (d.phased true c r.2.2.opens * halfPs)

/-- STROBE_OPEN (R121): the next strobe window of a channel opens; `ch` and `cl` are the comparator inputs it watches. -/
def execStrobeOpen (c : Fin 128) (ch cl : Bool) (s : State) : Host.Outcome State Fault Refusal :=
  actAt s (openDue s.dev c) fun d => strobeOpen d c ch cl

/-- R121: a window closes; it passes if the condition held at SOPEN and no tested input moved inside it. An observe
compare always passes. -/
def strobeClose (d : Dev) (c : Nat) (moved : Bool) : Dev :=
  match nextWin d c .opened with
  | none => d
  | some (s, i, w) => putWin d s i { w with stage := .done, pass := w.cmp = 5 || (w.pass && !moved) }

/-- When the next open window of a channel closes. -/
def closeDue (d : Dev) (c : Nat) : Option Nat := (nextWin d c .opened).map fun r => d.dueOn (c / 16) (d.phased true c r.2.2.closes * halfPs)

/-- STROBE_CLOSE (R121): the open window of a channel that closes first; `moved` says that a transition of a tested
input was seen inside it. -/
def execStrobeClose (c : Fin 128) (moved : Bool) (s : State) : Host.Outcome State Fault Refusal :=
  actAt s (closeDue s.dev c) fun d => strobeClose d c moved

/-! ### The release of a vector (R13, R16, R61, R98, R101, R112, R134) -/

/-- A vector to be released; `old` holds the symbol map words written over since its quad began (R152). -/
structure Vec where
  syms : BitVec 512
  ts : Nat
  num : Option Nat := none
  after : Nat
  matchRep : Bool := false
  capture : Bool := false
  capMode : Nat := 0
  acts : List Act := []
  cut : Option Nat := none
  old : List (Nat × Word) := []

/-- R66: a MARKER entry of a burst: time, class and TIME_VALID of a T0, the mark and the vector number. -/
def markEntry (d : Dev) (s : Nat) (tv : Bool) (uc time imm num : Nat) : Dev :=
  ledgerTv d tv 0x05 uc s 0 time 0 (imm % 2 ^ 32) (num % 2 ^ 48)

/-- R45: a change that acts at a vector's T0: a source request, and a marker of a numbered vector. -/
def actAtT0 (s t0 : Nat) (num : Option Nat) (d : Dev) (a : Act) : Dev :=
  match a with
  | .wave act entry unit => waveRequest d unit act entry t0
  | .mark imm => match num with
    | some n => markEntry d s d.timeValid ucExact (t0 * halfPs) imm n
    | none => d
  | _ => d

/-- R66: the markers among a pad's changes, with its T0 and TIME_VALID there. -/
def padMarksOf (tv : Bool) (t0 : Nat) (l : List Act) : List (Nat × Nat × Bool) :=
  l.filterMap fun a => match a with
    | .mark imm => some (imm, t0, tv)
    | _ => none

/-- R66: the markers of pads are written, with their own times and the number of the vector that follows, or the vector count
(DEDUCED, log 29). -/
def padMarkEntries (d : Dev) (e num : Nat) : Dev :=
  match d.burst e with
  | none => d
  | some b => (d.each b.padMarks fun d m => markEntry d b.site m.2.2 ucExact (m.2.1 * halfPs) m.1 num).modBurst e fun b =>
      { b with padMarks := [] }

/-- R262: a program's arming of a digital unit that waits for its vector's results, or stands before it in a list. -/
def armWaits (d : Dev) (s u : Nat) (l : List AcqAct) : Bool := l.contains (.arm u) || (d.site s).flight.any fun f => f.acts.contains (.arm u)

/-- R45, R261, R262: a change of a vector acts: one of a stream's unit at the vector's T0 (DEDUCED, log 59); one of a digital unit at the vector as an item,
with those before it in the list. -/
def vecAct (s t0 : Nat) (num : Option Nat) (r : Dev × List AcqAct) (a : Act) : Dev × List AcqAct :=
  match a with
  | .arm u => if r.1.flag (.ACQ_ATTACH u) 31 then (acqAct r.1 (.arm u), r.2) else (r.1, r.2 ++ [.arm u])
  | .disarm u => if (r.1.acq u).cfg.stream && !armWaits r.1 s u r.2 then (acqAct r.1 (.disarm u), r.2) else (r.1, r.2 ++ [.disarm u])
  | a => (actAtT0 s t0 num r.1 a, r.2)

/-- A vector of a site released at a T0: its changes, its drive edges and its windows (DEDUCED, log 33). -/
def releaseVec (d : Dev) (s : Nat) (v : Vec) (t0 : Nat) : Dev :=
  let x := (d.site s).decl
  let a := v.acts.foldl (vecAct s t0 v.num) (d, [])
  let d := a.1
  let d := d.each x.list fun d c => driveChan d x v.old v.syms v.ts t0 (v.num.getD v.after) v.cut c
  let r := putWindows d x v.old v.syms v.ts t0 v.cut
  r.2.modSite s fun y => { y with flight := y.flight ++
    [{ t0, num := v.num, after := v.after, matchRep := v.matchRep, capture := v.capture, capMode := v.capMode, tv := d.timeValid, acts := a.2,
       wins := r.1 }] }

/-- R275: the first release writes START and the engine runs. -/
def startEntry (d : Dev) (e : Nat) (b : Burst) (t0 : Nat) (handle : Nat) : Dev :=
  let d := ledger d 0x01 ucExact b.site e (t0 * halfPs) 0 (handle % 2 ^ 32 * 2 ^ 32 + b.load * 2 ^ 22 + b.entry * 2 ^ 14) (b.digest % 2 ^ 64)
  d.set (.ENG_STAT e) 31 28 4

/-- The word that a user routine reissues until its condition holds, when the condition does not (R80, SEQ 0b111). -/
def reissues (d : Dev) (e : Nat) (b : Burst) (m : Micro) : Option UWord :=
  let w := nextWord d e m
  if bits w 155 153 = 7 ∧ !cselHolds d b m w then some w else none

/-- R101, R236: whether the engine waits for data of the stream ring at or beyond W. -/
def streamDry (d : Dev) (e : Nat) (b : Burst) : Bool :=
  b.inStream && b.fin.isNone && b.wait.isNone && b.unissued = 0 && (match b.micro with
    | some m => (issueWord d e b m (nextWord d e m) 0 matches .error .dry) ||
        (reissues d e b m).any fun w => bits w 139 134 = 6 || (bits w 139 134 = 2 && (fetchWord d b m.pay matches .error .dry))
    | none => match fetchWord d b b.pc with
      | .error .dry => true
      | .error _ => false
      | .ok h => hOpc h ≠ 0x13 && (routine (hOpc h) d b h (b.pc + 1) matches .error .dry))

/-- R515: whether the engine can emit no further quad until a vector is released or a result returns. -/
def emitsNoMore (d : Dev) (e : Nat) (b : Burst) : Bool :=
  (b.unissued = 0 || b.heldBack) && (b.fin.isSome || b.wait.isSome || (match b.micro with
    | some m => (reissues d e b m).any fun w => bits w 131 129 = 0 && bits w 139 134 ≠ 2 && bits w 139 134 ≠ 6
    | none => !b.inStream && (match fetchWord d b b.pc with
      | .ok h => hOpc h = 0x09 && isCompare (hCond h) && !hFlag h 2 && b.returned + 1024 < b.next
      | .error _ => false)))

/-- R101, R515: whether the cuffs hold 8 quads, or every quad emitted where the engine can emit no further one. -/
def cuffsFilled (d : Dev) (e : Nat) (b : Burst) : Bool :=
  decide (8 ≤ b.entryBuf.length) || (b.seam = [] && b.fifo = [] && b.part = 0 && emitsNoMore d e b)

/-- The number of the next numbered vector to be released. -/
def Burst.nextNum (b : Burst) : Nat := b.released

/-- R101: the site's pad vector: PAD_OFF of the loadable, or all X. -/
def padVector (d : Dev) (b : Burst) : BitVec 512 :=
  if b.padOff = 0 then allX b.n else symsOf b.n (d.dram.num (b.base + b.padOff) (8 * fullWords b.n))

/-- R236: a stream underrun: its records, and under UNDER = 1 the end of the burst with code STREAM_DRY. -/
def streamUnderrun (d : Dev) (e : Nat) (b : Burst) (under : Bool) : Dev :=
  let num := b.nextNum
  let d := (d.raise (.DRC_SRSTAT b.site) 28).modRing b.site fun r => { r with under := some (r.under.getD num) }
  let d := ledger d 0x09 ucEvent b.site 0 d.now under.toNat (num % 2 ^ 48) 0
  d.modBurst e fun b => { b with flags := b.flags ||| 2 ^ 4, underruns := b.underruns + 1 }

/-- R101: an episode of padding begins. -/
def padBegin (d : Dev) (e : Nat) : Dev :=
  ((d.modBurst e fun b => { b with flags := b.flags ||| 2 ^ 1 }).raise (.ENG_STRETCH e) 31).countUp (.ENG_STRETCH e) 15 0 1

/-- R101, R138: a pad vector is released, in the set and at the period of the last released vector; no change of R45 waits for it, since no
engine emits it (DEDUCED, log 187). -/
def releasePad (d : Dev) (e : Nat) (b : Burst) (lastTs t0 : Nat) : Dev :=
  let d := releaseVec d b.site { syms := padVector d b, ts := lastTs, after := b.nextNum } t0
  let d := d.modEngine e fun x => { x with padVec := x.padVec + 1 }
  d.modBurst e fun b => { b with
    padding := b.padding + 1, nextT0 := t0 + b.lastPeriod, lastEnd := some (t0 + b.lastPeriod), lastTv := d.timeValid }

/-- R101: the padding ends at a T0, that of the next vector where one follows: a STRETCH entry with the first vector after the pad and the
pad count (DEDUCED, log 36). -/
def padEnd (d : Dev) (e : Nat) (b : Burst) (t0 : Nat) : Dev :=
  if b.padding = 0 then d
  else
    (ledger d 0x0A ucExact b.site 0 (t0 * halfPs) 0 (b.nextNum % 2 ^ 48) b.padding).modBurst e fun b => { b with padding := 0 }

/-- R98: the cuffs stop: every vector not released is discarded and counted. The discards free the quad FIFO, so a word stalled on it
issues; the words after it wait for the abort, which a safe point lets in there (DESIGN CHOICE, log 5). -/
def stopRelease (d : Dev) (e : Nat) (b : Burst) : Dev :=
  let left := b.unissued - (if b.heldBack then 0 else min 4 b.unissued)
  let n := vectorsIn b.queue - left
  let gone := takeRuns n b.queue
  let c := { b.drained with queue := dropRuns n b.queue, unissued := left, stopped := true, acts := b.acts ++ marksIn gone }
  d.modEngine e fun x => { x with burst := some c, discard := x.discard + n, emitted := b.released + numberedIn gone }

/-- R61, R62: the T0 after a pad emission of a WAITT at `x`, and the cut of its edges; the first emission's end is taken with the period of
the one just released (DEDUCED, log 188). -/
def waitNext (b : Burst) (x per : Nat) : Nat × Option Nat :=
  match b.wait with
  | some (.time rel t) =>
    let f := b.waitFirst.getD x
    let g := waitHalf b rel t
    if f + per ≤ g then (min (x + per) g, if g < x + per then some g else none) else (x + per, none)
  | _ => (x + per, none)

/-- The run at the front of the queue after one vector of it has been released: a pad of a WAITT goes on, a synchronised JIF has emitted
its copies. -/
def popRun : List VecRun → List VecRun
  | [] => []
  | r :: rs =>
    if r.ongoing then { r with count := if r.kind = .settle then r.count - 1 else r.count, acts := [] } :: rs
    else if r.count ≤ 1 then rs
    else { r with count := r.count - 1, first := r.first + 1, acts := [] } :: rs

/-- What a release leaves in the burst: the run, its quad, the times and the counts. -/
def afterRelease (tv : Bool) (r : VecRun) (t0 per next : Nat) (b : Burst) : Burst :=
  let isNum := r.kind = .numbered || r.kind = .matchRep
  let isPad := r.kind = .waitPad
  let q := if isPad && r.ongoing then { b with midQuad := true } else b.popQuad
  { q with
    queue := popRun b.queue, released := b.released + isNum.toNat, nextT0 := next, lastEnd := some next, lastPeriod := per
    lastTs := r.ts, lastTv := tv, settles := b.settles + (r.kind = .settle && r.ongoing : Bool).toNat
    waitFirst := if isPad then some (b.waitFirst.getD t0) else b.waitFirst
    padMarks := if isNum then b.padMarks else b.padMarks ++ padMarksOf tv t0 r.acts }

/-- R66, R109: numbered vector `num` is released: the markers of the pads before it are written, and the first one after the burst's first pad
is ENG_PADFIRST. -/
def numberedFollows (d : Dev) (e num : Nat) : Dev :=
  (padMarkEntries d e num).modEngine e fun x => { x with padFirst := if x.padVec = 0 then x.padFirst else some (x.padFirst.getD num) }

/-- R112, R134: the front vector of the queue is released at T0, and the quads behind it move up. -/
def releaseFront (d : Dev) (e : Nat) (b : Burst) (r : VecRun) (t0 : Nat) : Dev :=
  let per := d.period b.site r.ts
  let isNum := r.kind = .numbered || r.kind = .matchRep
  let nx := if r.kind = .waitPad then waitNext b t0 per else (t0 + per, none)
  let d := d.onlyIf isNum (numberedFollows · e r.first)
  let d := releaseVec d b.site { syms := r.syms, ts := r.ts, num := if isNum then some r.first else none
                                 after := if isNum then r.first + 1 else b.nextNum, matchRep := r.kind = .matchRep
                                 capture := r.capture, capMode := r.capMode, acts := r.acts, cut := nx.2, old := b.oldMaps } t0
  match d.burst e with
  | none => d
  | some b => setBurst d e (afterRelease d.timeValid r t0 per nx.1 b)

/-- R98: the next T0 of a burst lies at or after its stop time; one whose start is not fixed has none before it. -/
def stopsHere (b : Burst) : Bool := b.stop.any fun z => b.start.isNone || decide (z ≤ b.nextT0)

/-- R16, R101: the cuffs hold for another period: a stream underrun is recorded, and under UNDER = 1 it ends the burst (R236). -/
def padRelease (d : Dev) (e : Nat) (b : Burst) (under : Bool) : Dev :=
  if b.padding = 0 ∧ streamDry d e b then
    let d := streamUnderrun d e b under
    if under then deviceFault (d.modBurst e Burst.drained) e 0x23 else releasePad (padBegin d e) e b b.lastTs b.nextT0
  else releasePad (d.onlyIf (b.padding = 0) (padBegin · e)) e b b.lastTs b.nextT0

/-- R13, R139: what the cuffs of a burst do at its next T0; where nothing follows, its channels take their idle states. -/
def releaseNext (d : Dev) (e : Nat) (b : Burst) (under : Bool) (handle : Nat) : Dev :=
  let t0 := b.nextT0
  let d := switchSets d b.site t0
  let b := if b.entryBuf = [] then b.closePart (d.yokeFenced b.site) else b
  let d := d.modBurst e fun _ => b
  if burstOver b then idleBurst (padEnd d e b t0) e b
  else if stopsHere b then
    let d := padEnd d e b t0
    idleBurst (stopRelease d e ((d.burst e).getD b)) e b
  else if b.start = none then d
  else if waitOver b then d
  else if b.entryBuf = [] ∨ (b.padding > 0 ∧ !cuffsFilled d e b) then
    if b.lastEnd = none then d else padRelease d e b under
  else match b.queue with
    | [] => d
    | r :: _ =>
      let d := if b.lastEnd = none then startEntry d e b t0 handle else padEnd d e b t0
      releaseFront d e b r t0

/-- The burst of a site whose cuffs have a next T0 or a stop time: its start is fixed or an abort stops it, and they have not stopped. -/
def releaseDue (d : Dev) (s : Nat) : Option (Nat × Burst) :=
  match d.siteEngine s with
  | none => none
  | some e => match d.burst e with
    | some b => if (b.start.isSome ∨ b.stop.isSome) ∧ !b.stopped then some (e, b) else none
    | none => none

/-- When the cuffs of a burst act next, in half-picoseconds: at the next T0, or at the stop time where nothing has been released by then
(R98, 05_sites_and_dispatch.md R180). -/
def cuffTime (b : Burst) : Nat := if b.lastEnd = none ∧ stopsHere b then b.stop.getD b.nextT0 else b.nextT0

end Sys2Proof.Machine
end

