-- ==== Sys2Proof/Machine/Returns.lean ====
section
/-! DEFINITION. The return of compare results (07_capture_and_acquisition.md R252 to R254, 03_engines_and_microcode.md R79). -/
namespace Sys2Proof.Machine

/-! ### Fail blocks (R254) -/

/-- The union of failing slots as PINMASK words, or the place of the last entry with the same union. -/
def pinmask (d : Dev) (b : Burst) (x : FailBlk) : Option Nat × Dev :=
  match b.lastPin with
  | some (m, pos) => if m = x.union then (some pos, d) else put
  | none => put
where put := ledgerPutTv d x.tv 0x04 ucExact b.site 0 (x.firstT0 * halfPs) 0 (x.union % 2 ^ 64) (x.union / 2 ^ 64)

/-- R254: a fail block closes: its PINMASK entry, unless one stands, and its FAIL entry. -/
def closeFails (d : Dev) (e : Nat) : Dev :=
  match d.burst e with
  | none => d
  | some b => match b.failBlk with
    | none => d
    | some x =>
      let r := pinmask d b x
      let d := ledgerTv r.2 x.tv 0x03 ucExact b.site 0 (x.firstT0 * halfPs) 0 (sat 16 x.count * 2 ^ 48 + x.first % 2 ^ 48)
        (r.1.getD (2 ^ 64 - 1))
      d.modBurst e fun b => { b with
        failBlk := none, lastPin := match r.1 with | some pos => some (x.union, pos) | none => b.lastPin }

/-- R253, R254: a counted fail of a vector. -/
def countFail (b : Burst) (v t0 : Nat) (tv : Bool) (fails : Nat) : Burst :=
  { b with
    fails := b.fails ++ [(v, fails)], flags := b.flags ||| 1
    failBlk := some (match b.failBlk with
      | some x => { x with count := x.count + 1, union := x.union ||| fails }
      | none => { block := v / 65536, first := v, firstT0 := t0, tv, count := 1, union := fails }) }

/-! ### A vector's results -/

/-- The slots of a vector's windows that satisfy `f`. -/
def slotsWhere (f : Flight) (q : Win → Bool) : Nat := setOf ((f.wins.filter q).map (·.slot))

/-- The group word of a set of slots: bit k for the k-th slot of the group (Table 7.2). -/
def groupWord (slots : List Nat) (m : Nat) : Nat :=
  ((slots.zipIdx.filter fun p => inSet m p.1).map fun p => 2 ^ p.2).sum

/-- R260: a numbered vector offered to the digital units of its site. -/
def offerVector (d : Dev) (s v t0 fails ch : Nat) : Dev :=
  d.each (List.range 16) fun d u =>
    if d.acqSite u = s ∧ !(d.acq u).cfg.stream then
      let g := (d.acq u).cfg.slots
      itemPast (offer d u { idx := v, time := t0 * halfPs, h := groupWord g ch, f := groupWord g fails }) u
    else d

/-- R58, Table 2.6: whether a repetition passes the test of its MATCH. -/
def repHolds (d : Dev) (b : Burst) (h : Word64) (v fails : Nat) : Bool :=
  let r := match hCond h with
    | 0 => fails = 0
    | 2 => (fails &&& pinMask d b (hCarg h)) = 0
    | _ => b.repEvents.any fun x => x.1 = hCarg h && x.2 = v
  r != hNeg h

/-- R58: the first repetition whose test holds ends the MATCH. -/
def testRep (d : Dev) (b : Burst) (v fails : Nat) : Burst :=
  match b.wait with
  | some (.matching first _ h _ _) =>
    if first ≤ v ∧ b.matchHit = none ∧ repHolds d b h v fails then { b with matchHit := some v } else b
  | _ => b

/-- The results of a numbered vector: counted fails, capture, acquisition, and the test of a MATCH. -/
def numberedResult (d : Dev) (s e : Nat) (f : Flight) (v : Nat) : Dev :=
  let fails := slotsWhere f fun w => !w.pass
  let ch := slotsWhere f (·.ch)
  let cl := slotsWhere f (·.cl)
  let d := d.onlyIf (!f.matchRep && fails ≠ 0) fun d => d.modBurst e (countFail · v f.t0 f.tv fails)
  let d := d.onlyIf f.capture fun d => captureVector d s (card 128 (d.site s).decl.chans) f.capMode v fails ch cl
  let d := offerVector d s v f.t0 fails ch
  let d := d.modBurst e fun b => { (if f.matchRep then testRep d b v fails else b) with returned := v + 1 }
  d.onlyIf ((v + 1) % 65536 = 0) fun d => closeFails d e

/-- R252: the results of a site's oldest vector return, once its windows have closed (DEDUCED, log 189). Nothing comes from behind a
fenced seam (01_burst_path.md R20). -/
def resultReturn (d : Dev) (s : Nat) : Dev :=
  match (d.site s).flight, d.siteEngine s with
  | f :: fs, some e =>
    if d.resultsFenced s ∨ f.wins.any fun w => w.stage ≠ .done then d
    else
      let d := d.modSite s fun x => { x with flight := fs }
      let d := d.each f.acts acqAct
      match f.num with
      | some v => numberedResult d s e f v
      | none => d
  | _, _ => d

/-- COMPARE_RESULT_RETURN (R252); `drained` lists the lines that buffers have drained by then (DESIGN CHOICE, log 12). -/
def execCompareResultReturn (site : Fin 16) (drained : List (Nat × Nat)) (s : State) : Host.Outcome State Fault Refusal :=
  act s fun d => resultReturn (drains d drained) site

end Sys2Proof.Machine
end

