-- ==== Sys2Proof/Machine/Sched.lean ====
section
/-! DEFINITION. Submission, the scheduler's lists, commitment, cancels and completion records
(05_sites_and_dispatch.md R164 to R186). -/
namespace Sys2Proof.Machine

/-! ### Ticks (R172) -/


/-- The tick that SCH_CTL gives, in units (DEDUCED, log 61). -/
def Dev.tickTime (d : Dev) : Nat := (d.get .SCH_CTL 7 0 + 1) * 256 * nano1
def Dev.leadTime (d : Dev) : Nat := or256 (d.get .SCH_CTL 15 8) * d.tickTime
def Dev.affWindow (d : Dev) : Nat := or256 (d.get .SCH_CTL 23 16) * d.tickTime

/-- A scheduler cycle, 1 ns. -/
def cycleOf (t : Nat) : Nat := t / nano1

/-! ### Sites and ports -/

/-- A site that takes submissions, allocations and registrations: enabled, not being reset and not releasing (R156, R158). -/
def Dev.siteOpen (d : Dev) (s : Nat) : Bool :=
  (d.site s).decl.en && !(d.site s).resetting && !(d.site s).releasing

/-- Descriptors a port has in the table (R186). -/
def Dev.owned (d : Dev) (p : Nat) : Nat := (d.descs.filter fun x => x.2.port = p).length

/-- R174: a site is idle while no burst is dispatched to it and no descriptor of it is in a ready queue. -/
def Dev.siteIdle (d : Dev) (s : Nat) : Bool :=
  !(d.descs.any fun x => x.2.site = s && (x.2.dispatched || x.2.place = .ready))

/-- A new entry into a pending set, a ready queue or the held list. -/
def Dev.nextOrder (d : Dev) : Nat × Dev := (d.sched.orders, d.modSched fun x => { x with orders := x.orders + 1 })

/-! ### Descriptors (R164, R168) -/

/-- EVENT values that name an event (Table 5.2). -/
def goodEvent (v : Nat) : Bool := v < 0x14 || v = 0x20

/-- Table 5.4, FIELD. -/
def descField (w0 w1 w2 : Word64) : Bool :=
  let start := bits w0 37 36
  let aff := bits w0 33 32
  bits w0 21 0 ≠ 0 || start = 3 || aff = 3 || bits w2 63 32 ≠ 0 || bits w2 31 0 ≥ 1000000000 ||
  (start = 2 && !goodEvent (bits w0 27 22)) || (start ≠ 2 && bits w0 27 22 ≠ 0) ||
  (start ≠ 1 && (w1 ≠ 0 || w2 ≠ 0)) || (aff ≠ 2 && bits w0 31 28 ≠ 0)

/-- The start time of words 1 and 2, in units. -/
def descTime (w1 w2 : Word64) : Nat := ((bits w1 47 0 * 1000000000 + bits w2 31 0) * 65536 + bits w1 63 48) * frac16

/-- The descriptor of four words, with a handle, its port and its acceptance number. -/
def descOf (ws : List Word64) (handle port accept : Nat) : Desc :=
  let w (i : Nat) : Word64 := (ws[i]?).getD 0
  { handle, port, accept, load := bits (w 0) 63 54, entry := bits (w 0) 53 46, site := bits (w 0) 45 42, prio := bits (w 0) 41 38
    start := bits (w 0) 37 36, miss := bit (w 0) 35, under := bit (w 0) 34, aff := bits (w 0) 33 32, engine := bits (w 0) 31 28
    event := bits (w 0) 27 22, startT := descTime (w 1) (w 2), user := w 3, place := .pending }

/-- SCH_ENGEN: an engine is disabled or withdrawn. -/
def Dev.engineBarred (d : Dev) (e : Nat) : Bool := !d.flag .SCH_ENGEN e || d.flag .SCH_ENGEN (16 + e)

/-- R168: the first reason of Table 5.4 that makes a submission invalid, 0 for none. -/
def invalidReason (d : Dev) (p : Nat) (ws : List Word64) : Nat :=
  let x := descOf ws 0 p 0
  if descField ((ws[0]?).getD 0) ((ws[1]?).getD 0) ((ws[2]?).getD 0) then 1
  else if !d.siteOpen x.site then 2
  else if d.siteOwner x.site ≠ p then 3
  else if !((d.sched.registry.get none x.load).any fun l => l.site = x.site) then 4
  else if x.aff = 2 ∧ d.engineBarred x.engine then 5
  else 0

/-! ### Submission (R165 to R171) -/

/-- R166: a submit response to a port. -/
def respond (d : Dev) (p seq reason resp handle : Nat) : Dev :=
  outPost d p [pack 64 [(48, 16, seq), (40, 8, 1), (36, 4, reason), (32, 4, resp), (0, 32, handle)]]

/-- R169: the port's quota is used up. -/
def overQuota (d : Dev) (p : Nat) : Bool :=
  d.get (.SCH_QUOTA p) 12 0 ≠ 0 && d.get (.SCH_QUOTA p) 12 0 ≤ d.owned p

/-- R169: the table is full. -/
def Dev.tableFull (d : Dev) : Bool := 4096 ≤ d.descs.length

/-- R169, R171: a valid submission of a port is blocked: by the table, by its quota, or by another port's held submission that
is not held by its quota alone. -/
def blocked (d : Dev) (p : Nat) : Bool :=
  d.tableFull || overQuota d p ||
  (List.range 8).any fun q => q ≠ p && (d.schPort q).held.isSome && !overQuota d q

/-- R167: the lowest free slot. -/
def freeSlot (d : Dev) : Nat := ((List.range 4096).find? fun i => (d.desc i).isNone).getD 0

/-- R173: where an accepted descriptor goes: its site's pending set, or the delay list with its release time; its comparator
is armed where the release time falls before the next tick. -/
def place (d : Dev) (x : Desc) : Desc × Dev :=
  let rel := x.startT - d.leadTime
  let o := d.nextOrder
  if x.start ≠ 1 ∨ rel < d.now then ({ x with place := .pending, order := o.1 }, o.2)
  else ({ x with place := .delay, release := rel, armed := decide (rel < d.sched.tickAt) }, d)

/-- R166, R167: a descriptor is accepted. -/
def acceptDesc (d : Dev) (p seq : Nat) (ws : List Word64) : Dev :=
  let slot := freeSlot d
  let n := d.sched.accepts
  let handle := n % 2 ^ 20 * 4096 + slot
  let r := place (d.modSched fun x => { x with accepts := n + 1 }) (descOf ws handle p n)
  let d := (r.2.putDesc slot (some r.1)).modSchPort p fun x => { x with accepted := (x.accepted + 1) % 2 ^ 64 }
  respond d p seq 0 0 handle

/-- R168: a submission is answered INVALID. -/
def answerInvalid (d : Dev) (p seq reason : Nat) : Dev :=
  respond (d.modSchPort p fun x => { x with invalid := (x.invalid + 1) % 2 ^ 64 }) p seq reason 2 0

/-- R169: a blocked submission is refused. -/
def answerRefused (d : Dev) (p seq : Nat) : Dev :=
  respond (d.modSchPort p fun x => { x with refused := (x.refused + 1) % 2 ^ 64 }) p seq 0 1 0

/-- R170: a blocked submission is held; those of one scheduler cycle have one order (R171). -/
def holdSubmission (d : Dev) (p seq : Nat) (ws : List Word64) : Dev :=
  let o := match d.sched.lastHeld with
    | some (c, n) => if c = cycleOf d.now then (n, d) else d.nextOrder
    | none => d.nextOrder
  (o.2.modSched fun x => { x with lastHeld := some (cycleOf d.now, o.1) }).modSchPort p fun x => { x with held := some (seq, o.1, ws) }

/-- The four words that stand in a port's submit window (R165). -/
def submitWords (d : Dev) (p : Nat) : List Word64 :=
  (List.range 4).map fun i =>
    BitVec.ofNat 64 ((d.rd (.SCH_SUBMIT p (2 * i + 1))).toNat * 2 ^ 32 + (d.rd (.SCH_SUBMIT p (2 * i))).toNat)

/-- R402: bytes of a port's outbound record area that are free beyond the room kept for completions and compare packets (DEDUCED, log 133). -/
def Dev.outRoom (d : Dev) (p : Nat) : Nat :=
  2 ^ 20 - 8 * (d.port p).area.length - 56 * d.owned p - 24 * ((List.range d.cmpCount).filter fun n => d.cmpOwner n = p).length

/-- R165 to R170: the window is submitted. -/
def submit (d : Dev) (p : Nat) : Dev :=
  let seq := (d.schPort p).seq
  let d := d.modSchPort p fun x => { x with seq := (seq + 1) % 65536 }
  let ws := submitWords d p
  let r := invalidReason d p ws
  if r ≠ 0 then answerInvalid d p seq r
  else if blocked d p then (if d.version p = 3 then answerRefused d p seq else holdSubmission d p seq ws)
  else acceptDesc d p seq ws

/-- A write of word `i` of a port's submit window (R165, R192); a submission waits for room for its response (R402). -/
def submitWrite (p i : Nat) (d : Dev) (w : Word) : Dev :=
  if i = 7 ∧ d.outRoom p < 8 then writeHeld d p (.SCH_SUBMIT p 7) w
  else
    let d := d.store (.SCH_SUBMIT p i) w
    if i = 7 then submit d p else d

/-- SUBMIT (R165): port `p` writes word 7 of its own submit window. -/
def execSubmit (p : Fin 8) (w : Word) (s : State) : Host.Outcome State Fault Refusal :=
  act s fun d => regCommand d p (.SCH_SUBMIT p 7) w (submitWrite p 7)

/-- R171: the held submission that goes next: the oldest that neither the table nor its own quota blocks, of the lowest port among those of
one cycle. -/
def nextHeld (d : Dev) : Option (Nat × Nat × Nat × List Word64) :=
  if d.tableFull then none
  else
    let l := (List.range 8).filterMap fun p => if overQuota d p then none else (d.schPort p).held.map fun h => (p, h)
    l.foldl (fun m x => match m with
      | none => some x
      | some y => if x.2.2.1 < y.2.2.1 then some x else some y) none

/-- R170: a held submission is checked again and accepted, or answered INVALID; the port it belongs to. -/
def heldRetry (d : Dev) : Option Nat × Dev :=
  match nextHeld d with
  | none => (none, d)
  | some (p, seq, _, ws) =>
    let d := d.modSchPort p fun x => { x with held := none }
    let r := invalidReason d p ws
    (some p, if r ≠ 0 then answerInvalid d p seq r else acceptDesc d p seq ws)

/-! ### Completion (R183 to R186) -/

/-- Status codes of Table 5.9. -/
def csDonePass : Nat := 0
def csDoneFail : Nat := 1
def csAbortedHost : Nat := 2
def csAbortedFault : Nat := 3
def csCancelled : Nat := 4
def csMissedStart : Nat := 5
def csStretched : Nat := 6
def csStoppedMask : Nat := 7

/-- What a completion record says beside its descriptor. -/
structure Ending where
  status : Nat
  flags : Nat := 0
  fcode : Nat := 0
  engine : Option Nat := none
  exit : Nat := 0
  vcount : Nat := 0
  start : Nat := 0
  late : Nat := 0
  fstream : Bool := false
  faddr : Nat := 0

/-- Table 5.8, with the header word of KIND 0x02. -/
def completionWords (x : Desc) (r : Ending) : List Word64 :=
  let t := timeWords r.start
  [pack 64 [(40, 8, 2)],
   pack 64 [(56, 8, r.flags), (48, 8, r.fcode), (44, 1, r.engine.isSome.toNat), (40, 4, r.engine.getD 0), (36, 4, x.site),
            (32, 4, r.status), (0, 32, x.handle)],
   pack 64 [(48, 16, r.exit), (0, 48, r.vcount)],
   pack 64 [(48, 16, t.2.2 / 65536), (32, 16, t.2.2), (0, 32, t.2.1)],
   pack 64 [(32, 32, sat 32 r.late), (0, 32, t.1)],
   pack 64 [(40, 1, r.fstream.toNat), (0, 40, r.faddr)],
   x.user]

/-- R183, R185: a descriptor ends: its record is posted to its port, and its slot frees. -/
def postCompletion (d : Dev) (slot : Nat) (x : Desc) (r : Ending) : Dev :=
  ((outPost d x.port (completionWords x r)).modSchPort x.port fun y => { y with completed := (y.completed + 1) % 2 ^ 64 }).putDesc
    slot none

/-- A descriptor that has not been committed ends CANCELLED (R179). -/
def cancelDesc (d : Dev) (slot : Nat) (x : Desc) : Dev := postCompletion d slot x { status := csCancelled }

/-- R178, R275: the MISS entry of a late or skipped start. -/
def missEntry (d : Dev) (s : Nat) (skipped : Bool) (late : Nat) : Dev :=
  ledger d 0x0F ucEvent s 0 d.now 0 (skipped.toNat * 2 ^ 63 + (if skipped then 0 else sat 32 late)) 0

/-! ### The delay list, pending sets and ready queues (R173, R174) -/

/-- Descriptors in order of release time, priority and acceptance. -/
def releaseBefore (x y : Desc) : Bool :=
  x.release < y.release || (x.release = y.release && (x.prio > y.prio || (x.prio = y.prio && x.accept < y.accept)))

/-- The first of a list of descriptors under an order. -/
def firstDesc (f : Desc → Desc → Bool) : List (Nat × Desc) → Option (Nat × Desc)
  | [] => none
  | x :: xs => match firstDesc f xs with
    | none => some x
    | some y => if f y.2 x.2 then some y else some x

/-- The descriptor that leaves the delay list next, among those whose comparators are armed. Standby holds the list (R456). -/
def nextRelease (d : Dev) : Option (Nat × Desc) :=
  if d.sched.standby then none else firstDesc releaseBefore (d.descs.filter fun x => x.2.place = .delay && x.2.armed)

/-- The first time of the scheduler cycle after this one. -/
def nextCycle (d : Dev) : Nat := (cycleOf d.now + 1) * nano1

/-- R173: a release time arrives: one descriptor joins its site's pending set, and no other leaves in the same cycle. -/
def delayRelease (d : Dev) : Dev :=
  match nextRelease d with
  | none => d
  | some (slot, _) =>
    let o := (d.modSched fun x => { x with nextLeave := nextCycle d }).nextOrder
    o.2.modDesc slot fun x => { x with place := .pending, armed := false, order := o.1 }

/-- DELAY_LIST_RELEASE (R173). -/
def execDelayListRelease (s : State) : Host.Outcome State Fault Refusal :=
  actAt s ((nextRelease s.dev).map fun x => s.dev.dueOn 10 (max x.2.release s.dev.sched.nextLeave)) delayRelease

/-- R173: at a tick, comparators are armed for the releases that fall before the next tick. -/
def armComparators (d : Dev) (next : Nat) : Dev :=
  d.each (d.descs.filter fun x => x.2.place = .delay && x.2.release < next) fun d x => d.modDesc x.1 fun y => { y with armed := true }

/-- R174: among a site's pending descriptors, the highest priority, then the earliest entry, then the lowest slot. -/
def pendingBefore (x y : Desc) : Bool := x.prio > y.prio || (x.prio = y.prio && x.order < y.order)

/-- R174: an idle site's next descriptor enters the ready queue of its priority. -/
def readyEntry (d : Dev) (s : Nat) : Dev :=
  if !d.siteIdle s then d
  else match firstDesc pendingBefore (d.descs.filter fun x => x.2.place = .pending && x.2.site = s) with
    | none => d
    | some (slot, _) =>
      let o := d.nextOrder
      o.2.modDesc slot fun x => { x with place := .ready, order := o.1, readyAt := d.now }

/-- READY_QUEUE_ENTRY (R174). -/
def execReadyQueueEntry (site : Fin 16) (s : State) : Host.Outcome State Fault Refusal := act s fun d => readyEntry d site

/-! ### Commitment (R175, R176) -/

/-- R159, R176, R190: port `p` writes SCH_ENGEN, ENABLE as far as no lock holds it; an engine whose bit it clears takes commitments to the
end of the cycle. -/
def engenWrite (p : Nat) (d : Dev) (w : Word) : Dev :=
  let c := cycleOf d.now
  let after := d.storeBy p .SCH_ENGEN w
  let lost := d.get .SCH_ENGEN 15 0 &&& (65535 - after.get .SCH_ENGEN 15 0)
  after.modSched fun x => { x with justBarred := (lost ||| (if x.justBarred.2 = c then x.justBarred.1 else 0), c) }

/-- R176: an engine that SCH_ENGEN has lost in this cycle. -/
def Dev.barredNow (d : Dev) (e : Nat) : Bool := inSet d.sched.justBarred.1 e && d.sched.justBarred.2 = cycleOf d.now

/-- R99, R103: an engine that is idle, or whose service routines have issued their last words. -/
def Dev.engIdle (d : Dev) (e : Nat) : Bool :=
  d.engState e = 0 || (d.engState e = 7 && serviceAt d.now (d.engine e).service = [])

/-- R103: engines that are idle, neither withdrawn nor disabled, with no descriptor committed to them. -/
def freeEngines (d : Dev) : List Nat :=
  (List.range 16).filter fun e =>
    (!d.engineBarred e || (d.barredNow e && !d.flag .SCH_ENGEN (16 + e))) && d.engIdle e && !(d.descs.any fun x => x.2.place = .engine e)

/-- R175: the engine for a descriptor (DEDUCED, log 63). -/
def chooseEngine (d : Dev) (x : Desc) : Option Nat :=
  let fr := freeEngines d
  let win := d.affWindow
  if x.aff = 2 then (if fr.contains x.engine then some x.engine else none)
  else
    let warm := if x.aff = 0 then fr.find? fun e => (d.engine e).affinity.any fun a =>
      a.1 = x.load && a.2.1 = x.site && d.now ≤ a.2.2 + win else none
    let cool := fr.find? fun e => match (d.engine e).affinity with
      | none => true
      | some a => decide (a.2.2 + win < d.now)
    (warm.or cool).or fr.head?

/-- R343, R456, R460, R479, R507, R87, R273: nothing is committed. -/
def Dev.dispatchHeld (d : Dev) : Bool :=
  !d.flag .SCH_CTL 31 || d.ras.hold || d.sched.ucodeHold || d.sched.standby || d.sched.jtagHold ||
  d.tbase.stepHost.isSome || d.tbase.stepServo.isSome || 2 ^ 25 - 65536 ≤ d.ledger.unacked || d.trust.otp.lc = 4

/-- The sites a calibration affects (13_calibration.md R437, R438): EDGE and STAMP hold every enabled site with a channel of a
target cuff, and STAMP every site with an auxiliary input of one. -/
def Dev.calAffects (d : Dev) (q target s : Nat) : Bool :=
  (q = 1 || q = 2) && (List.range 8).any fun k => inSet target k &&
    (((d.site s).decl.en && (List.range 16).any fun j => inSet (d.site s).decl.chans (16 * k + j)) ||
     (q = 2 && d.flag (.TDC_IN (128 + k)) 19 && d.get (.TDC_IN (128 + k)) 15 12 = s))

/-- A site to which nothing is committed: a calibration holds it (R438), or a cuff of it has lost PLL lock (R478) (DEDUCED, log 87). -/
def Dev.siteHeld (d : Dev) (s : Nat) : Bool :=
  (d.cal.op.any fun o => d.calAffects o.qty o.target s) ||
  (List.range 8).any fun k => inSet d.sched.pllLost k && (List.range 16).any fun j => inSet (d.site s).decl.chans (16 * k + j)

/-- R175: descriptors in the order the dispatcher takes them: priority, then entry. -/
def readyBefore (x y : Desc) : Bool := x.prio > y.prio || (x.prio = y.prio && x.order < y.order)

/-- R178: the first instant after T - 40 ns (DEDUCED, log 85). -/
def deadlineOf (x : Desc) : Nat := x.startT - 40 * nano1 + 1

/-- R178: local time has passed T - 40 ns of a timed start under MISS = 1. -/
def Desc.missed (x : Desc) (now : Nat) : Bool := x.start = 1 && x.miss && decide (deadlineOf x ≤ now)

/-- R175: the descriptors the dispatcher considers now. One is first considered in a cycle from the first to the fourth after its
entry; `skip` names sites whose descriptor is not yet considered within that bound (DEDUCED, log 62). -/
def considered (d : Dev) (skip : Nat) : List (Nat × Desc) :=
  d.descs.filter fun x => x.2.place = .ready && decide (cycleOf x.2.readyAt < cycleOf d.now) && !d.siteHeld x.2.site &&
    !x.2.missed d.now && !(inSet skip x.2.site && decide (cycleOf d.now < cycleOf x.2.readyAt + 4))

/-- R175: a descriptor is committed to an engine (DEDUCED, log 66). -/
def commitDesc (d : Dev) (slot : Nat) (x : Desc) (e : Nat) : Dev :=
  let d := d.modDesc slot fun y => { y with place := .engine e, commitAt := d.now }
  (d.raise (.ENG_STAT e) 26).set (.ENG_STAT e) 19 16 x.site

/-- R175: of a list of descriptors, the first in the dispatcher's order that has an engine. -/
def chooseDesc (d : Dev) (l : List (Nat × Desc)) : Option (Nat × Desc × Nat) :=
  match firstDesc readyBefore (l.filter fun x => (chooseEngine d x.2).isSome) with
  | none => none
  | some x => (chooseEngine d x.2).map fun e => (x.1, x.2, e)

/-! ### Aborts and cancels (R98, R179 to R182) -/

/-- R98: the stop time of an abort accepted now, as the first half-picosecond at or after it. -/
def stopTime (d : Dev) : Nat := (d.now + 100 * nano1 + halfPs - 1) / halfPs

/-- R98: an abort request to an engine's burst: its cuffs have a stop time, and the engine takes the abort later (DEDUCED, log 88). -/
def abortBurst (d : Dev) (e stop : Nat) : Dev :=
  match d.burst e with
  | none => d
  | some b =>
    if burstOver b ∨ b.stop.isSome then d
    else (d.modBurst e fun b => { b with stop := some stop }).modEngine e fun x => { x with hostAbort := true }

/-- R179, R180: a dispatched descriptor is aborted; an abort that finds its engine without the burst waits for it. -/
def abortDesc (d : Dev) (slot e : Nat) : Dev :=
  match d.burst e with
  | some _ => abortBurst d e (stopTime d)
  | none => d.modDesc slot fun x => { x with abort := some (x.abort.getD (stopTime d)) }

/-- R158, R179: a descriptor is cancelled, or aborted if an engine has it. -/
def endDesc (d : Dev) (slot : Nat) (x : Desc) : Dev :=
  match x.place with
  | .engine e => abortDesc d slot e
  | _ => cancelDesc d slot x

/-- R182: a cancel in the cycle in which a MISS = 1 start was abandoned: the burst ends CANCELLED (DEDUCED, log 191). -/
def cancelSkipped (d : Dev) (x : Desc) : Dev :=
  match x.place with
  | .engine e => d.modBurst e fun b =>
    if b.fin = some .skip ∧ b.skipAt = cycleOf d.now then { b with fin := some .cancelled, flags := b.flags &&& 0xF7 } else b
  | _ => d

/-- R179, R182: a write of SCH_CANCEL. -/
def cancelWrite (p : Nat) (d : Dev) (w : Word) : Dev :=
  match d.descs.find? fun x => x.2.handle = w.toNat && x.2.port = p with
  | some (slot, x) => endDesc (cancelSkipped (d.modDesc slot fun y => { y with cancelAt := some (cycleOf d.now) }) x) slot x
  | none => d.raise (.SCH_PSTAT p) 31

/-- R181: a site reset acts before a commitment of its cycle, which finds the descriptor gone (DEDUCED, log 192). -/
def uncommit (d : Dev) (slot : Nat) (x : Desc) : Dev :=
  match x.place with
  | .engine e =>
    if cycleOf x.commitAt = cycleOf d.now ∧ (d.burst e).isNone then
      (d.modDesc slot fun y => { y with place := .ready }).clear (.ENG_STAT e) 26
    else d
  | _ => d

/-- R158, R181: a site reset ends a descriptor: what no engine has is cancelled, a dispatched burst is aborted. -/
def resetDesc (d : Dev) (slot : Nat) (x : Desc) : Dev :=
  let d := uncommit d slot x
  endDesc d slot ((d.desc slot).getD x)

/-- CANCEL (R179): port `p` writes its SCH_CANCEL (DEDUCED, log 89). -/
def execCancel (p : Fin 8) (w : Word) (s : State) : Host.Outcome State Fault Refusal :=
  act s fun d => regCommand d p (.SCH_CANCEL p) w (cancelWrite p)

end Sys2Proof.Machine
end

