-- ==== Sys2Proof/Machine/Start.lean ====
section
/-! DEFINITION. A burst on its engine: dispatch checks and user routines, arming and the start, the release of vectors, and
the burst's end (02_asell_programs.md R70, R75, 03_engines_and_microcode.md R91, 05_sites_and_dispatch.md R160, R177, R178, R183). -/
namespace Sys2Proof.Machine

/-! ### Dispatch checks (R43, R75) -/

/-- R43: whether a word of the user-code list breaks its rules, given the codes of earlier words. -/
def badListWord (w : Word64) (seen : List Nat) : Bool := bits w 31 4 ≠ 0 || bits w 3 0 < 7 || seen.contains (bits w 3 0)

/-- R43: whether the map of every cuff with a channel of the site agrees with a listed code. -/
def mapAgrees (d : Dev) (chans : List Nat) (w : Word64) : Bool :=
  chans.all fun c => (d.symEntry c (bits w 3 0)).toNat = bits w 63 32

/-- R43: the user-code list is well formed and agrees with the maps. -/
def userCodes (d : Dev) (chans : List Nat) : List Word64 → List Nat → Bool
  | [], _ => true
  | w :: ws, seen =>
    if w = 0 then userCodes d chans ws seen
    else !badListWord w seen && mapAgrees d chans w && userCodes d chans ws (bits w 3 0 :: seen)

/-- R75: the checks of a dispatch: the entry address, or the fault: its code and FADDR. A check that reads poisoned data ends in the
poison trap, code 0x20 (03_engines_and_microcode.md R100). The header's fields are those read at registration, and the entry word, the list
and the code are read now (DEDUCED, log 216). -/
def dispatchCheck (d : Dev) (x : Desc) (l : Loadable) : Except (Nat × Nat) Nat :=
  let decl := (d.site x.site).decl
  let at_ := l.base + l.entryOff + 8 * x.entry
  let w := d.dram.word at_
  if l.entryCount ≤ x.entry then .error (fcTargetRange, 0)
  else if d.dram.poisonedRange at_ 8 then .error (0x20, 0)
  else if bits w 63 40 ≠ 0 then .error (fcField, 0)
  else if l.codeWords ≤ bits w 39 0 then .error (fcTargetRange, bits w 39 0)
  else if l.n ≠ card 128 decl.chans ∨ inSet l.attr 2 ≠ decl.paired then .error (fcSiteMismatch, 0)
  else if l.symreqOff ≠ 0 ∧ d.dram.poisonedRange (l.base + l.symreqOff) 72 then .error (0x20, 0)
  else if l.symreqOff ≠ 0 ∧ !userCodes d decl.list ((List.range 9).map fun i => d.dram.word (l.base + l.symreqOff + 8 * i)) []
  then .error (fcSymbolMap, 0)
  else .ok (bits w 39 0)

/-! ### User routines (R89 to R91) -/

/-- A declaration of Table 3.4, and where its images lie. -/
structure UserDecl where
  number : Nat
  extWords : Nat
  uflags : Nat
  hWords : Nat
  nWords : Nat
  mpCount : Nat
  img : Nat

/-- Declaration `i` of a section at a byte address. -/
def userDecl (d : Dev) (sec i : Nat) : UserDecl :=
  let a := sec + 32 * i
  { number := d.dram.num a 1, extWords := d.dram.num (a + 1) 1, uflags := d.dram.num (a + 2) 2, hWords := d.dram.num (a + 8) 2
    nWords := d.dram.num (a + 10) 2, mpCount := d.dram.num (a + 12) 2, img := sec + d.dram.num (a + 16) 8 }

def UserDecl.hasH (u : UserDecl) : Bool := inSet u.uflags 1
def UserDecl.hasL (u : UserDecl) : Bool := inSet u.uflags 2
def UserDecl.hasTwin (u : UserDecl) : Bool := inSet u.uflags 3

/-- Sizes of the images of a declaration: horizontal words, nano-words, micro-pointers, twin map. -/
def UserDecl.bytes (u : UserDecl) : Nat :=
  32 * u.hWords + 32 * u.nWords + 4 * u.mpCount + (if u.hasTwin then 4 * u.hWords else 0)

/-- The lowest place in [lo, hi) for `len` words beside the places in use (start, length). -/
def fitAt (used : List (Nat × Nat)) (lo hi len : Nat) : Option Nat :=
  ((lo :: used.map fun u => u.1 + u.2).filter fun a =>
    lo ≤ a && a + len ≤ hi && used.all fun u => u.1 + u.2 ≤ a || a + len ≤ u.1).min?

/-- A user horizontal word relocated: BT is relative to the routine's first word (R89). -/
def relocate (w : UWord) (base : Nat) : UWord := withCheck (setBits w 151 140 (bits w 151 140 + base))

/-- A user micro-pointer placed: NANO is relative to the routine's first nano-word (DEDUCED, log 31). -/
def relocatePtr (p : BitVec 24) (nano : Nat) : BitVec 24 := setBits p 12 0 (bits p 12 0 + nano)

/-- Images of a declaration written into the stores. -/
def writeImages (d : Dev) (e : Nat) (u : UserDecl) (r : UserRoutine) : Dev :=
  let nImg := u.img + 32 * u.hWords
  let d := match r.hAddr with
    | none => d
    | some a => d.modEngine e fun x => { x with hstore := (List.range u.hWords).foldl (fun t i =>
        t.put none (a + i) (some (relocate (BitVec.ofNat 176 (d.dram.num (u.img + 32 * i) 22)) a))) x.hstore }
  match r.mpBase with
  | none => d
  | some m =>
    let d := d.modEngine e fun x => { x with mptr := (List.range u.mpCount).foldl (fun t i =>
      t.put none (m + i) (some (relocatePtr (BitVec.ofNat 24 (d.dram.num (nImg + 32 * u.nWords + 4 * i) 3)) r.nano))) x.mptr }
    { d with nano := (List.range u.nWords).foldl (fun t i =>
        t.put none (r.nano + i) (some (withCheck (BitVec.ofNat 176 (d.dram.num (nImg + 32 * i) 22))))) d.nano }

/-- Table 3.3: a routine's directory entry. -/
def userEntry (r : UserRoutine) : Word :=
  pack 32 [(31, 1, r.hAddr.isSome.toNat), (30, 1, r.mpBase.isSome.toNat), (29, 1, r.service.toNat),
    (28, 1, (r.twin ≠ [] && r.hAddr.isSome && r.mpBase.isSome : Bool).toNat), (12, 13, r.mpBase.getD 0), (0, 12, r.hAddr.getD 0)]

/-- R91: a declaration is placed beside the routines an engine holds (DEDUCED, log 68). -/
def placeRoutine (d : Dev) (e digest : Nat) (u : UserDecl) : Dev :=
  let held := (d.engine e).user
  let h := if u.hasH then
      fitAt (held.filterMap fun r => r.hAddr.map fun a => (a, r.hWords)) 3072 4096 u.hWords else none
  let mp := if u.hasL then
      fitAt (held.filterMap fun r => r.mpBase.map fun a => (a, r.mpCount)) 6144 8192 u.mpCount else none
  let na := if u.hasL then
      fitAt ((held.filter (·.mpBase.isSome)).map fun r => (r.nano, r.nWords)) (6144 + 128 * e) (6272 + 128 * e) u.nWords else none
  let lining := mp.isSome && na.isSome
  let tw := u.img + 32 * u.hWords + 32 * u.nWords + 4 * u.mpCount
  let r : UserRoutine := {
    number := u.number, digest, hAddr := h, hWords := u.hWords, mpBase := if lining then mp else none, mpCount := u.mpCount
    nano := if lining then na.getD 0 else 0, nWords := u.nWords, extWords := u.extWords, service := inSet u.uflags 4
    twin := if u.hasTwin then (List.range u.hWords).map fun i => d.dram.num (tw + 4 * i) 4 else [] }
  let d := writeImages d e u r
  d.modEngine e fun x => { x with user := x.user ++ [r], dir := x.dir.put none (64 + u.number) (some (userEntry r)) }

/-- Entries of a table under keys that `f` keeps. -/
def Tbl.keep {α : Type} (t : Tbl α) (f : Nat → Bool) : Tbl α := { cells := t.cells.filter fun c => f c.1 }

/-- Whether a place lies in one of a list of ranges (start, length). -/
def inRanges (l : List (Nat × Nat)) (a : Nat) : Bool := l.any fun r => r.1 ≤ a && a < r.1 + r.2

/-- R91: everything in an engine's user regions but the routines of a list is evicted. -/
def evict (d : Dev) (e : Nat) (kept : List UserRoutine) : Dev :=
  let hs := kept.filterMap fun r => r.hAddr.map fun a => (a, r.hWords)
  let ms := kept.filterMap fun r => r.mpBase.map fun a => (a, r.mpCount)
  let ns := (kept.filter (·.mpBase.isSome)).map fun r => (r.nano, r.nWords)
  let d := d.modEngine e fun x => { x with
    user := kept, hstore := x.hstore.keep fun a => decide (a < 3072) || inRanges hs a
    mptr := x.mptr.keep fun a => decide (a < 6144) || inRanges ms a
    dir := x.dir.keep fun k => decide (k < 64) || kept.any fun r => 64 + r.number = k
    liningOnly := x.liningOnly.filter fun k => decide (k < 64) || kept.any fun r => 64 + r.number = k }
  { d with nano := d.nano.keep fun a => !inRanges [(6144 + 128 * e, 128)] a || inRanges ns a }

/-- ENG_UREG (R107). -/
def uregUpdate (d : Dev) (e : Nat) : Dev :=
  let l := (d.engine e).user
  let h := ((l.filter (·.hAddr.isSome)).map (·.hWords)).sum
  let m := ((l.filter (·.mpBase.isSome)).map (·.mpCount)).sum
  let n := ((l.filter (·.mpBase.isSome)).map (·.nWords)).sum
  d.wr (.ENG_UREG e) (pack 32 [(20, 12, m), (8, 11, h), (0, 8, n)])

/-- Whether the images of a loadable's user routines, which its dispatch reads, come poisoned. -/
def loadPoison (d : Dev) (l : Loadable) : Bool :=
  l.uopCount ≠ 0 && (d.dram.poisonedRange (l.base + l.uopOff) (32 * l.uopCount) || l.routines.zipIdx.any fun p =>
    let u := userDecl d (l.base + l.uopOff) p.2
    d.dram.poisonedRange u.img u.bytes)

/-- R91: an engine loads the user routines of a loadable: matching ones are kept, the rest evicted, and the others placed in
declaration order. -/
def loadRoutines (d : Dev) (e : Nat) (l : Loadable) : Dev :=
  let kept := (d.engine e).user.filter fun r => l.routines.contains (r.number, r.digest) && (r.hAddr.isSome || r.mpBase.isSome)
  let d := evict d e kept
  let d := d.each (l.routines.zipIdx) fun d p =>
    if (d.engine e).user.any fun r => (r.number, r.digest) = p.1 then d
    else placeRoutine d e p.1.2 (userDecl d (l.base + l.uopOff) p.2)
  uregUpdate d e

/-! ### Dispatch (R160, R75, R91) -/

/-- A burst as it stands at dispatch (R75). -/
def newBurst (d : Dev) (slot : Nat) (x : Desc) (l : Loadable) : Burst :=
  { slot, site := x.site, load := x.load, entry := x.entry, base := l.base, n := l.n, codeOff := l.codeOff, codeWords := l.codeWords
    tableOff := l.tableOff, tableCount := l.tableCount, maskOff := l.maskOff, maskCount := l.maskCount, padOff := l.padOff
    uopOff := l.uopOff, uopCount := l.uopCount, defaultTs := l.defaultTs, dts := l.defaultTs, digest := l.digest
    image := allX (card 128 (d.site x.site).decl.chans), stop := x.abort
    flags := x.flags, lines := (d.ring x.site).lines }

/-- What a dispatch clears: the engine's values of R106 and R109, DRC_SRUNDER (06_pattern_memory.md R251), the site's capture
without KEEP, its stamp region with RESTART, and the first-violation marks of its units (07_capture_and_acquisition.md R265). -/
def dispatchClears (d : Dev) (e s : Nat) : Dev :=
  let d := (d.wr (.ENG_STRETCH e) 0).modEngine e fun y => { y with padVec := 0, padFirst := none, discard := 0, emitted := 0 }
  let d := capDispatch (d.modRing s fun r => { r with under := none }) s
  let d := d.onlyIf (d.flag (.TDC_RCTL s) 30) fun d => stampHome d s
  d.each (List.range 16) fun d u => if d.acqSite u = s then d.modAcq u fun a => { a with violated := false } else d

/-- The descriptor that waits for its engine to receive it. -/
def committedTo (d : Dev) (e : Nat) : Option (Nat × Desc) :=
  if (d.burst e).isSome then none else d.descs.find? fun x => x.2.place = .engine e

/-- The lines of DRAM that a dispatch reads: of its entry, of its user-code list, and of the user routines (R75, R91). -/
def dispatchLines (d : Dev) (x : Desc) (l : Loadable) : List Nat :=
  linesOf (l.base + l.entryOff + 8 * x.entry) 8 ++ (if l.symreqOff = 0 then [] else linesOf (l.base + l.symreqOff) 72) ++
  (if l.uopCount = 0 then [] else linesOf (l.base + l.uopOff) (32 * l.uopCount) ++ l.routines.zipIdx.flatMap fun p =>
    let u := userDecl d (l.base + l.uopOff) p.2
    linesOf u.img u.bytes)

/-- 06_pattern_memory.md R210, R222: a dispatch's reads as the controller sees them. -/
def dispatchRead (d : Dev) (x : Desc) (l : Loadable) : Dev := readsDone d ((dispatchLines d x l).map fun a => (a, d.dram.poisoned a))

/-- A burst starts on its engine: connected, checked, its routines loading; an abort that came before waits as an interrupt, and a service
routine in progress is interrupted (03_engines_and_microcode.md R99). -/
def receiveBurst (d : Dev) (e slot : Nat) (x : Desc) (l : Loadable) : Dev :=
  let b := newBurst d slot x l
  let d := ((pauseService (dispatchClears (dispatchRead d x l) e x.site) e).modEngine e fun y => { y with
    burst := some b, armReq := true, hostAbort := x.abort.isSome, affinity := none }).modRing x.site fun r => { r with lines := [] }
  let fault (c f : Nat) (d : Dev) : Dev :=
    (d.modEngine e fun y => { y with armReq := false, burst := y.burst.map fun b => { b with fin := some (.fault c f false) } }).set
      (.ENG_STAT e) 31 28 5
  match dispatchCheck d x l with
  | .error (code, faddr) => fault code faddr (d.onlyIf (code = 0x20) fun d => trapEntry d e 0x03 none)
  | .ok pc =>
    if loadPoison d l then fault 0x20 0 (trapEntry d e 0x03 none)
    else ((loadRoutines d e l).modBurst e fun b => { b with pc }).set (.ENG_STAT e) 31 28 1

/-- A burst that its engine has not received ends without running: aborted where a site reset has dropped its loadable (R158, R180),
or at fault where the engine is withdrawn (15_dependability.md R483). -/
def dropBurst (d : Dev) (e slot : Nat) (x : Desc) (f : Final) : Dev :=
  let l : Loadable := {
    site := x.site, base := 0, n := 0, defaultTs := 0, attr := 0, buildId := 0, entryCount := 0, tableCount := 0, maskCount := 0
    uopCount := 0, codeOff := 0, codeWords := 0, tableOff := 0, maskOff := 0, entryOff := 0, symreqOff := 0, uopOff := 0, padOff := 0
    total := 0, digest := 0, routines := [] }
  ((pauseService (dispatchClears d e x.site) e).modEngine e fun y => { y with
    burst := some { newBurst d slot x l with fin := some f }, affinity := none }).set (.ENG_STAT e) 31 28 5

/-- R160, R20: a dispatch command reaches its engine, across seam 32; its reads of the loadable wait for the stack (06_pattern_memory.md R226). -/
def dispatchReceived (d : Dev) (e : Nat) : Dev :=
  match committedTo d e with
  | none => d
  | some (slot, x) => if d.seamFenced 32 then d
    else if !d.engineReads then (if x.abort.isSome then dropBurst d e slot x .abort else d)
    else match d.sched.registry.get none x.load with
    | some l => receiveBurst d e slot x l
    | none => dropBurst d e slot x .abort

/-- ENGINE_DISPATCH_RECEIVED (R160). -/
def execEngineDispatchReceived (e : Fin 16) (s : State) : Host.Outcome State Fault Refusal :=
  act s fun d => dispatchReceived d e

/-! ### Arming and the start (R14, R177, R178, R515) -/

/-- The descriptor of an engine's burst. -/
def Dev.burstDesc (d : Dev) (e : Nat) : Option (Burst × Desc) :=
  match d.burst e with
  | none => none
  | some b => (d.desc b.slot).map fun x => (b, x)

/-- 40 ns (R14). -/
def ns40 : Nat := 40 * nano1

/-- R178: whether a burst still waits for its start, its program ended or not: no abort and no skip has ended it, and its dispatch did not
fail (R75). -/
def Burst.startOpen (b : Burst) (d : Dev) (e : Nat) : Bool :=
  b.start.isNone && 1 ≤ d.engState e && d.engState e ≤ 3 && b.fin ≠ some .abort && b.fin ≠ some .skip && b.fin ≠ some .cancelled

/-- R178, R182: a start is abandoned: the burst does not run. One that has ended, or that an abort has reached, is left as it is (Table
5.9); a cancel of the same cycle makes it CANCELLED (DEDUCED, log 191). -/
def skipBurst (d : Dev) (e : Nat) (b : Burst) : Dev :=
  let same := (d.desc b.slot).any fun x => x.cancelAt = some (cycleOf d.now)
  if !b.startOpen d e ∨ (b.stop.isSome ∧ !same) then d
  else
    let c := { b.drained with wait := none, micro := none, acts := [], skipAt := cycleOf d.now }
    let d := d.modEngine e fun x => { x with armReq := false }
    (if same then discardEmitted d e b { c with fin := some .cancelled }
     else discardEmitted (missEntry d b.site true 0) e b { c with fin := some .skip, flags := b.flags ||| 2 ^ 3 }).set (.ENG_STAT e) 31 28 5

/-- R177: a start time is fixed. -/
def fixStart (d : Dev) (e t : Nat) : Dev := d.modBurst e fun b => { b with start := some (toHalf t), nextT0 := toHalf t }

/-- R178: a start that is late by `late` units. -/
def lateStart (d : Dev) (e : Nat) (b : Burst) (t late : Nat) : Dev :=
  let d := missEntry d b.site false (late / nano1)
  (fixStart d e t).modBurst e fun b => { b with late := late / nano1, flags := b.flags ||| 2 ^ 2 }

/-- R177, R178: the start of an armed burst, where A is the time at which its arming completed. -/
def setStart (d : Dev) (e : Nat) (b : Burst) (x : Desc) (a : Nat) : Dev :=
  if x.start = 1 then
    if a + ns40 ≤ x.startT then fixStart d e x.startT
    else if x.miss then skipBurst d e b else lateStart d e b (a + ns40) (a + ns40 - x.startT)
  else if x.start = 2 then
    match x.got with
    | none => d
    | some ev =>
      if a ≤ ev then fixStart d e (ev + ns40)
      else if x.miss then skipBurst d e b else lateStart d e b (a + ns40) (a - ev)
  else fixStart d e (a + ns40)

/-- Whether what a burst reads of its stream, from its position on, has all been written: at most `n` instructions to the end of the
stream. -/
def streamEnds (d : Dev) : Nat → Burst → Bool
  | 0, _ => true
  | n + 1, b => match fetchWord d b b.pc with
    | .error (.code _) => true
    | .error _ => false
    | .ok h =>
      let next := instrEnd d b h
      decide (8 * next ≤ (d.ring b.site).w) && (hOpc h = 0x3F || hOpc h = 0x07 || streamEnds d n { b with pc := next })

/-- R515: the prefetch buffer has taken in the first 32 KiB of what the burst fetches, or all of it. -/
def prefetched (d : Dev) (b : Burst) : Bool :=
  decide (512 ≤ b.fetched) || b.fin.isSome ||
  (if b.inStream then streamEnds d 4096 b else (upcoming d b 512).all fun x => (heldLine b x.1 x.2).isSome)

/-- R515, R46: the burst with its last vectors packed, where its engine can emit no more. -/
def packed (d : Dev) (e : Nat) (b : Burst) : Burst := if emitsNoMore d e b then b.closePart (d.yokeFenced b.site) else b

/-- R515: whether a burst is armed: prefetched, its cuffs filled; or a word of a user routine has said so (R80, SCHS). DRAM in self-refresh
holds its prefetch (06_pattern_memory.md R226). -/
def armingMet (d : Dev) (e : Nat) (b : Burst) : Bool :=
  d.dramActive && (b.armSignal || (prefetched d b && cuffsFilled d e (packed d e b)))

/-- R515: arming completes, at a local time that the engine cluster's mirror gives (R14, R15). -/
def armingComplete (d : Dev) (e : Nat) : Dev :=
  match d.burstDesc e with
  | none => d
  | some (b, x) =>
    if d.engState e = 2 ∧ b.armed = none ∧ b.fin ≠ some .abort ∧ armingMet d e b then
      let d := (d.modBurst e fun _ => { packed d e b with armed := some (d.nowOn 8) }).set (.ENG_STAT e) 31 28 3
      setStart d e { b with armed := some (d.nowOn 8) } x (d.nowOn 8)
    else d

/-- ARMING_COMPLETE (R515). -/
def execArmingComplete (e : Fin 16) (s : State) : Host.Outcome State Fault Refusal := act s fun d => armingComplete d e

/-- R178, R182: a start is abandoned whose engine waits for the stack with the burst's first reads (06_pattern_memory.md R226). -/
def skipUnread (d : Dev) (e slot : Nat) (x : Desc) : Dev :=
  if x.cancelAt = some (cycleOf d.now) then dropBurst d e slot x .cancelled
  else if x.abort.isSome then d
  else (dropBurst (missEntry d x.site true 0) e slot x .skip).modBurst e fun b => { b with flags := b.flags ||| 2 ^ 3, skipAt := cycleOf d.now }

/-- R178: a dispatched start is abandoned; an engine that has not received its burst does so first. -/
def abandonStart (d : Dev) (e slot : Nat) (x : Desc) : Dev :=
  match d.burst e with
  | some b => skipBurst d e b
  | none => if !d.engineReads then skipUnread d e slot x else match d.sched.registry.get none x.load with
    | some l =>
      let d := receiveBurst d e slot x l
      match d.burst e with
      | some b => skipBurst d e b
      | none => d
    | none => d

/-- R177, R178: an event reaches a dispatched descriptor that waits for it: its engine has armed, is arming, or has still to
receive it. -/
def eventAt (d : Dev) (slot : Nat) (x : Desc) (ev : Nat) : Dev :=
  if x.got.isSome then d
  else
    let d := d.modDesc slot fun y => { y with got := some ev }
    match x.place with
    | .engine e => match (d.burst e).bind (·.armed), d.burst e with
      | some a, some b => if b.startOpen d e then setStart d e b { x with got := some ev } a else d
      | _, _ => if x.miss then abandonStart d e slot x else d
    | _ => d

/-- R177: a start event is delivered to the dispatched descriptors that name it, of one site where it belongs to one; it is kept for a
commitment later in its cycle. -/
def startEvent (d : Dev) (code : Nat) (site : Option Nat) (ev : Nat) : Dev :=
  let c := cycleOf d.now
  let d := d.modSched fun y => { y with heard := (c, (if y.heard.1 = c then y.heard.2 else []) ++ [(code, site, ev)]) }
  d.each (d.descs.filter fun x => x.2.start = 2 && x.2.event = code && x.2.dispatched && site.all (· = x.2.site)) fun d x =>
    eventAt d x.1 x.2 ev

/-! ### Commitment (R175, R177, R416) -/

/-- R177: an event that arrived earlier in the scheduler cycle of a descriptor's commitment counts. -/
def commitHeard (d : Dev) (slot : Nat) (x : Desc) : Dev :=
  match (d.sched.heard.2.find? fun v => x.start = 2 && v.1 = x.event && v.2.1.all (· = x.site)), d.desc slot with
  | some v, some y => if d.sched.heard.1 = cycleOf d.now then eventAt d slot y v.2.2 else d
  | _, _ => d

/-- R175: a scheduler cycle commits at most one descriptor. -/
def dispatchCycle (d : Dev) (skip : Nat) : Dev :=
  if d.dispatchHeld then d
  else match chooseDesc d (considered d skip) with
    | none => d
    | some (slot, x, e) => commitHeard ((commitDesc d slot x e).modSched fun y => { y with nextCommit := nextCycle d }) slot x

/-- R175, R416: the start of the first cycle from now on in which a ready descriptor may be considered, after one that committed another. -/
def dispatchDue (d : Dev) : Option Nat :=
  ((d.descs.filter fun x => x.2.place = .ready).map fun x =>
    cycleOf (max (max ((cycleOf x.2.readyAt + 1) * nano1) d.sched.nextCommit) d.now + nano1 - 1) * nano1).min?

/-- DISPATCH_COMMIT (R175); `skip` is the set of sites whose descriptor is not yet considered (R175's open delay). -/
def execDispatchCommit (skip : BitVec 16) (s : State) : Host.Outcome State Fault Refusal :=
  actAt s (dispatchDue s.mirror) fun d => dispatchCycle d skip.toNat

/-- R178: whether a descriptor's deadline can still pass: a timed start under MISS = 1 that is uncommitted or not armed. -/
def deadlineOpen (d : Dev) (x : Desc) : Bool :=
  x.start = 1 && x.miss && (match x.place with
    | .engine e => match d.burst e with
      | some b => b.armed = none && b.startOpen d e && b.stop = none
      | none => true
    | _ => true)

/-- R178: local time passes T - 40 ns. An uncommitted descriptor leaves the table; an engine abandons its arming. -/
def deadlinePassed (d : Dev) (slot : Nat) : Dev :=
  match d.desc slot with
  | none => d
  | some x =>
    if !deadlineOpen d x ∨ d.now < deadlineOf x then d
    else match x.place with
      | .engine e => abandonStart d e slot x
      | _ => postCompletion (missEntry d x.site true 0) slot x { status := csMissedStart, flags := 2 ^ 3 }

/-- When a descriptor's deadline passes: an engine's arming ends at the instant, and an uncommitted descriptor leaves with the scheduler
cycle of it, in which a cancel comes first (R182). -/
def deadlineDue (d : Dev) (slot : Nat) : Option Nat :=
  (d.desc slot).bind fun x =>
    if !deadlineOpen d x then none
    else match x.place with
      | .engine _ => some (deadlineOf x)
      | _ => some ((cycleOf (deadlineOf x) + 1) * nano1)

/-- START_DEADLINE_PASSED (R178) for the descriptor in a slot. -/
def execStartDeadlinePassed (slot : Fin 4096) (s : State) : Host.Outcome State Fault Refusal :=
  actAt s (deadlineDue s.dev slot) fun d => deadlinePassed d slot

/-! ### Release (R13) -/

/-- R127, R135, R136: a burst's first release starts its channels' timelines afresh. -/
def freshChannels (d : Dev) (b : Burst) : Dev :=
  if b.lastEnd = none then
    d.each (d.site b.site).decl.list fun d c => d.modChan c fun x => { x with last := none, lastClose := none }
  else d

/-- R13: the cuffs of a site reach their next T0. -/
def vectorRelease (d : Dev) (s : Nat) : Dev :=
  match releaseDue d s with
  | none => d
  | some (e, b) => match d.desc b.slot with
    | none => d
    | some x => releaseNext (freshChannels d b) e b x.under x.handle

/-- The first cuff with a channel of a site: its mirror times the site's releases (R13, R16). -/
def Dev.firstCuff (d : Dev) (s : Nat) : Nat := ((List.range 8).find? (d.site s).decl.usesCuff).getD 0

/-- VECTOR_RELEASE (R13). -/
def execVectorRelease (site : Fin 16) (s : State) : Host.Outcome State Fault Refusal :=
  actAt s ((releaseDue s.dev site).map fun r => s.dev.dueOn (s.dev.firstCuff site) (cuffTime r.2 * halfPs)) fun d => vectorRelease d site

/-! ### The end of a burst (R70, R71, R139, R183) -/

/-- R70: a burst can end: nothing more is emitted, nothing is left to release, and every result has returned (DEDUCED, log 84), but for
those behind a fenced seam (DEDUCED, log 190); its completion crosses seam 33 (R20). -/
def burstDone (d : Dev) (b : Burst) : Bool :=
  b.fin.isSome && (b.queue = [] || b.stopped) && ((d.site b.site).flight = [] || d.resultsFenced b.site) && !d.seamFenced 33

/-- R262: the end of a burst ends the acquisition of its digital units. -/
def stopDigital (d : Dev) (s : Nat) : Dev :=
  d.each (List.range 16) fun d u => if d.acqSite u = s ∧ !(d.acq u).cfg.stream then acqStop d u else d

/-- R66, Table 7.8: the markers of a burst that no numbered vector follows, or whose vector was discarded, take the vector count and the time
and class of the END entry, at whatever end (DEDUCED, log 193). -/
def lateMarks (d : Dev) (e : Nat) (b : Burst) : Dev :=
  let marks := b.padMarks.map (·.1) ++ (padMarksOf false 0 b.acts).map (·.1)
  (d.each marks fun d imm => markEntry d b.site (endTv d b) (endTime d b).2 (endTime d b).1 imm b.released).modBurst e fun b =>
    { b with padMarks := [] }

/-- Table 5.9: the status of a burst that ran, by precedence. -/
def statusOf (b : Burst) : Nat :=
  match b.fin with
  | some (.fault _ _ _) => csAbortedFault
  | some .abort => csAbortedHost
  | some .skip => csMissedStart
  | some .cancelled => csCancelled
  | some (.maskStop _) => if b.stopped && b.stop.isSome then csAbortedHost else csStoppedMask
  | _ =>
    if b.stopped && b.stop.isSome then csAbortedHost
    else if inSet b.flags 2 then csMissedStart
    else if inSet b.flags 1 then csStretched
    else if inSet b.flags 0 then csDoneFail else csDonePass

/-- The completion record of a burst (Table 5.8). -/
def endingOf (e : Nat) (b : Burst) : Ending :=
  let f := match b.fin with
    | some (.fault c a st) => (c, a, st)
    | _ => (0, 0, false)
  { status := statusOf b, flags := b.flags, fcode := f.1, engine := some e, faddr := f.2.1, fstream := f.2.2
    exit := match b.fin with
      | some (.halt c) => c
      | _ => 0
    vcount := b.released, start := if b.lastEnd.isSome then b.start.getD 0 * halfPs else 0, late := b.late }

/-- R71, R275: the END_DETAIL entry of a faulted or mask-stopped burst, and the END entry. -/
def endEntries (d : Dev) (e : Nat) (b : Burst) (r : Ending) : Dev :=
  let t := endTime d b
  let stopV := match b.fin with
    | some (.maskStop (some v)) => v % 2 ^ 48
    | _ => 2 ^ 48 - 1
  let d := d.onlyIf (r.status = csAbortedFault || r.status = csStoppedMask) fun d =>
    ledgerTv d (endTv d b) 0x18 t.2 b.site e t.1 r.fcode (r.fstream.toNat * 2 ^ 40 + r.faddr % 2 ^ 40) stopV
  ledgerTv d (endTv d b) 0x02 t.2 b.site e t.1 0 (pack 64 [(32, 4, r.status), (24, 8, r.fcode), (16, 8, r.flags), (0, 16, r.exit)]).toNat
    (r.vcount % 2 ^ 48)

/-- R160, R175, R483: the engine is disconnected and remembers its last burst, unless it is withdrawn. Idle, it takes up its service routines
(R99). Nothing fetched of the ring is lost: F never falls here, and the lines not yet executed stay with the ring (06_pattern_memory.md R230,
R231) (DEDUCED, log 211). -/
def freeEngine (d : Dev) (e : Nat) (b : Burst) : Dev :=
  let d := (d.modEngine e fun x => { x with
    burst := none, affinity := if d.flag .SCH_ENGEN (16 + e) then none else some (b.load, b.site, d.now), armReq := false, hostAbort := false }).modRing b.site fun r =>
    { r with lines := b.lines.filter fun l => l.ring && decide (r.rd / 64 ≤ l.key) }
  let d := ((d.set (.ENG_STAT e) 31 28 (if d.flag .SCH_ENGEN (16 + e) then 6 else 0)).clear (.ENG_STAT e) 26).clear (.ENG_STAT e) 27
  resumeService d e

/-- A burst ends with a record: its pad, its blocks and lines close, its channels idle, its entries and its completion are written. -/
def endBurst (d : Dev) (e : Nat) (b : Burst) (x : Desc) : Dev :=
  let d := padEnd d e b b.nextT0
  let d := capEnd (closeFails (d.modSite b.site fun y => { y with flight := [] }) e) b.site
  let d := lateMarks (stopDigital d b.site) e ((d.burst e).getD b)
  let d := switchAtEnd (idleBurst d e b) b.site
  let b := (d.burst e).getD b
  let r := endingOf e b
  let d := endEntries d e b r
  freeEngine (postCompletion d b.slot x r) e b

/-- R70: the last released period has ended and its compares have returned. -/
def burstEnd (d : Dev) (e : Nat) : Dev :=
  match d.burstDesc e with
  | none => d
  | some (b, x) => if burstDone d b then endBurst d e b x else d

/-- The end of a burst's last released period, or of the scheduler cycle in which its start was abandoned (R182). -/
def endDue (d : Dev) (e : Nat) : Option Nat :=
  match d.burst e with
  | some b =>
    if !burstDone d b then none
    else if b.fin = some .skip then some ((b.skipAt + 1) * nano1)
    else b.lastEnd.map (· * halfPs)
  | none => none

/-- BURST_END (R70). -/
def execBurstEnd (e : Fin 16) (s : State) : Host.Outcome State Fault Refusal :=
  actAt s (endDue s.dev e) fun d => burstEnd d e

end Sys2Proof.Machine
end

