-- ==== Sys2Proof/Machine/Bolts.lean ====
section
/-! DEFINITION. Bolt allocation and wipes, stream rings and rewind marks (06_pattern_memory.md R205 to R207, R228 to R233). -/
namespace Sys2Proof.Machine

/-! ### Wipes (R207) -/

/-- A byte range read as zero, with no line of it poisoned. -/
def zeroRange (d : Dev) (a n : Nat) : Dev :=
  d.modDram fun m => { m with
    mem := m.mem.filter fun c => !(decide (a ≤ c.1) && decide (c.1 < a + n))
    poison := m.poison.filter fun l => !(decide (a ≤ 64 * l) && decide (64 * l < a + n)) }

/-- Bytes of a bolt. -/
def boltBytes : Nat := 0x200000

/-- A bolt wiped (DEDUCED, log 82). -/
def wipeBolt (d : Dev) (b : Nat) : Dev := zeroRange d (b * boltBytes) boltBytes

def Dev.putBolt (d : Dev) (b : Nat) (x : Bolt) : Dev := d.modDram fun m => { m with bolts := m.bolts.put {} b x }

/-- The bolts allocated to a site. -/
def Dev.siteBolts (d : Dev) (s : Nat) : List Nat :=
  (d.dram.bolts.cells.filter fun p => p.2.alloc && p.2.site = s).map (·.1)

/-- DRC_BSTAT.BUSY: a wipe runs (R207, R246). -/
def Dev.allocBusy (d : Dev) : Bool := d.dram.wipes ≠ [] || (List.range 16).any fun s => (d.site s).wiping

/-- DRC_BSTAT after an operation: succeeded, or failed with a code at a bolt (R246, R514). -/
def allocDone (d : Dev) : Dev := ((d.outcome .DRC_BSTAT 30 29).set .DRC_BSTAT 26 24 0).set .DRC_BSTAT 14 0 0
def allocFail (d : Dev) (code bolt : Nat) : Dev :=
  ((d.outcome .DRC_BSTAT 29 30).set .DRC_BSTAT 26 24 code).set .DRC_BSTAT 14 0 bolt

/-- R156, R207: the releasing site whose bolt is wiped next: its buffers drain before. -/
def releasingSite (d : Dev) : Option Nat :=
  d.dram.wipes.head?.bind fun w => if (d.dram.bolt w.1).alloc && (d.site (d.dram.bolt w.1).site).releasing then some (d.dram.bolt w.1).site else none

/-- R207: the wipe of a bolt ends, and the bolt is free. What a releasing site's buffers hold lands before. -/
def boltWipeEnd (d : Dev) : Dev :=
  match d.dram.wipes with
  | [] => d
  | (b, n, cmd) :: ws =>
    if !d.dramActive then d
    else
      let d := (releasingSite d).elim d (drainSite d)
      if (releasingSite d).any fun s => !siteDrained d s then d
      else
      let d := (wipeBolt d b).putBolt b {}
      let d := d.modDram fun m => { m with wipes := if n ≤ 1 then ws else (b + 1, n - 1, cmd) :: ws }
      d.onlyIf (cmd && decide (n ≤ 1)) allocDone

/-- BOLT_WIPE_END (R207): where a releasing site's buffers drain before it, at the time at which their grants have let them. -/
def execBoltWipeEnd (s : State) : Host.Outcome State Fault Refusal :=
  match releasingSite s.mirror with
  | none => act s boltWipeEnd
  | some x =>
    let d := closeSite s.mirror x
    actFrom s d (some (siteDrainAt d x)) boltWipeEnd

/-! ### Allocation (R206, Table 6.2) -/

/-- Whether a bolt lies in a range of bolts. -/
def inBolts (b first count : Nat) : Bool := first ≤ b && b < first + count

/-- A region register's bolts: BOLT and SIZE + 1. -/
def inRegion (b : Nat) (w : Word) : Bool := inBolts b (bits w 14 0) (bits w 30 16 + 1)

/-- Whether a registered loadable has part of itself in a bolt. -/
def holdsLoadable (d : Dev) (b : Nat) : Bool :=
  d.sched.registry.cells.any fun p => p.2.any fun l => inBolts b (l.base / boltBytes) ((l.total + boltBytes - 1) / boltBytes)

/-- Table 6.2, IN_USE. -/
def boltInUse (d : Dev) (b : Nat) : Bool :=
  let s := (d.dram.bolt b).site
  !d.siteIdle s || (d.site s).resetting || (d.site s).releasing || holdsLoadable d b ||
  ((List.range 16).any fun s =>
    (d.ringOn s && inBolts b (d.get (.DRC_SRBASE s) 14 0) (d.get (.DRC_SRCFG s) 11 0 + 1)) ||
    (d.flag (.ACQ_CAPCFG s) 31 && inRegion b (d.site s).cap.region) ||
    (d.flag (.TDC_RCTL s) 31 && inRegion b (d.rd (.TDC_RBASE s))) ||
    (d.acqState s ≠ 0 && (inRegion b (d.acq s).cfg.rbase || b = bits (d.acq s).cfg.envtab 14 0))) ||
  (List.range 8).any fun n => d.srcState n ≠ 0 &&
    (b = d.get (.SRC_TBASE n) 14 0 || inRegion b (d.rd (.SRC_RBASE n)))

/-- The code of Table 6.2 for one bolt, 0 for none. -/
def boltCheck (d : Dev) (alloc : Bool) (b : Nat) : Nat :=
  if b < 512 ∨ 24575 < b then 1
  else if alloc then (if (d.dram.bolt b).alloc then 2 else 0)
  else if !(d.dram.bolt b).alloc then 4
  else if boltInUse d b then 3 else 0

/-- The first bolt of a range that fails, with its code. -/
def firstBad (d : Dev) (alloc : Bool) (first count : Nat) : Option (Nat × Nat) :=
  ((List.range count).map fun i => (first + i, boltCheck d alloc (first + i))).find? fun p => p.2 ≠ 0

/-- R206: ALLOC of the range in DRC_BRANGE. -/
def allocBolts (d : Dev) (site : Nat) : Dev :=
  let first := d.get .DRC_BRANGE 14 0
  let count := d.get .DRC_BRANGE 30 16 + 1
  if !d.siteOpen site then allocFail d 5 first
  else match firstBad d true first count with
    | some (b, c) => allocFail d c b
    | none => allocDone (d.each (List.range count) fun d i => d.putBolt (first + i) { alloc := true, site })

/-- R206, R207: FREE of the range in DRC_BRANGE: its bolts are wiped one after another. -/
def freeBolts (d : Dev) : Dev :=
  let first := d.get .DRC_BRANGE 14 0
  let count := d.get .DRC_BRANGE 30 16 + 1
  match firstBad d false first count with
  | some (b, c) => allocFail d c b
  | none => d.modDram fun m => { m with wipes := m.wipes ++ [(first, count, true)] }

/-- R246: a write of DRC_BCMD. -/
def bcmdWrite (d : Dev) (w : Word) : Dev :=
  let d := d.store .DRC_BCMD w
  if d.allocBusy then d
  else if bit w 31 then allocBolts d (bits w 3 0)
  else if bit w 30 then freeBolts d
  else d

/-- ALLOC (R206): port `p` writes DRC_BCMD with ALLOC. -/
def execAlloc (p : Fin 8) (w : Word) (s : State) : Host.Outcome State Fault Refusal :=
  act s fun d => regCommand d p .DRC_BCMD (setBit w 31 true) bcmdWrite

/-- FREE (R207): port `p` writes DRC_BCMD with FREE and without ALLOC. -/
def execFree (p : Fin 8) (w : Word) (s : State) : Host.Outcome State Fault Refusal :=
  act s fun d => regCommand d p .DRC_BCMD (setBit (setBit w 31 false) 30 true) bcmdWrite

/-! ### Stream rings (R228 to R233) -/

/-- The version that the owning port of a site negotiated, 0 for none. -/
def Dev.ringVersion (d : Dev) (s : Nat) : Nat := d.version (d.siteOwner s)

/-- R230: the floor: M while the mark is valid, and F otherwise. -/
def Dev.ringFloor (d : Dev) (s : Nat) : Nat := if d.markValid s then (d.ring s).m else (d.ring s).f

/-- R230, R232: the grant limit: floor + size, and never back (DEDUCED, log 83). -/
def Dev.ringGrant (d : Dev) (s : Nat) : Nat :=
  if d.ringOn s then max (d.ring s).g (d.ringFloor s + d.ringSize s) else (d.ring s).g

/-- The grant limit brought up to date before the floor moves. -/
def grantNow (d : Dev) (s : Nat) : Dev := d.modRing s fun r => { r with g := d.ringGrant s }

/-- R228, R231: W and F return to 0, the mark is cleared, and G becomes size. -/
def ringReset (d : Dev) (s : Nat) : Dev :=
  (d.clear (.DRC_SRSTAT s) 31).modRing s fun r => { r with w := 0, f := 0, rd := 0, g := d.ringSize s, lines := [] }

/-- R232: the mark is cleared, and the floor returns to F. -/
def unmark (d : Dev) (s : Nat) : Dev := (grantNow d s).clear (.DRC_SRSTAT s) 31

/-- R228: ENABLE is set only when every bolt of the ring is allocated to the site. -/
def ringEnable (d : Dev) (s : Nat) : Dev :=
  if d.boltsOf s (d.get (.DRC_SRBASE s) 14 0) (d.get (.DRC_SRCFG s) 11 0 + 1) then d.set (.DRC_SRCFG s) 31 31 1
  else (d.set (.DRC_SRCFG s) 31 31 0).raise (.DRC_SRSTAT s) 26

/-- R228, R248: a write of DRC_SRCFG. -/
def srcfgWrite (s : Nat) (d : Dev) (w : Word) : Dev :=
  let changes := bits w 11 0 ≠ d.get (.DRC_SRCFG s) 11 0 || bit w 31 ≠ d.ringOn s || bit w 30
  if changes && d.siteDispatched s then d.raise (.DRC_SRSTAT s) 27
  else
    let d := ((grantNow d s).modRing s fun r => if changes then { r with lines := [] } else r).set (.DRC_SRCFG s) 11 0 (bits w 11 0)
    let d := if bit w 31 then ringEnable d s else d.set (.DRC_SRCFG s) 31 31 0
    let d := d.onlyIf (bit w 30) fun d => ringReset d s
    d.onlyIf (bit w 29) fun d => unmark d s

/-- RING_ENABLE (R228): port `p` writes DRC_SRCFG with ENABLE = 1. -/
def execRingEnable (p : Fin 8) (site : Fin 16) (w : Word) (s : State) : Host.Outcome State Fault Refusal :=
  act s fun d => regCommand d p (.DRC_SRCFG site) (setBit w 31 true) (srcfgWrite site)

/-- RESETPOS (R228): port `p` writes DRC_SRCFG with RESETPOS. -/
def execResetpos (p : Fin 8) (site : Fin 16) (w : Word) (s : State) : Host.Outcome State Fault Refusal :=
  act s fun d => regCommand d p (.DRC_SRCFG site) (setBit w 30 true) (srcfgWrite site)

/-- UNMARK (R232): port `p` writes DRC_SRCFG with UNMARK. -/
def execUnmark (p : Fin 8) (site : Fin 16) (w : Word) (s : State) : Host.Outcome State Fault Refusal :=
  act s fun d => regCommand d p (.DRC_SRCFG site) (setBit w 29 true) (srcfgWrite site)

/-- R228: a write of DRC_SRBASE while a burst is dispatched is ignored where it changes BOLT. -/
def srbaseWrite (s : Nat) (d : Dev) (w : Word) : Dev :=
  if d.siteDispatched s ∧ bits w 14 0 ≠ d.get (.DRC_SRBASE s) 14 0 then d.raise (.DRC_SRSTAT s) 27
  else d.store (.DRC_SRBASE s) w

/-- R232 to R234: the mark is invalid, and the burst dispatched to the site records it. -/
def markLost (d : Dev) (s : Nat) : Dev := ((d.clear (.DRC_SRSTAT s) 31).raise (.DRC_SRSTAT s) 30).siteFlag s 6

/-- R232: a mark is set: ignored above W, lost below what has been granted, or valid. -/
def markSet (d : Dev) (s : Nat) : Dev :=
  let m := ((d.rd (.DRC_SRMARKHI s)).toNat * 2 ^ 32 + (d.rd (.DRC_SRMARKLO s)).toNat) / 64 * 64
  let d := grantNow d s
  let lim := if d.ringVersion s = 1 then (d.ring s).w else (d.ring s).g
  if (d.ring s).w < m then d.raise (.DRC_SRSTAT s) 29
  else
    let d := d.modRing s fun r => { r with m := m }
    if m + d.ringSize s < lim then markLost d s else d.raise (.DRC_SRSTAT s) 31

/-- R249: a write of DRC_SRMARKHI acts. -/
def markWrite (s : Nat) (d : Dev) (w : Word) : Dev := markSet (d.store (.DRC_SRMARKHI s) w) s

/-- MARK_SET (R232): port `p` writes DRC_SRMARKHI. -/
def execMarkSet (p : Fin 8) (site : Fin 16) (w : Word) (s : State) : Host.Outcome State Fault Refusal :=
  act s fun d => regCommand d p (.DRC_SRMARKHI site) w (markWrite site)

end Sys2Proof.Machine
end

