-- ==== Sys2Proof/Machine/Measure.lean ====
section
/-! DEFINITION. The measurement log, and the registration of loadables (14_power_reset_and_trust.md R470,
02_asell_programs.md R72 to R74, 05_sites_and_dispatch.md R162, R163). -/
namespace Sys2Proof.Machine

/-! ### The measurement log (R470) -/

/-- The 12 bytes of a time in the layout of R337. -/
def timeBytes (t : Nat) : List Byte :=
  let w := timeWords t
  toBytes 4 w.1 ++ toBytes 4 w.2.1 ++ toBytes 4 w.2.2

/-- Table 14.8: the 64 bytes of an entry. -/
def logEntry (d : Dev) (kind site port index buildId digest : Nat) : List Byte :=
  toBytes 1 kind ++ toBytes 1 site ++ toBytes 1 port ++ toBytes 1 d.timeValid.toNat ++ toBytes 4 index ++ timeBytes d.now ++
  toBytes 4 0 ++ toBytes 8 buildId ++ digestBytes digest

/-- R470, R471: an entry is added: the log holds the last 65,536, and the digest covers it. -/
def measure (d : Dev) (kind site port index buildId digest : Nat) : Dev :=
  let e := logEntry d kind site port index buildId digest
  d.modTrust fun x => { x with
    log := (if x.log.length ≥ 65536 then x.log.drop 1 else x.log) ++ [e], logPos := (x.logPos + 1) % 2 ^ 64
    logDigest := sha256 (digestBytes x.logDigest ++ e) }

/-! ### The header (R72, R73) -/

/-- The loadable that the header at a byte address describes, for a site, not yet measured. -/
def readHeader (d : Dev) (site a : Nat) : Loadable :=
  let g (o k : Nat) : Nat := d.dram.num (a + o) k
  { site, base := a, n := g 0x18 1, defaultTs := g 0x19 1, attr := g 0x0C 4, buildId := g 0x10 8, entryCount := g 0x1A 2
    tableCount := g 0x1C 2, maskCount := g 0x1E 1, uopCount := g 0x1F 1, codeOff := g 0x20 8, codeWords := g 0x28 8
    tableOff := g 0x30 8, maskOff := g 0x38 8, entryOff := g 0x40 8, symreqOff := g 0x48 8, uopOff := g 0x50 8, padOff := g 0x58 8
    total := g 0x60 8, digest := 0, routines := [] }

/-- The user routine section's length: the declarations and every image they place (R72). -/
def uopBytes (d : Dev) (l : Loadable) : Nat :=
  let sec := l.base + l.uopOff
  ((List.range l.uopCount).map fun i => let u := userDecl d sec i; u.img - sec + u.bytes).foldl max (32 * l.uopCount)

/-- The sections of a loadable: offset, length, and whether the count that goes with the offset asks for the section (R72). -/
def sectionsOf (d : Dev) (l : Loadable) : List (Nat × Nat × Bool) :=
  let w := fullWords l.n
  [(l.codeOff, 8 * l.codeWords, true), (l.tableOff, 8 * l.tableCount * w, l.tableCount ≠ 0), (l.maskOff, 16 * l.maskCount, l.maskCount ≠ 0),
   (l.entryOff, 8 * l.entryCount, true), (l.padOff, 8 * w, l.padOff ≠ 0), (l.uopOff, uopBytes d l, l.uopCount ≠ 0),
   (l.symreqOff, 72, l.symreqOff ≠ 0)]

/-- A section that contradicts its count, lies outside the object, over the header, or is misaligned. -/
def badSection (total : Nat) (s : Nat × Nat × Bool) : Bool :=
  (s.1 ≠ 0) != s.2.2 || (s.1 ≠ 0 && (s.1 % 64 ≠ 0 || s.1 < 128 || total < s.1 + s.2.1))

/-- Whether two sections overlap. -/
def overlaps (s t : Nat × Nat × Bool) : Bool := s.1 ≠ 0 && t.1 ≠ 0 && s.1 < t.1 + t.2.1 && t.1 < s.1 + s.2.1

/-- Whether any two sections of a list overlap. -/
def anyOverlap : List (Nat × Nat × Bool) → Bool
  | [] => false
  | s :: ss => ss.any (overlaps s ·) || anyOverlap ss

/-- R73, R162: the first failing check of a header, by its code of Table 5.1, 0 for none. A DEFAULT_TS above 63, for which no
rule states a code, has that of a count out of range (DESIGN CHOICE, log 214). -/
def headerCheck (d : Dev) (l : Loadable) : Nat :=
  let g (o k : Nat) : Nat := d.dram.num (l.base + o) k
  if g 0 4 ≠ 0x4C455341 then 1
  else if g 6 2 ≠ 1 ∨ 3 < g 4 2 ∨ g 8 2 ≠ 1 ∨ d.ucode < g 0x0A 2 then 2
  else if l.n = 0 ∨ 128 < l.n ∨ 63 < l.defaultTs ∨ l.entryCount = 0 ∨ 256 < l.entryCount ∨ 4096 < l.tableCount ∨ 16 < l.maskCount then 3
  else if (sectionsOf d l).any (badSection l.total) ∨ anyOverlap (sectionsOf d l) then 4
  else 0

/-- R162: every bolt of the object is allocated to its site. -/
def objectBolts (d : Dev) (l : Loadable) : Bool :=
  d.boltsOf l.site (l.base / boltBytes) ((l.total + boltBytes - 1) / boltBytes)

/-- R162: the lowest free registry index. -/
def freeIndex (d : Dev) : Option Nat := (List.range 1024).find? fun i => (d.sched.registry.get none i).isNone

/-! ### Measurement (R74, R90) -/

/-- R90: a user routine's number and digest: its declaration and its images. -/
def routineDigest (d : Dev) (sec i : Nat) : Nat × Nat :=
  let u := userDecl d sec i
  (u.number, sha256 (d.dram.bytes (sec + 32 * i) 32 ++ d.dram.bytes u.img u.bytes))

/-- The loadable with its measurements. -/
def measured (d : Dev) (l : Loadable) : Loadable :=
  { l with digest := sha256 (d.dram.bytes l.base l.total)
           routines := (List.range l.uopCount).map fun i => routineDigest d (l.base + l.uopOff) i }

/-- R74, R90: the log entries of a registration. -/
def logLoadable (d : Dev) (p i : Nat) (l : Loadable) : Dev :=
  let d := measure d 3 l.site p i l.buildId l.digest
  d.each l.routines fun d r => measure d 4 l.site p (i + r.1 * 2 ^ 16) l.buildId r.2

/-! ### Registration (R162, R163) -/

/-- SCH_LDSTAT after a GO or DROP (R196, R514). -/
def regDone (d : Dev) (p : Nat) : Dev := ((d.outcome (.SCH_LDSTAT p) 30 29).set (.SCH_LDSTAT p) 28 24 0).clear (.SCH_LDSTAT p) 31
def regFail (d : Dev) (p code : Nat) : Dev :=
  ((d.outcome (.SCH_LDSTAT p) 29 30).set (.SCH_LDSTAT p) 28 24 code).clear (.SCH_LDSTAT p) 31

/-- R162: GO: the site is checked at once, and the rest at the registration's end (DEDUCED, log 81). -/
def regGo (d : Dev) (p : Nat) : Dev :=
  let s := d.get (.SCH_LDCTL p) 19 16
  let code := if !d.siteOpen s then 9 else if d.siteOwner s ≠ p then 8 else 0
  (d.modSchPort p fun x => { x with reg := some (s, d.get (.SCH_LDBOLT p) 14 0, code) }).raise (.SCH_LDSTAT p) 31

/-- R163: DROP: the entry is freed, or the drop fails (DEDUCED, log 80). -/
def regDrop (d : Dev) (p : Nat) : Dev :=
  let i := d.get (.SCH_LDCTL p) 9 0
  match d.sched.registry.get none i with
  | none => regFail d p 0x0A
  | some l =>
    if d.siteOwner l.site ≠ p then regFail d p 8
    else if d.descs.any fun x => x.2.load = i then regFail d p 7
    else regDone (d.modSched fun x => { x with registry := x.registry.put none i none }) p

/-- R163, R196: a write of SCH_LDCTL. -/
def ldctlWrite (p : Nat) (d : Dev) (w : Word) : Dev :=
  let d := d.store (.SCH_LDCTL p) w
  if (d.schPort p).reg.isSome then d
  else if bit w 31 then regGo d p
  else if bit w 30 then regDrop d p
  else d

/-- REGISTER_GO (R162): port `p` writes its SCH_LDCTL with GO. -/
def execRegisterGo (p : Fin 8) (w : Word) (s : State) : Host.Outcome State Fault Refusal :=
  act s fun d => regCommand d p (.SCH_LDCTL p) (setBit w 31 true) (ldctlWrite p)

/-- LOADABLE_DROP (R163): port `p` writes its SCH_LDCTL with DROP and without GO. -/
def execLoadableDrop (p : Fin 8) (w : Word) (s : State) : Host.Outcome State Fault Refusal :=
  act s fun d => regCommand d p (.SCH_LDCTL p) (setBit (setBit w 31 false) 30 true) (ldctlWrite p)

/-- R162: a registration's checks end: it holds an index and is measured, or fails. Lines with poison and LOST bolts are read as last held
(DESIGN CHOICE, log 215). -/
def registrationEnd (d : Dev) (p : Nat) : Dev :=
  match (d.schPort p).reg with
  | none => d
  | some (s, bolt, code) =>
    if !d.hostReads then d
    else
    let d := d.modSchPort p fun x => { x with reg := none }
    if code ≠ 0 then regFail d p code
    else
      let l := readHeader d s (bolt * boltBytes)
      let c := headerCheck d l
      if c ≠ 0 then regFail d p c
      else if !objectBolts d l then regFail d p 5
      else match freeIndex d with
        | none => regFail d p 6
        | some i =>
          let l := measured d l
          let d := d.each ((linesOf l.base l.total).filter d.dram.poisoned) poisonRead
          let d := d.modSched fun x => { x with registry := x.registry.put none i (some l) }
          (regDone (logLoadable d p i l) p).set (.SCH_LDSTAT p) 9 0 i

/-- REGISTRATION_END (R162). -/
def execRegistrationEnd (p : Fin 8) (s : State) : Host.Outcome State Fault Refusal := act s fun d => registrationEnd d p

/-- R163: a site's registered loadables are dropped, and its registrations in progress end with code SITE. -/
def dropSite (d : Dev) (s : Nat) : Dev :=
  let d := d.modSched fun x => { x with registry :=
    { cells := x.registry.cells.filter fun c => !(c.2.any fun l => l.site = s) } }
  d.each (List.range 8) fun d p =>
    if (d.schPort p).reg.any fun r => r.1 = s then regFail (d.modSchPort p fun x => { x with reg := none }) p 9 else d

end Sys2Proof.Machine
end

