-- ==== Sys2Proof/Machine/Sites.lean ====
section
/-! DEFINITION. Declarations, site resets, the partition lock, host flags and triggers
(05_sites_and_dispatch.md R154 to R159, R187, R201, 14_power_reset_and_trust.md R455). -/
namespace Sys2Proof.Machine

/-! ### Declarations (R155, R156) -/

/-- The staged declaration of a site. -/
def staged (d : Dev) (s : Nat) : Decl :=
  { en := d.flag (.SCH_SITECTL s) 31, paired := d.flag (.SCH_SITECTL s) 30, owner := d.get (.SCH_SITECTL s) 2 0
    chans := ((List.range 4).map fun i => (d.rd (.SCH_SITECH s i)).toNat * 2 ^ (32 * i)).sum }

/-- The channels that other enabled sites hold, or are about to. -/
def claimed (d : Dev) (s : Nat) : Nat :=
  (List.range 16).foldl (fun m t =>
    if t = s then m
    else
      let m := if (d.site t).decl.en then m ||| (d.site t).decl.chans else m
      match (d.site t).next with
      | some x => if x.en then m ||| x.chans else m
      | none => m) 0

/-- Whether a set holds one channel of a pair without the other (R123). -/
def splitPair (m : Nat) : Bool := (List.range 64).any fun k => inSet m (2 * k) != inSet m (2 * k + 1)

/-- R155: the first failing check of a staged declaration, as DECL_CODE, 0 for none (DEDUCED, log 69). -/
def declCheck (d : Dev) (s : Nat) (x : Decl) : Nat :=
  if (d.descs.any fun y => y.2.site = s) ∨ (d.site s).resetting ∨ (d.site s).releasing then 1
  else if (claimed d s &&& x.chans) ≠ 0 then 2
  else if x.paired ∧ splitPair x.chans then 3
  else if x.en ∧ x.chans = 0 then 4
  else 0

/-- R156: whether a declaration makes the site release what it holds: it was enabled, and is disabled or gets another owner. -/
def releases (old new : Decl) : Bool := old.en && (!new.en || old.owner ≠ new.owner)

/-- R156: what a site holds is released: its units halt, its regions and its ring are disabled, and its bolts are freed, after what its buffers hold
has landed (R207). -/
def releaseSite (d : Dev) (s : Nat) : Dev :=
  let d := closeSite (haltSources d s) s
  let d := ((grantNow d s).clear (.DRC_SRCFG s) 31).clear (.ACQ_CAPCFG s) 31
  let d := (d.clear (.TDC_RCTL s) 31).modSite s fun x => { x with releasing := true }
  d.modDram fun m => { m with wipes := m.wipes ++ (d.siteBolts s).map fun b => (b, 1, false) }

/-- R130: a commit in validation ends with a declaration that passes: BUSY, neither applied nor rejected. -/
def endCommit (d : Dev) (s : Nat) : Dev :=
  if (d.site s).commit.isSome then
    ((d.modSite s fun x => { x with commit := none }).raise (.CUF_TSSTAT s) 28).clear (.CUF_TSSTAT s) 31
  else d

/-- R155: DECLARE: the staged declaration is checked; one that passes waits to take effect. -/
def declare (d : Dev) (s : Nat) : Dev :=
  let x := staged d s
  let c := declCheck d s x
  if c ≠ 0 then (d.raise (.SCH_SITESTAT s) 19).set (.SCH_SITESTAT s) 18 16 c
  else
    let d := (d.clear (.SCH_SITESTAT s) 19).set (.SCH_SITESTAT s) 18 16 0
    let d := (endCommit d s).modSite s fun y => { y with next := some x }
    d.onlyIf (releases (d.site s).decl x) fun d => releaseSite d s

/-- R154: channels that no enabled site holds any more take the idle state that CUF_CHCTL gives them. -/
def idleFreed (d : Dev) (old : Nat) : Dev :=
  d.each (members 128 old) fun d c =>
    if (d.siteOf c).isSome then d
    else d.modChan c fun x => { x with edges := [], en := x.en && d.flag (.CUF_CHCTL c) 0 }

/-- What the buffers of a releasing site still hold has no bolt to land in. -/
def dropBuffers (d : Dev) (s : Nat) : Dev :=
  if !(d.site s).releasing then d
  else (d.modSite s fun x => { x with cap := { x.cap with buf := [] } }).each (d.siteUnits s) fun d u => acqOver (d.modAcq u fun a => { a with buf := [] }) u

/-- R155, R156: a passed declaration takes effect once the site holds nothing more that is to be released. -/
def takeEffect (d : Dev) (s : Nat) : Dev :=
  match (d.site s).next with
  | none => d
  | some x =>
    if (d.site s).releasing ∧ (d.siteBolts s) ≠ [] then d
    else
      let old := (d.site s).decl
      let d := (endCommit (dropBuffers d s) s).modSite s fun y => { y with decl := x, next := none, releasing := false }
      let d := (d.wr (.CUF_TSVALID s 0) 0).wr (.CUF_TSVALID s 1) 0
      idleFreed ((dropSite d s).wr (.SCH_HFLAG s) 0) old.chans

/-- DECLARATION_TAKE_EFFECT (R156). -/
def execDeclarationTakeEffect (site : Fin 16) (s : State) : Host.Outcome State Fault Refusal := act s fun d => takeEffect d site

/-! ### Site reset (R158, R455) -/

/-- R323: the stamps of a site's inputs that are in flight are discarded and counted. -/
def discardStamps (d : Dev) (s : Nat) : Dev :=
  (stampClose d s).each (List.range 136) fun d i =>
    if (if i < 128 then d.siteOf i = some s else d.flag (.TDC_IN i) 19 && d.get (.TDC_IN i) 15 12 = s) then
      d.modStampIn i fun x => { x with rlost := x.rlost + x.queue.length, queue := [] }
    else d

/-- R324: a site reset stops the site's interval unit, and a frequency unit's run. -/
def stopTimers (d : Dev) (s : Nat) : Dev :=
  let d := if d.get (.TDC_IVSTAT s) 31 30 = 1 then d.set (.TDC_IVSTAT s) 31 30 2 else d
  if 1 ≤ d.get (.TDC_FQSTAT s) 31 29 ∧ d.get (.TDC_FQSTAT s) 31 29 ≤ 3 then d.set (.TDC_FQSTAT s) 31 29 0 else d

/-- R158: RESET: uncommitted descriptors end CANCELLED, a dispatched burst is aborted, registrations drop, and units halt. -/
def siteReset (d : Dev) (s : Nat) : Dev :=
  if (d.site s).resetting then d
  else
    let d := d.modSite s fun x => { x with resetting := true }
    let d := d.each (d.descs.filter fun x => x.2.site = s) fun d x => resetDesc d x.1 x.2
    let d := switchIfFree (dropSite d s) s
    let d := d.each (List.range 16) fun d u => if d.acqSite u = s then acqStop d u else d
    stopTimers (discardStamps (haltSources d s) s) s

/-- R455: engines whose last burst ran on the site lose its user-region affinity. -/
def forgetSite (d : Dev) (s : Nat) : Dev :=
  d.each (List.range 16) fun d e =>
    if (d.engine e).affinity.any fun a => a.2.1 = s then d.modEngine e fun x => { x with affinity := none } else d

/-- R455: the record buffers and envelope tables of a site's units are cleared. -/
def clearUnits (d : Dev) (s : Nat) : Dev :=
  d.each (List.range 16) fun d u => if d.acqSite u = s then
      d.modAcq u fun a => { a with buf := [], env := [], raw := none, envLine := none, bmLine := none }
    else d

/-- R158, R226: whether the wipe of a site may begin, once its buffers have drained. -/
def mayWipe (d : Dev) (s : Nat) : Bool := (d.site s).resetting && !(d.site s).wiping && !d.siteDispatched s && d.dramActive

/-- R158, R238, R455: the wipe, once no burst is dispatched to the site and its buffers have drained (R270, R323): its bolts read zero with no LOST
mark, and its ring's positions return to 0; those of its capture and of its stamps stay (DEDUCED, log 86). -/
def siteWipe (d : Dev) (s : Nat) : Dev :=
  if !mayWipe d s then d
  else
    let d := drainSite d s
    if !siteDrained d s then d
    else
      let d := d.each (d.siteBolts s) fun d b => (wipeBolt d b).putBolt b { alloc := true, site := s }
      let d := (ringReset (clearUnits (forgetSite d s) s) s).clear (.DRC_SRCFG s) 31
      d.modSite s fun x => { x with wiping := true }

/-- SITE_WIPE (R455): at the time at which the grants have let the site's buffers drain. -/
def execSiteWipe (site : Fin 16) (s : State) : Host.Outcome State Fault Refusal :=
  let d := s.mirror.onlyIf (mayWipe s.mirror site) fun d => closeSite d site
  actFrom s d (if mayWipe d site then some (siteDrainAt d site) else none) fun d => siteWipe d site

/-- R158: the wipe ends: host flags are 0, and the site leaves the resetting state. -/
def siteWipeEnd (d : Dev) (s : Nat) : Dev :=
  if (d.site s).wiping then
    (d.modSite s fun x => { x with resetting := false, wiping := false }).wr (.SCH_HFLAG s) 0
  else d

/-- SITE_WIPE_END (R158). -/
def execSiteWipeEnd (site : Fin 16) (s : State) : Host.Outcome State Fault Refusal := act s fun d => siteWipeEnd d site

/-! ### Site commands (R201) -/

/-- R201: a write of SCH_SITECMD by port `p` that may set every command bit it sets. -/
def siteCmdWrite (p s : Nat) (d : Dev) (w : Word) : Dev :=
  let locked := d.locked && bit w 31
  if (bit w 31).toNat + (bit w 30).toNat + (bit w 29).toNat > 1 then
    (d.raise (.SCH_SITESTAT s) 15).onlyIf locked fun d => perr d p 30
  else if bit w 31 then (if locked then perr d p 30 else declare d s)
  else if bit w 30 then siteReset d s
  else if bit w 29 then startEvent d 0x20 (some s) d.now
  else d

/-- SITE_DECLARE (R155): port `p` writes SCH_SITECMD with DECLARE. -/
def execSiteDeclare (p : Fin 8) (site : Fin 16) (w : Word) (s : State) : Host.Outcome State Fault Refusal :=
  act s fun d => regCommand d p (.SCH_SITECMD site) (setBit w 31 true) (siteCmdWrite p site)

/-- SITE_RESET (R158): port `p` writes SCH_SITECMD with RESET. -/
def execSiteReset (p : Fin 8) (site : Fin 16) (w : Word) (s : State) : Host.Outcome State Fault Refusal :=
  act s fun d => regCommand d p (.SCH_SITECMD site) (setBit w 30 true) (siteCmdWrite p site)

/-- SITE_TRIG (R177): port `p` writes SCH_SITECMD with TRIG. -/
def execSiteTrig (p : Fin 8) (site : Fin 16) (w : Word) (s : State) : Host.Outcome State Fault Refusal :=
  act s fun d => regCommand d p (.SCH_SITECMD site) (setBit w 29 true) (siteCmdWrite p site)

/-- R159, R418: a write of SCH_PLOCK: a write of 1 locks, and a write after the lock is ignored and flagged. -/
def plockWrite (p : Nat) (d : Dev) (w : Word) : Dev :=
  if d.locked then perr d p 30 else d.store .SCH_PLOCK w

/-- PARTITION_LOCK (R159): port `p` writes SCH_PLOCK with LOCK = 1. -/
def execPartitionLock (p : Fin 8) (w : Word) (s : State) : Host.Outcome State Fault Refusal :=
  act s fun d => regCommand d p .SCH_PLOCK (setBit w 0 true) (plockWrite p)

/-- R187, R200: a write-masked write of a site's host flags. -/
def hflagWrite (s : Nat) (d : Dev) (w : Word) : Dev :=
  let m := bits w 31 16 % 256
  let old := d.get (.SCH_HFLAG s) 7 0
  d.set (.SCH_HFLAG s) 7 0 ((old &&& (255 - m)) ||| (bits w 7 0 &&& m))

/-- HOST_FLAG_WRITE (R187): port `p` writes SCH_HFLAG. -/
def execHostFlagWrite (p : Fin 8) (site : Fin 16) (w : Word) (s : State) : Host.Outcome State Fault Refusal :=
  act s fun d => regCommand d p (.SCH_HFLAG site) w (hflagWrite site)

end Sys2Proof.Machine
end

