-- ==== Sys2Proof/Machine/Tdc.lean ====
section
/-! DEFINITION. Stamp inputs, stamp regions, and interval and frequency units (09_time_measurement.md R310 to R334). -/
namespace Sys2Proof.Machine

/-! ### Inputs (R310 to R320) -/

/-- R316, R331: whether an input's stamper is on. -/
def Dev.inputOn (d : Dev) (i : Nat) : Bool := decide (i < 136) && d.flag (.TDC_IN i) 31

/-- R321, Table 9.5: the site of an input: the enabled site that holds the channel, or the site an auxiliary input is assigned to. -/
def Dev.inputSite (d : Dev) (i : Nat) : Option Nat :=
  if i < 128 then d.siteOf i
  else if i < 136 ∧ d.flag (.TDC_IN i) 19 then some (d.get (.TDC_IN i) 15 12)
  else none

/-- R310: the cuff of an input. -/
def inputCuff (i : Nat) : Nat := if i < 128 then i / 16 else i - 128

/-- 13_calibration.md R436: a STAMP calibration pass stops an input's detection. -/
def Dev.inputBlind (d : Dev) (i : Nat) : Bool :=
  d.cal.op.any fun o => o.run && o.passes && o.snap.isNone && o.qty = 2 && inSet o.target (inputCuff i)

/-- R313, R331: whether POL selects an edge of a direction. -/
def Dev.detects (d : Dev) (i : Nat) (rising : Bool) : Bool :=
  match d.get (.TDC_IN i) 28 27 with
  | 0 => rising
  | 1 => !rising
  | _ => true

/-- R316: an entry of an input's active linearity table. -/
def Dev.lin (d : Dev) (i code : Nat) : Nat := (d.cal.linActive.get none (2048 * i + code)).getD (10 * code)

/-- R317: the deskew of an input, as it enters a stamp. -/
def Dev.deskew (d : Dev) (i : Nat) : Int :=
  let x := signed 24 (d.rd (.CAL_SKEW 1 i)).toNat
  if Config.skewAdds then x else -x

/-- R314: hold-off of an input in 2^-16 ns. -/
def Dev.holdOff (d : Dev) (i : Nat) : Nat := min 2000 (d.get (.TDC_HOLD i) 10 0) * 32768

/-- R331: an interval unit is armed, and one of its inputs is `i`. -/
def Dev.intervalOn (d : Dev) (u i : Nat) : Bool :=
  d.get (.TDC_IVSTAT u) 31 30 = 1 && ((d.interval u).start = i || (d.interval u).stop = i)

/-- R327: a status bit of every armed interval unit that uses an input. -/
def flagIntervals (d : Dev) (i k : Nat) : Dev :=
  d.each (List.range 16) fun d u => d.onlyIf (d.intervalOn u i) fun d => d.raise (.TDC_IVSTAT u) k

/-- R328: a frequency unit's run uses an input, and a stamp's time lies in its gate. -/
def Dev.inFreqGate (d : Dev) (u i : Nat) (t : Nat) : Bool :=
  let f := d.freq u
  1 ≤ d.get (.TDC_FQSTAT u) 31 29 && d.get (.TDC_FQSTAT u) 31 29 ≤ 3 && f.input = i && f.opens ≤ t * frac16 && t * frac16 < f.closes

/-- R320: a stamp that finds its queue full is lost. -/
def stampLost (d : Dev) (i : Nat) (t : Nat) : Dev :=
  let d := (d.modStampIn i fun x => { x with qlost := x.qlost + 1 }).raise (.TDC_ISTAT i) 28
  (flagIntervals d i 27).each (List.range 16) fun d u => d.onlyIf (d.inFreqGate u i t) fun d => d.raise (.TDC_FQSTAT u) 20

/-- R314 to R320: an accepted edge: its stamp, the ends of its hold-off and dead time, and its place in the queue.
`t` is the local time of base-clock edge `n` that follows the edge, which the cuff's mirror gives (01_burst_path.md R15). -/
def stampTaken (d : Dev) (i : Nat) (rising : Bool) (code n t : Nat) : Dev :=
  let x := d.stampIn i
  let seen := ((t : Int) + d.mirrors.get 0 (inputCuff i)).toNat
  let time := ((toFrac16 seen : Int) - d.lin i code + d.deskew i).toNat
  let st : Stamp := { time, eidx := x.edges, rising, lk := d.flag (.TDC_ISTAT i) 31, tv := d.timeValid, mrg := x.mrg }
  let h := d.holdOff i
  let d := d.modStampIn i fun x => { x with
    edges := x.edges + 1, stamps := x.stamps + 1, mrg := false, deadEnd := n + 7
    holdEnd := if h = 0 then 0 else (n * 20480 + h - d.lin i code + 20479) / 20480 }
  if x.queue.length ≥ 64 then stampLost d i time
  else d.modStampIn i fun x => { x with queue := x.queue ++ [st] }

/-- R314, R315: a detected edge is held off, merged or accepted (DEDUCED, log 90) (DEDUCED, log 92). -/
def stampEdge (d : Dev) (i : Nat) (rising : Bool) (code t : Nat) : Dev :=
  let x := d.stampIn i
  if !d.inputOn i ∨ !d.detects i rising ∨ d.inputBlind i then d
  else if d.raw < x.holdEnd then d.modStampIn i fun x => { x with edges := x.edges + 1, heldoff := x.heldoff + 1 }
  else if d.raw < x.deadEnd then
    flagIntervals ((d.modStampIn i fun x => { x with edges := x.edges + 1, merged := x.merged + 1, mrg := true }).raise
      (.TDC_ISTAT i) 29) i 28
  else stampTaken d i rising code (d.raw + 1) t

/-- R311, Table 9.5: the stamper of input `i` watches a signal: PECH of channel `c`, its PECL (`low`), or TA(c - 128). -/
def Dev.watches (d : Dev) (i c : Nat) (low : Bool) : Bool :=
  if c < 128 then
    i < 128 && ((i = c && d.get (.TDC_IN i) 30 29 = low.toNat) || (i = c ^^^ 1 && d.get (.TDC_IN i) 30 29 = 2 + low.toNat))
  else i = c

/-- 13_calibration.md R436: a pass of an EDGE run holds a cuff's drive pads, and ignores its PECH and PECL. -/
def edgePass (d : Dev) (k : Nat) : Bool := d.cal.op.any fun o => o.run && o.passes && o.snap.isNone && o.qty = 1 && inSet o.target k

/-- R311: an edge of a signal reaches every stamper that watches it: the channel's own, and its partner's. -/
def signalEdge (d : Dev) (c : Nat) (low rising : Bool) (code pcode t : Nat) : Dev :=
  if c < 128 && edgePass d (c / 16) then d
  else
  let d := d.onlyIf (d.watches c c low) fun d => stampEdge d c rising code t
  d.onlyIf (d.watches (c ^^^ 1) c low) fun d => stampEdge d (c ^^^ 1) rising pcode t

/-- STAMP_INPUT_EDGE (R311, R314): an edge of PECH or PECL (`low`) of channel `c`, or of TA(c - 128), between the present base-clock
edge and the next, with the interpolator codes of the channel's own stamper and of its partner's (DESIGN CHOICE, log 4). -/
def execStampInputEdge (c : Fin 136) (low rising : Bool) (code pcode : Fin 2048) (s : State) : Host.Outcome State Fault Refusal :=
  act s fun d => signalEdge d c low rising code pcode (s.clock.localAt (s.clock.raw + 1))

/-! ### Records (R321 to R323) -/

/-- Table 9.1: the 16 bytes of a record. -/
def stampBytes (i : Nat) (st : Stamp) : List Byte :=
  let ns := st.time / 65536
  toBytes 8 (ns / 1000000000 % 2 ^ 48 * 65536 + st.time % 65536) ++
  toBytes 8 (pack 64 [(32, 32, ns % 1000000000), (24, 8, i), (23, 1, 1), (22, 1, st.rising.toNat), (21, 1, st.lk.toNat),
    (20, 1, st.tv.toNat), (19, 1, st.mrg.toNat), (0, 19, st.eidx)]).toNat

/-- R322, R323: a record finds no line of the region, or no line of the capture buffer, in which an open capture line has its place
(DEDUCED, log 94). -/
def stampNoRoom (d : Dev) (s i : Nat) : Option Dev :=
  let r := (d.site s).stamps
  if r.inputs ≠ [] then none
  else
    let e := d.modStampIn i fun x => { x with rlost := x.rlost + 1 }
    if r.pos + 64 > regionBytes (d.rd (.TDC_RBASE s)) then some (e.raise (.TDC_RSTAT s) 31)
    else if (d.site s).cap.buf.length + (d.site s).cap.line.isSome.toNat ≥ 2048 then some (e.raise (.TDC_ISTAT i) 27)
    else none

/-- R322: a stamp is recorded. -/
def stampRecord (d : Dev) (s i : Nat) (st : Stamp) : Dev :=
  match stampNoRoom d s i with
  | some e => e
  | none =>
    let d := d.modSite s fun x => { x with stamps := { x.stamps with
      base := if x.stamps.inputs = [] then d.rd (.TDC_RBASE s) else x.stamps.base
      since := if x.stamps.inputs = [] then d.now else x.stamps.since
      line := x.stamps.line ++ stampBytes i st, inputs := x.stamps.inputs ++ [i] } }
    if (d.site s).stamps.inputs.length = 4 then stampClose d s else d

/-- R321, R323: a stamp that leaves its queue is recorded, or counts as not recorded. -/
def stampOut (d : Dev) (i : Nat) (st : Stamp) : Dev :=
  let s := d.inputSite i
  if d.flag (.TDC_IN i) 26 ∧ (s.any fun s => d.flag (.TDC_RCTL s) 31) then stampRecord d (s.getD 0) i st
  else d.modStampIn i fun x => { x with unrec := x.unrec + 1 }

/-! ### Interval units (R324 to R327) -/

/-- R324, Table 9.7: whether a direction setting takes a stamp; the reserved one is a free choice (DEDUCED, log 97). -/
def polTakes (d : Dev) (pol : Nat) (rising : Bool) : Bool :=
  match pol with
  | 0 => rising
  | 1 => !rising
  | 2 => true
  | _ => Config.freeBool d.freeIdx

/-- R324: a run ends. -/
def intervalDone (d : Dev) (u : Nat) : Dev := d.set (.TDC_IVSTAT u) 31 30 2

/-- R326: a pair enters the results; the run ends at the limit. -/
def intervalPair (d : Dev) (u start stop : Nat) : Dev :=
  let v : Int := (stop : Int) - start
  let d := d.modInterval u fun x => { x with
    count := x.count + 1, neg := x.neg + (decide (v < 0)).toNat, last := v
    least := if x.count = 0 then v else min x.least v, greatest := if x.count = 0 then v else max x.greatest v
    sum := x.sum + v, sumsq := x.sumsq + (v * v).toNat }
  let d := d.onlyIf (v < 0) fun d => d.raise (.TDC_IVSTAT u) 29
  d.onlyIf ((d.interval u).limit ≠ 0 && (d.interval u).count ≥ (d.interval u).limit) fun d => intervalDone d u

/-- R325, R327: stamps that have partners pair by ordinal; a 65th that waits ends the run. -/
def intervalMatch (d : Dev) (u : Nat) : Dev :=
  let x := d.interval u
  match x.starts, x.stops with
  | a :: as, b :: bs => intervalPair (d.modInterval u fun x => { x with starts := as, stops := bs }) u a b
  | as, bs => if as.length + bs.length > 64 then intervalDone (d.raise (.TDC_IVSTAT u) 26) u else d

/-- R325: a unit with one input and one direction pairs each stamp with the next. -/
def intervalPeriod (d : Dev) (u t : Nat) : Dev :=
  match (d.interval u).starts with
  | a :: _ => intervalPair (d.modInterval u fun x => { x with starts := [t] }) u a t
  | [] => d.modInterval u fun x => { x with starts := [t] }

/-- R324, R325: a stamp reaches an interval unit. -/
def intervalStamp (d : Dev) (u i : Nat) (st : Stamp) : Dev :=
  let x := d.interval u
  if !d.intervalOn u i ∨ st.time < x.arm then d
  else if x.start = x.stop ∧ x.spol = x.tpol then (if polTakes d x.spol st.rising then intervalPeriod d u st.time else d)
  else
    let d := d.onlyIf (x.start = i && polTakes d x.spol st.rising) fun d =>
      d.modInterval u fun x => { x with starts := x.starts ++ [st.time] }
    let d := d.onlyIf (x.stop = i && polTakes d x.tpol st.rising) fun d =>
      d.modInterval u fun x => { x with stops := x.stops ++ [st.time] }
    intervalMatch d u

/-- R324: whether an input belongs to a site. -/
def Dev.inputOf (d : Dev) (i s : Nat) : Bool := d.inputSite i = some s

/-- R324: INTERVAL arming of unit `u`: the first failing check of Table 9.3, or a new run. -/
def intervalArm (d : Dev) (u : Nat) : Dev :=
  let a := d.get (.TDC_IVCFG u) 31 24
  let b := d.get (.TDC_IVCFG u) 23 16
  let code := if !d.inputOn a ∨ !d.inputOn b then 1 else if !d.inputOf a u ∨ !d.inputOf b u then 2 else 0
  let d := d.set (.TDC_IVSTAT u) 23 20 code
  let d := d.modInterval u fun _ => if code ≠ 0 then {} else
    { start := a, stop := b, spol := d.get (.TDC_IVCFG u) 15 14, tpol := d.get (.TDC_IVCFG u) 13 12
      limit := (d.rd (.TDC_IVLIM u)).toNat, arm := (d.now + frac16 - 1) / frac16 }
  if code ≠ 0 then (d.raise (.TDC_IVSTAT u) 24).set (.TDC_IVSTAT u) 31 30 0 else d.set (.TDC_IVSTAT u) 31 30 1

/-- R333: a write of TDC_IVCTL. -/
def ivctlWrite (u : Nat) (d : Dev) (w : Word) : Dev :=
  if bit w 31 then intervalArm d u
  else if bit w 30 ∧ d.get (.TDC_IVSTAT u) 31 30 = 1 then intervalDone d u
  else d

/-- INTERVAL_ARM (R324): port `p` writes TDC_IVCTL with ARM. -/
def execIntervalArm (p : Fin 8) (u : Fin 16) (w : Word) (s : State) : Host.Outcome State Fault Refusal :=
  act s fun d => regCommand d p (.TDC_IVCTL u) (setBit w 31 true) (ivctlWrite u)

/-- INTERVAL_DISARM (R324): port `p` writes TDC_IVCTL with DISARM and without ARM (DEDUCED, log 99). -/
def execIntervalDisarm (p : Fin 8) (u : Fin 16) (w : Word) (s : State) : Host.Outcome State Fault Refusal :=
  act s fun d => regCommand d p (.TDC_IVCTL u) (setBit (setBit w 31 false) 30 true) (ivctlWrite u)

/-! ### Frequency units (R328 to R330) -/

/-- R329: a stamp in the gate enters the sums. -/
def freqStamp (d : Dev) (u i : Nat) (st : Stamp) : Dev :=
  if !d.inFreqGate u i st.time ∨ !polTakes d (d.freq u).pol st.rising then d
  else
    let f := (d.freq u).first.getD (st.eidx, st.time)
    let x : Int := (st.eidx : Int) - f.1
    let y : Int := (st.time : Int) - f.2
    (d.onlyIf (!st.lk) fun d => d.raise (.TDC_FQSTAT u) 26).modFreq u fun q => { q with
      first := some f, n := q.n + 1, sx := q.sx + x, sy := q.sy + y
      sxx := q.sxx + x * x, sxy := q.sxy + x * y, syy := q.syy + y * y }

/-- R328: FREQ arming of unit `u`: the first failing check of Table 9.3, or a new run. -/
def freqArm (d : Dev) (u : Nat) : Dev :=
  let i := d.get (.TDC_FQCFG u) 31 24
  let f := d.freq u
  let len := f.gclose - f.gopen
  let code := if !d.inputOn i then 1 else if !d.inputOf i u then 2
    else if f.gclose ≤ f.gopen ∨ len < micro1 ∨ 10 * second1 < len then 3
    else if f.gopen < d.now + micro1 then 4 else 0
  let d := d.set (.TDC_FQSTAT u) 24 21 code
  let d := d.modFreq u fun _ => if code ≠ 0 then { gopen := f.gopen, gclose := f.gclose } else
    { gopen := f.gopen, gclose := f.gclose, input := i, pol := d.get (.TDC_FQCFG u) 23 22, opens := f.gopen, closes := f.gclose }
  if code ≠ 0 then (d.raise (.TDC_FQSTAT u) 25).set (.TDC_FQSTAT u) 31 29 0 else d.set (.TDC_FQSTAT u) 31 29 1

/-- R333: a write of TDC_FQCTL. -/
def fqctlWrite (u : Nat) (d : Dev) (w : Word) : Dev :=
  if bit w 31 then freqArm d u
  else if bit w 30 then d.set (.TDC_FQSTAT u) 31 29 0
  else d

/-- FREQ_ARM (R328): port `p` writes TDC_FQCTL with ARM. -/
def execFreqArm (p : Fin 8) (u : Fin 16) (w : Word) (s : State) : Host.Outcome State Fault Refusal :=
  act s fun d => regCommand d p (.TDC_FQCTL u) (setBit w 31 true) (fqctlWrite u)

/-- FREQ_DISARM (R333): port `p` writes TDC_FQCTL with DISARM and without ARM. -/
def execFreqDisarm (p : Fin 8) (u : Fin 16) (w : Word) (s : State) : Host.Outcome State Fault Refusal :=
  act s fun d => regCommand d p (.TDC_FQCTL u) (setBit (setBit w 31 false) 30 true) (fqctlWrite u)

/-- R333: the write of word 2 of a gate register takes all three words. -/
def gateTime (f : Nat → Word) : Nat := ofTimeWords (f 0).toNat (f 1).toNat (f 2).toNat
def fqOpenWrite (u w : Nat) (d : Dev) (v : Word) : Dev :=
  let d := d.store (.TDC_GOPEN u w) v
  d.onlyIf (w = 2) fun d => d.modFreq u fun f => { f with gopen := gateTime fun k => d.rd (.TDC_GOPEN u k) }
def fqCloseWrite (u w : Nat) (d : Dev) (v : Word) : Dev :=
  let d := d.store (.TDC_GCLOSE u w) v
  d.onlyIf (w = 2) fun d => d.modFreq u fun f => { f with gclose := gateTime fun k => d.rd (.TDC_GCLOSE u k) }

/-- FREQ_GATE_OPEN (R328). -/
def execFreqGateOpen (u : Fin 16) (s : State) : Host.Outcome State Fault Refusal :=
  if s.dev.get (.TDC_FQSTAT u) 31 29 = 1 then
    actAt s (some (s.dev.freq u).opens) fun d => d.set (.TDC_FQSTAT u) 31 29 2
  else act s id

/-- FREQ_GATE_CLOSE (R328). -/
def execFreqGateClose (u : Fin 16) (s : State) : Host.Outcome State Fault Refusal :=
  if s.dev.get (.TDC_FQSTAT u) 31 29 = 2 then
    actAt s (some (s.dev.freq u).closes) fun d => d.set (.TDC_FQSTAT u) 31 29 3
  else act s id

/-- The integer part of a quotient, or the integer after it where it is not whole: the spec gives no rounding (DESIGN CHOICE, log 7) (DEDUCED, log 98). -/
def quoFree (d : Dev) (num : Int) (den : Nat) : Int × Dev :=
  if num % den = 0 then (num / den, d)
  else let r := d.free 1; (num / den + r.1, r.2)

/-- The square root of a quotient of two numbers, an integer or the one after it. -/
def sqrtFree (d : Dev) (num den : Nat) : Nat × Dev :=
  let r := isqrt (num / den) 200 0
  if r * r * den = num then (r, d)
  else let x := d.free 1; (r + x.1, x.2)

/-- R329, R330: a unit that fits no line reports its count only (DEDUCED, log 96). -/
def freqFew (d : Dev) (u : Nat) : Dev := d.modFreq u fun q => { q with resN := q.n }

/-- R329: the fit of n stamps whose indices differ; a period that is not positive is no unsigned value, and is free. -/
def freqFit (d : Dev) (u : Nat) : Dev :=
  let q := d.freq u
  let n : Int := q.n
  let cxx := n * q.sxx - q.sx * q.sx
  let cxy := n * q.sxy - q.sx * q.sy
  let cyy := n * q.syy - q.sy * q.sy
  if cxx ≤ 0 then
    let a := d.free 64; let b := a.2.free 64; let c := b.2.free 64; let e := c.2.free 96
    e.2.modFreq u fun q => { q with resN := q.n, per := a.1, freq := b.1, res := c.1, t0 := e.1 }
  else
    let k : Nat := if d.get (.TDC_IN q.input) 28 27 = 2 then 2 else 1
    let a := if cxy ≤ 0 then (let r := d.free 64; ((r.1 : Int), r.2)) else quoFree d (k * cxy * 2 ^ 16) cxx.toNat
    let b := if cxy ≤ 0 then (let r := a.2.free 64; ((r.1 : Int), r.2))
      else quoFree a.2 (cxx * 1000000000 * 2 ^ 36) (k * cxy).toNat
    let c := sqrtFree b.2 (cyy * cxx - cxy * cxy).toNat (n * n * cxx).toNat
    let e := quoFree c.2 (q.sy * cxx - cxy * q.sx) (n * cxx).toNat
    e.2.modFreq u fun q => { q with
      resN := q.n, per := sat 64 a.1.toNat, freq := sat 64 b.1.toNat, res := sat 64 c.1
      t0 := (((q.first.getD (0, 0)).2 : Int) + e.1).toNat }

/-- R329, R330: every stamp before the close has arrived. -/
def Dev.freqReady (d : Dev) (u : Nat) : Bool :=
  d.get (.TDC_FQSTAT u) 31 29 = 3 && (d.stampIn (d.freq u).input).queue.all fun t => !d.inFreqGate u (d.freq u).input t.time

/-- R329, R330: the fit completes. -/
def freqComplete (d : Dev) (u : Nat) : Dev :=
  if !d.freqReady u then d
  else
    let q := d.freq u
    let d := if q.n < 3 then freqFew (d.raise (.TDC_FQSTAT u) 28) u
      else if q.stepped then freqFew d u else freqFit d u
    d.set (.TDC_FQSTAT u) 31 29 4

/-- FREQ_FIT_COMPLETE (R330). -/
def execFreqFitComplete (u : Fin 16) (s : State) : Host.Outcome State Fault Refusal := act s fun d => freqComplete d u

/-- R327, R330: a step of local time flags the runs in progress. -/
def stepTimers (d : Dev) : Dev :=
  d.each (List.range 16) fun d u =>
    let d := d.onlyIf (d.get (.TDC_IVSTAT u) 31 30 = 1) fun d => d.raise (.TDC_IVSTAT u) 25
    d.onlyIf (d.get (.TDC_FQSTAT u) 31 29 = 1 || d.get (.TDC_FQSTAT u) 31 29 = 2) fun d =>
      (d.raise (.TDC_FQSTAT u) 27).modFreq u fun q => { q with stepped := true }

/-! ### The queue's head leaves (R320, R323) -/

/-- R20, R310: the seam that carries an input's stamps to the engine cluster is fenced. -/
def Dev.stampsFenced (d : Dev) (i : Nat) : Bool := d.seamFenced (42 + inputCuff i)

/-- R310, R320, R323 to R329: the oldest stamp of an input leaves its queue, crosses its cuff's seam to the record buffer and to the
units, unless the seam is fenced (R20). -/
def stampDequeue (d : Dev) (i : Nat) : Dev :=
  match (d.stampIn i).queue with
  | [] => d
  | st :: q =>
    if d.stampsFenced i then d else
    let d := stampOut (d.modStampIn i fun x => { x with queue := q }) i st
    let d := d.each (List.range 16) fun d u => intervalStamp d u i st
    let d := d.each (List.range 16) fun d u => freqStamp d u i st
    { d with freeIdx := d.freeIdx + 1 }

/-- STAMP_DEQUEUE (R323); `drained` lists the lines that buffers have drained by then (DESIGN CHOICE, log 12). -/
def execStampDequeue (i : Fin 136) (drained : List (Nat × Nat)) (s : State) : Host.Outcome State Fault Refusal :=
  act s fun d => stampDequeue (drains d drained) i

/-- STAMP_LINE_TIMEOUT (R322): a site's unfilled line has waited 1 µs; `drained` lists the lines that buffers have drained by then
(DESIGN CHOICE, log 12). -/
def execStampLineTimeout (site : Fin 16) (drained : List (Nat × Nat)) (s : State) : Host.Outcome State Fault Refusal :=
  if (s.dev.site site).stamps.inputs = [] then act s fun d => drains d drained
  else actAt s (some ((s.dev.site site).stamps.since + micro1)) fun d => stampClose (drains d drained) site

/-! ### The interpolator's loop (R318) -/

/-- R318: a loop error in 1/256 LSB: within a quarter LSB, and beyond one LSB. -/
def loopIn (err : Int) : Bool := -64 ≤ err && err ≤ 64
def loopOut (err : Int) : Bool := err < -256 || 256 < err

/-- R318: a measurement of the replica leaves a filtered error and a charge current: the loop locks after 1,024 within a quarter
LSB, and loses lock beyond one. -/
def loopMeasure (d : Dev) (i : Nat) (err : BitVec 16) (idac : BitVec 12) : Dev :=
  let e := signed 16 err.toNat
  let d := d.wr (.TDC_LOOP i) (BitVec.ofNat 32 (idac.toNat * 65536 + err.toNat))
  let d := d.modStampIn i fun x => { x with good := if loopIn e then min 1024 (x.good + 1) else 0, loopRaw := d.raw }
  if d.flag (.TDC_ISTAT i) 31 then (if loopOut e then (d.clear (.TDC_ISTAT i) 31).raise (.TDC_ISTAT i) 30 else d)
  else if (d.stampIn i).good ≥ 1024 then d.raise (.TDC_ISTAT i) 31
  else d

/-- R318: base-clock cycles from measurement to measurement. -/
def loopCycles : Nat := 64

/-- TDC_LOOP_MEASURE (R318): 64 cycles after the last measurement (DEDUCED, log 203); the filtered error and the charge current that a measurement leaves (DESIGN CHOICE, log 4). -/
def execTdcLoopMeasure (i : Fin 136) (err : BitVec 16) (idac : BitVec 12) (s : State) : Host.Outcome State Fault Refusal :=
  actWith s (s.clock.advanceRaw ((s.dev.stampIn i).loopRaw + loopCycles)) fun d => loopMeasure d i err idac

/-! ### Register writes (R331, R332) -/

/-- R313, R334: EN goes from 0 to 1: the edge index and the input's counters restart (DEDUCED, log 93). -/
def stampRestart (d : Dev) (i : Nat) : Dev :=
  let d := d.each (List.range 16) fun d s => d.onlyIf ((d.site s).cap.buf.any (·.stamps.contains i) || (d.site s).stamps.inputs.contains i)
    fun d => d.modSite s fun x => { x with
      stamps := { x.stamps with inputs := x.stamps.inputs.map fun j => if j = i then 136 else j }
      cap := { x.cap with buf := x.cap.buf.map fun l => { l with stamps := l.stamps.map fun j => if j = i then 136 else j } } }
  d.modStampIn i fun x => { good := x.good, loopRaw := x.loopRaw }

/-- Table 9.5: a field of TDC_IN after a write: a reserved encoding leaves it unchanged. -/
def keepReserved (bad : Bool) (old new : Nat) : Nat := if bad then old else new

/-- R331: a write of TDC_IN (DEDUCED, log 91). -/
def tdcInWrite (i : Nat) (d : Dev) (w : Word) : Dev :=
  let old := d.rd (.TDC_IN i)
  let aux := decide (128 ≤ i)
  let w := setBits (setBits w 18 16 0) 11 0 0
  let w := if aux then w else setBits (setBits w 25 19 0) 15 12 0
  let src := keepReserved (aux && bits w 30 29 ≠ 0) (bits old 30 29) (bits w 30 29)
  let pol := keepReserved (bits w 28 27 = 3) (bits old 28 27) (bits w 28 27)
  let hyst := keepReserved (50 < bits w 25 20) (bits old 25 20) (bits w 25 20)
  let cfg := setBits (setBits (setBits w 30 29 src) 28 27 pol) 25 20 hyst
  let kept (x : Word) : Nat := bits x 30 27 * 2 ^ 20 + bits x 25 12
  let d := d.onlyIf (bit old 31 && kept cfg ≠ kept old) fun d => d.raise (.TDC_ISTAT i) 26
  let cfg := if bit old 31 then setBits (setBits cfg 30 27 (bits old 30 27)) 25 12 (bits old 25 12) else cfg
  let d := d.store (.TDC_IN i) cfg
  d.onlyIf (!bit old 31 && bit w 31) fun d => stampRestart d i

/-- STAMPER_ENABLE (R313): port `p` writes TDC_IN with EN = 1. -/
def execStamperEnable (p : Fin 8) (i : Fin 136) (w : Word) (s : State) : Host.Outcome State Fault Refusal :=
  act s fun d => regCommand d p (.TDC_IN i) (setBit w 31 true) (tdcInWrite i)

/-- R332: writes of TDC_RBASE while EN is 1 are ignored. -/
def tdcRbaseWrite (s : Nat) (d : Dev) (w : Word) : Dev := if d.flag (.TDC_RCTL s) 31 then d else d.store (.TDC_RBASE s) w

/-- R321, R322, R332: a write of TDC_RCTL. -/
def tdcRctlWrite (s : Nat) (d : Dev) (w : Word) : Dev :=
  let b := d.rd (.TDC_RBASE s)
  let ok := d.boltsOf s (bits b 14 0) (bits b 30 16 + 1)
  let d := d.set (.TDC_RCTL s) 30 30 (bits w 30 30)
  let d := d.onlyIf (bit w 29) fun d => stampHome d s
  if !bit w 31 then d.clear (.TDC_RCTL s) 31
  else if d.flag (.TDC_RCTL s) 31 then d
  else if ok then (stampHome d s).raise (.TDC_RCTL s) 31
  else d.raise (.TDC_RSTAT s) 30

/-- STAMP_REGION_ENABLE (R321): port `p` writes TDC_RCTL with EN = 1. -/
def execStampRegionEnable (p : Fin 8) (site : Fin 16) (w : Word) (s : State) : Host.Outcome State Fault Refusal :=
  act s fun d => regCommand d p (.TDC_RCTL site) (setBit w 31 true) (tdcRctlWrite site)

/-- STAMP_REGION_CLEAR (R322): port `p` writes TDC_RCTL with CLEAR (DEDUCED, log 95). -/
def execStampRegionClear (p : Fin 8) (site : Fin 16) (w : Word) (s : State) : Host.Outcome State Fault Refusal :=
  act s fun d => regCommand d p (.TDC_RCTL site) (setBit w 29 true) (tdcRctlWrite site)

end Sys2Proof.Machine
end

