-- ==== Sys2Proof/Machine/Drc.lean ====
section
/-! DEFINITION. The DRAM controller: write drains, refresh, ECC outcomes, scrub and self-refresh
(06_pattern_memory.md R209 to R227). -/
namespace Sys2Proof.Machine

/-! ### Write drains (R210) -/

/-- When a drain of a pseudo-channel falls due: at once at HIGH lines, else when the oldest line that has not issued has waited 1 µs. -/
def drainDue (d : Dev) (c : Nat) : Option Nat :=
  if d.wqHigh ≤ (d.wqIssued c).lines.length then none else (d.wqIssued c).lines.head?.map (·.time + micro1)

/-- R210: a drain starts with the lines that have not issued, where it is due. -/
def drainStart (d : Dev) (c : Nat) : Dev :=
  let q := d.wqIssued c
  if q.draining ∨ q.lines = [] ∨ (q.lines.length < d.wqHigh ∧ q.lines.head?.all fun l => decide (d.now < l.time + micro1)) then d
  else d.putWq c { lines := q.lines, draining := true }

/-- WRITE_DRAIN_START (R210). -/
def execWriteDrainStart (c : Fin 32) (s : State) : Host.Outcome State Fault Refusal :=
  actAt s (if (s.mirror.wq c).draining then none else drainDue s.mirror c) fun d => drainStart d c

/-- R210: the queue falls to LOW: its oldest lines have issued. None issues on a channel in refresh (R216). -/
def drainEnd (d : Dev) (c : Nat) : Dev :=
  let q := d.wq c
  if q.draining ∧ !d.dram.inRefresh.any (·.1 = c % 4) then d.putWq c { lines := q.lines.drop (q.lines.length - d.wqLow), draining := false } else d

/-! ### Reads (R213, R221, R222) -/

/-- R222, R223: a line that the code cannot correct reads poisoned until it is written in full. -/
def markPoison (d : Dev) (a : Nat) : Dev :=
  d.modDram fun m => if m.poison.contains (a / 64) then m else { m with
    poison := m.poison.filter (· < a / 64) ++ [a / 64] ++ m.poison.filter (a / 64 < ·) }

/-- R221: a read is corrected. -/
def correctedRead (d : Dev) (a : Nat) : Dev :=
  rasReport (d.modDram fun m => { m with ceCount := (m.ceCount + 1) % 2 ^ 64 }) 0x0A sevCorrected 9 a (d.boltSites a) none none

/-- R221 to R223: what the code finds in a line: 0 nothing, 1 an error it corrects, 2 an error it cannot correct. -/
def readOutcome (d : Dev) (a outcome : Nat) : Dev :=
  if d.dram.poisoned a then poisonRead d a
  else if outcome = 2 then poisonRead (markPoison d a) a
  else if outcome = 1 then correctedRead d a
  else d

/-- DRAM_READ_RETURN (R213): a read of the line at a byte address returns, with what the code found (DESIGN CHOICE, log 4); none issues
on a channel in refresh (R216). -/
def execDramReadReturn (line : Fin 805306368) (outcome : Fin 3) (s : State) : Host.Outcome State Fault Refusal :=
  act s fun d => if d.lineHeld (64 * line) then d else readOutcome d (64 * line) outcome

/-- R223: bolts that are scrubbed: those of the ledger region, and allocated ones that are not LOST (DEDUCED, log 102). -/
def scrubbed (d : Dev) (b : Nat) : Bool := b < 512 || ((d.dram.bolt b).alloc && !(d.dram.bolt b).lost)

/-- R223: the line that the scrub reads next. -/
def scrubLine (d : Dev) : Nat :=
  let n := d.dram.scrubNext
  if scrubbed d (n / 32768) then n
  else match ((List.range 24576).map fun i => (n / 32768 + 1 + i) % 24576).find? (scrubbed d) with
    | some b => b * 32768
    | none => n

/-- R223, R245: the time from one scrub read to the next, in a full pass of HOURS hours over the lines of the bolts that are scrubbed. -/
def scrubInterval (d : Dev) : Nat :=
  let bolts := 512 + (d.dram.bolts.cells.filter fun p => decide (512 ≤ p.1) && p.2.alloc && !p.2.lost).length
  or256 (d.get .DRC_SCRUB 7 0) * 3600 * second1 / (32768 * bolts)

/-- R223: a scrub read, which as a service read waits while its channel is in refresh or drains (R209, R210) (DESIGN CHOICE, log 199). -/
def scrubRead (d : Dev) (outcome : Nat) : Dev :=
  let n := scrubLine d
  if !d.flag .DRC_SCRUB 31 ∨ d.lineWaits (64 * n) then d
  else (readOutcome d (64 * n) outcome).modDram fun m => { m with
    scrubNext := (n + 1) % 805306368, scrubAt := max d.dram.scrubAt (d.now - scrubInterval d) + scrubInterval d }

/-- DRAM_SCRUB_READ (R223, R245). -/
def execDramScrubRead (outcome : Fin 3) (s : State) : Host.Outcome State Fault Refusal :=
  actAt s (if s.dev.flag .DRC_SCRUB 31 then some s.dev.dram.scrubAt else none) fun d => scrubRead d outcome

/-! ### Refresh (R216 to R219) -/

def Dev.refGroup (d : Dev) (g : Nat) : Group := d.dram.groups.get {} g
def Dev.putRef (d : Dev) (g : Nat) (x : Group) : Dev := d.modDram fun m => { m with groups := m.groups.put {} g x }

/-- DRC_REF.DEBT of a group. -/
def Dev.debt (d : Dev) (g : Nat) : Nat := d.get .DRC_REF (4 * g + 3) (4 * g)
def Dev.setDebt (d : Dev) (g v : Nat) : Dev := d.set .DRC_REF (4 * g + 3) (4 * g) v

/-- R216, R243: the refresh interval at a rate, and tRFC. -/
def Dev.refInterval (d : Dev) (doubled : Bool) : Nat := d.get .DRC_TREF 31 16 * nano1 / (if doubled then 2 else 1)
def Dev.trfc (d : Dev) : Nat := d.get .DRC_TREF 15 0 * nano1

/-- 500 ns: the announcement and the spacing of R218. -/
def ns500 : Nat := 500 * nano1

/-- R216, R217, R219: a group's due point: its debt grows, or its refresh is forced at the ninth; the rate selected by the last
poll applies from here. In self-refresh nothing falls due (DEDUCED, log 100). -/
def refreshDue (d : Dev) (g : Nat) (heavy : Bool) : Dev :=
  let d := d.modDram fun m => { m with loadHigh := heavy }
  let dbl := d.dram.doubledSel
  let d := d.set .DRC_STAT 31 31 dbl.toNat
  let x := d.refGroup g
  let full := decide (8 ≤ d.debt g)
  let on := d.dramActive
  let d := d.putRef g { x with due := x.due + d.refInterval dbl, doubled := dbl, forced := x.forced || (on && full) }
  if on && !full then d.setDebt g (d.debt g + 1) else d

/-- REFRESH_DUE (R219); `heavy` says that real-time reads exceeded 75 % of 614.4 GB/s over the last 1.024 µs (DESIGN CHOICE, log 4). -/
def execRefreshDue (g : Fin 4) (heavy : Bool) (s : State) : Host.Outcome State Fault Refusal :=
  actAt s (some (s.dev.refGroup g).due) fun d => refreshDue d g heavy

/-- R219, R239: the real-time read load is heavy. -/
def Dev.heavy (d : Dev) : Bool := d.dram.loadHigh && d.flag .DRC_REF 31

/-- R219: the refreshes of a group may not be postponed. -/
def unpostponed (d : Dev) (g : Nat) : Bool := (d.refGroup g).doubled || !d.heavy

/-- R218, R219: a group's refresh may be announced: forced, about to fall due, or owed by the lowest group that owes one. -/
def mayAnnounce (d : Dev) (g : Nat) : Bool :=
  let x := d.refGroup g
  d.dramActive && x.announced.isNone &&
  (x.forced || (x.due ≤ d.now + ns500 && (unpostponed d g || 8 ≤ d.debt g)) ||
   (0 < d.debt g && unpostponed d g && (List.range g).all fun h => d.debt h = 0 || (d.refGroup h).announced.isSome))

/-- R218, R220: a refresh is announced, and every prefetcher extends its lookahead for the group's lines. -/
def refreshAnnounce (d : Dev) (g : Nat) : Dev :=
  if mayAnnounce d g then prefetchAll (d.putRef g { d.refGroup g with announced := some (d.now + ns500) }) else d

/-- REFRESH_ANNOUNCE (R219, R220); `heavy` says that real-time reads exceeded 75 % of 614.4 GB/s over the last 1.024 µs (DESIGN CHOICE, log 4). -/
def execRefreshAnnounce (g : Fin 4) (heavy : Bool) (s : State) : Host.Outcome State Fault Refusal :=
  act s fun d => refreshAnnounce (d.modDram fun m => { m with loadHigh := heavy }) g

/-- R216, R218: an announced refresh starts, unless another group is in refresh, or its own last refresh ended less than
500 ns ago, or none is owed. -/
def refreshStart (d : Dev) (g : Nat) : Dev :=
  let x := d.refGroup g
  if x.announced.isNone ∨ d.dram.inRefresh.isSome ∨ !d.dramActive ∨ (x.lastEnd.any fun t => decide (d.now < t + ns500)) ∨
      (!x.forced ∧ d.debt g = 0) then d
  else
    let d := if x.forced then d else d.setDebt g (d.debt g - 1)
    let d := (d.putRef g { x with announced := none, forced := false }).modDram fun m => { m with inRefresh := some (g, d.now + d.trfc) }
    (d.set .DRC_STAT 29 28 g).raise .DRC_STAT 27

/-- REFRESH_START (R216). -/
def execRefreshStart (g : Fin 4) (s : State) : Host.Outcome State Fault Refusal :=
  actAt s (s.dev.refGroup g).announced fun d => refreshStart d g

/-- R216: the refresh in progress completes. -/
def refreshEnd (d : Dev) : Dev :=
  match d.dram.inRefresh with
  | none => d
  | some (g, t) => ((d.putRef g { d.refGroup g with lastEnd := some t }).modDram fun m => { m with inRefresh := none }).clear .DRC_STAT 27

/-- R217: a reading of the stack's temperature in 1/128 °C selects the rate (DEDUCED, log 101). -/
def tempPoll (d : Dev) (t : BitVec 16) : Dev :=
  let c := signed 16 t.toNat
  (d.wr .DRC_TEMP (BitVec.ofNat 32 t.toNat)).modDram fun m => { m with
    doubledSel := if 85 * 128 ≤ c then true else if c ≤ 82 * 128 then false else m.doubledSel }

/-- STACK_TEMP_POLL (R217): the reading is an operand (DESIGN CHOICE, log 4). -/
def execStackTempPoll (t : BitVec 16) (s : State) : Host.Outcome State Fault Refusal :=
  polled s 1 milli1 fun d => tempPoll d t

/-! ### Self-refresh (R224 to R227) -/

/-- R224: a burst is dispatched, a source unit runs, or a stream ring is enabled. -/
def Dev.dramBusy (d : Dev) : Bool :=
  (d.descs.any fun x => x.2.dispatched) || ((List.range 8).any fun n => d.srcState n ≠ 0) || ((List.range 16).any fun s => d.ringOn s)

def Dev.dramState (d : Dev) : Nat := d.get .DRC_PWR 25 24

/-- R224: entry starts, or is refused. In any state but active, ENTER is ignored (R226). -/
def enterSelfRefresh (d : Dev) : Dev :=
  if d.dramState ≠ 0 then d
  else if d.dramBusy then d.raise .DRC_PWR 29
  else (d.set .DRC_PWR 25 24 1).modDram fun m => { m with retain := d.get .DRC_PWR 1 0, exitKept := false, heldAtEnter := m.held.length }

/-- R226: exit starts, or is kept until entry completes. -/
def exitSelfRefresh (d : Dev) : Dev :=
  if d.dramState = 2 then d.set .DRC_PWR 25 24 3
  else if d.dramState = 1 then d.modDram fun m => { m with exitKept := true }
  else d

/-- R224, R244: a write of DRC_PWR; an ENTER that is refused changes nothing but REFUSED (DEDUCED, log 103). -/
def drcPwrWrite (d : Dev) (w : Word) : Dev :=
  let d := if bit w 31 ∧ d.dramState = 0 ∧ d.dramBusy then d else d.store .DRC_PWR w
  if bit w 31 then enterSelfRefresh d else if bit w 30 then exitSelfRefresh d else d

/-- SELF_REFRESH_ENTER (R224): port `p` writes DRC_PWR with ENTER. -/
def execSelfRefreshEnter (p : Fin 8) (w : Word) (s : State) : Host.Outcome State Fault Refusal :=
  act s fun d => regCommand d p .DRC_PWR (setBit w 31 true) drcPwrWrite

/-- SELF_REFRESH_EXIT (R226): port `p` writes DRC_PWR with EXIT and without ENTER. -/
def execSelfRefreshExit (p : Fin 8) (w : Word) (s : State) : Host.Outcome State Fault Refusal :=
  act s fun d => regCommand d p .DRC_PWR (setBit (setBit w 31 false) 30 true) drcPwrWrite

/-- R225, R226: the queues have drained, and the stack is in self-refresh; an EXIT that was kept starts exit from there. -/
def entryEnd (d : Dev) : Dev :=
  if d.dramState ≠ 1 then d
  else ((d.modDram fun m => { m with wqs := {}, inRefresh := none, heldAtEnter := 0 }).clear .DRC_STAT 27).set .DRC_PWR 25 24 2

/-- R226: exit starts where an EXIT was kept during entry. -/
def keptExit (d : Dev) : Dev :=
  d.onlyIf (d.dramState = 2 && d.dram.exitKept) fun d => (d.modDram fun m => { m with exitKept := false }).set .DRC_PWR 25 24 3

/-- Table 6.8: the first bolt that is not retained. -/
def retainEnd (r : Nat) : Nat := if r = 0 then 24576 else 24576 / 2 ^ r

/-- R227: allocated bolts outside the retained part are LOST; the ledger region is retained. -/
def loseBolts (d : Dev) : Dev :=
  d.each (d.dram.bolts.cells.filter fun p => p.2.alloc && decide (retainEnd d.dram.retain ≤ p.1)) fun d p =>
    d.putBolt p.1 { p.2 with lost := true }

/-- R227: refresh starts again with no debt. -/
def freshGroups (d : Dev) : Dev :=
  (List.range 4).foldl (fun d g => (d.setDebt g 0).putRef g { due := d.now + d.refInterval d.dram.doubledSel, doubled := d.dram.doubledSel }) d

/-- R226, R227: exit completes; the held requests follow. -/
def selfRefreshExited (d : Dev) : Dev := freshGroups (loseBolts (d.set .DRC_PWR 25 24 0))

end Sys2Proof.Machine
end

