-- ==== Sys2Proof/Machine/AcqCmds.lean ====
section
/-! DEFINITION. Commands of the acquisition units, of capture, of grants and of the ledger
(07_capture_and_acquisition.md R256 to R283). -/
namespace Sys2Proof.Machine

/-! ### Capture and grants (R256, R259, R281) -/

/-- R256: a write of ACQ_CAPCFG: EN is set only when every bolt of the region is allocated to the site; the site captures into the
region that was checked (DEDUCED, log 16). -/
def capcfgWrite (s : Nat) (d : Dev) (w : Word) : Dev :=
  let b := d.rd (.ACQ_CAPBASE s)
  let d := d.set (.ACQ_CAPCFG s) 30 30 (bits w 30 30)
  if !bit w 31 then d.clear (.ACQ_CAPCFG s) 31
  else if d.boltsOf s (bits b 14 0) (bits b 30 16 + 1) then
    (d.raise (.ACQ_CAPCFG s) 31).modSite s fun x => { x with cap := { x.cap with region := b } }
  else (d.clear (.ACQ_CAPCFG s) 31).raise (.ACQ_CAPSTAT s) 29

/-- CAPTURE_ENABLE (R256): port `p` writes ACQ_CAPCFG with EN = 1. -/
def execCaptureEnable (p : Fin 8) (site : Fin 16) (w : Word) (s : State) : Host.Outcome State Fault Refusal :=
  act s fun d => regCommand d p (.ACQ_CAPCFG site) (setBit w 31 true) (capcfgWrite site)

/-- R259: the sum of all grants. -/
def Dev.grants (d : Dev) : Nat :=
  ((List.range 16).map fun n => d.get (.ACQ_GRANT n) 9 0 + d.get (.ACQ_CAPGRANT n) 9 0).sum

/-- R259: a grant write that would raise the sum above 1,000 is ignored and flagged; pacing goes on from now (DEDUCED, log 104). -/
def grantWrite (r : Reg) (d : Dev) (w : Word) : Dev :=
  if 1000 < d.grants - d.get r 9 0 + bits w 9 0 then d.raise r 31
  else
    let d := d.store r w
    match r with
    | .ACQ_GRANT u => d.modAcq u fun a => { a with drainT := max a.drainT d.now }
    | .ACQ_CAPGRANT s => d.modSite s fun x => { x with cap := { x.cap with drainT := max x.cap.drainT d.now } }
    | _ => d

/-- GRANT_WRITE (R259): port `p` writes the grant of a unit, or of a site's capture. -/
def execGrantWrite (p : Fin 8) (capture : Bool) (n : Fin 16) (w : Word) (s : State) : Host.Outcome State Fault Refusal :=
  act s fun d =>
    let r : Reg := if capture then .ACQ_CAPGRANT n else .ACQ_GRANT n
    regCommand d p r w (grantWrite r)

/-- Table 7.12: a write of ACQ_SPER: a period below 1,250 is taken as 1,250. -/
def sperWrite (n : Nat) (d : Dev) (w : Word) : Dev := d.store (.ACQ_SPER n) (setBits w 30 0 (max 1250 (bits w 30 0)))

/-! ### Units (R261 to R263, R278, R280) -/

/-- R261: a host's ARM or DISARM acts, and is known until the next item. -/
def hostRequest (d : Dev) (u : Nat) (arm : Bool) : Dev :=
  (if arm then acqArm d u else acqStop d u).modAcq u fun a => { a with hostReq := some arm }

/-- R278: a write of ACQ_CTL: ARM, or DISARM, and FORCE. -/
def acqCtlWrite (u : Nat) (d : Dev) (w : Word) : Dev :=
  let d := d.store (.ACQ_CTL u) w
  let d := if bit w 31 then hostRequest d u true else if bit w 30 then hostRequest d u false else d
  d.onlyIf (bit w 29) fun d => d.modAcq u fun a => { a with force := true }

/-- ACQ_ARM (R261): port `p` writes ACQ_CTL with ARM. -/
def execAcqArm (p : Fin 8) (u : Fin 16) (w : Word) (s : State) : Host.Outcome State Fault Refusal :=
  act s fun d => regCommand d p (.ACQ_CTL u) (setBit w 31 true) (acqCtlWrite u)

/-- ACQ_DISARM (R262): port `p` writes ACQ_CTL with DISARM and without ARM. -/
def execAcqDisarm (p : Fin 8) (u : Fin 16) (w : Word) (s : State) : Host.Outcome State Fault Refusal :=
  act s fun d => regCommand d p (.ACQ_CTL u) (setBit (setBit w 31 false) 30 true) (acqCtlWrite u)

/-- ACQ_FORCE (R263): port `p` writes ACQ_CTL with FORCE (DEDUCED, log 56). -/
def execAcqForce (p : Fin 8) (u : Fin 16) (w : Word) (s : State) : Host.Outcome State Fault Refusal :=
  act s fun d => regCommand d p (.ACQ_CTL u) (setBit w 29 true) (acqCtlWrite u)

/-- 06_pattern_memory.md R210, R222: the reads of an envelope load, as the controller sees them. -/
def envelopeRead (d : Dev) (u : Nat) : Dev :=
  let w := (d.acq u).cfg.envtab
  d.onlyIf (d.acq u).loading fun d => readsDone d ((linesOf (regionBase w) (4 * (bits w 31 16 + 1))).map fun a => (a, d.dram.poisoned a))

/-- ENVELOPE_LOAD_END (R261). -/
def execEnvelopeLoadEnd (u : Fin 16) (s : State) : Host.Outcome State Fault Refusal :=
  act s fun d => if d.engineReads then envelopeLoaded (envelopeRead d u) u else d

/-- R278: ACQ_ATTACH and ACQ_GRP keep their values while the unit is armed. -/
def armedWrite (u : Nat) (r : Reg) (d : Dev) (w : Word) : Dev := if d.acqArmed u then d else d.store r w

/-- R280: the write of word 2 of a gate time takes all three words. -/
def acqOpenWrite (u i : Nat) (d : Dev) (w : Word) : Dev :=
  let d := d.store (.ACQ_GOPEN u i) w
  d.onlyIf (i = 2) fun d => d.modAcq u fun a => { a with gopen := gateTime fun k => d.rd (.ACQ_GOPEN u k) }
def acqCloseWrite (u i : Nat) (d : Dev) (w : Word) : Dev :=
  let d := d.store (.ACQ_GCLOSE u i) w
  d.onlyIf (i = 2) fun d => d.modAcq u fun a => { a with gclose := gateTime fun k => d.rd (.ACQ_GCLOSE u k) }

/-! ### Capture streams (R260) -/

/-- R260: the local time of a sample that arrives now on lane CLn: less the receive latency, internal and external. -/
def sampleNow (d : Dev) (n : Nat) : Nat :=
  let lat : Int := (d.get (.CAL_LRX 1 (4 + n)) 23 0 : Int) + signed 32 (d.rd (.CAL_LEXT1 1 (4 + n))).toNat
  ((d.now : Int) - lat * frac16).toNat

/-- R260: the local time of a unit's next sample: the first one by its arrival, the others spaced by ACQ_SPER.PERIOD, in 0.5 ps
(DEDUCED, log 106). -/
def sampleTime (d : Dev) (n u : Nat) : Nat :=
  match (d.acq u).firstT with
  | some t => t + (d.acq u).offered * d.get (.ACQ_SPER n) 30 0 * halfPs
  | none => sampleNow d n

/-- R260, R261: a sample comes to a unit attached to its stream. -/
def sampleTo (d : Dev) (n u : Nat) (x : BitVec 16) : Dev :=
  let t := sampleTime d n u
  let d := d.onlyIf (d.acqArmed u && !(d.acq u).loading) fun d => d.modAcq u fun a => { a with firstT := some (a.firstT.getD t) }
  itemPast (offer d u { idx := (d.acq u).offered, time := t, smp := signed 16 x.toNat }) u

/-- 11_lanes_and_host_link.md R383: the next sample slot of a capture stream: whether its block crosses the lane, and the blocks that do not
counted. -/
def captureSlot (d : Dev) (n : Nat) : Bool × Dev :=
  let x := d.lane (16 + n)
  let drop := if x.rxSlot = 0 then !d.laneUp (16 + n) else x.rxDrop
  let lost := drop && x.rxSlot = 0
  (!drop, d.modLane (16 + n) fun x => { x with
    rxSlot := (x.rxSlot + 1) % 8, rxDrop := drop, dropBlk := (x.dropBlk + lost.toNat) % 2 ^ 64 })

/-- R260, R383: a sample is offered to every armed unit attached to its stream; one that does not cross the lane is not. -/
def sampleArrives (d : Dev) (n : Nat) (x : BitVec 16) : Dev :=
  let c := captureSlot d n
  let d := c.2
  if !c.1 ∨ !d.flag (.ACQ_SPER n) 31 then d
  else d.each (List.range 16) fun d u =>
    if (d.acq u).cfg.stream ∧ (d.acq u).cfg.strm = n then sampleTo d n u x else d

/-- CAPTURE_SAMPLE_ARRIVAL (R260); `drained` lists the lines that buffers have drained by then (DESIGN CHOICE, log 12). -/
def execCaptureSampleArrival (n : Fin 8) (x : BitVec 16) (drained : List (Nat × Nat)) (s : State) :
    Host.Outcome State Fault Refusal :=
  act s fun d => sampleArrives (drains d drained) n x

/-- ACQ_DRAIN_END (R270): at the time at which the grants have let the buffers drain. -/
def execAcqDrainEnd (u : Fin 16) (s : State) : Host.Outcome State Fault Refusal :=
  let d := paceAcq (if s.mirror.siteEngine u = none then paceCap s.mirror u else s.mirror) u
  actFrom s d (some (d.drainEndAt u)) fun d => acqDrained d u

/-! ### The ledger (R273, R276, R277) -/

/-- R273: an acknowledgement; one above the write position or below the present one is ignored. -/
def ledgerAck (d : Dev) : Dev :=
  let p := (d.rd .GLB_LGACKHI).toNat * 2 ^ 32 + (d.rd .GLB_LGACKLO).toNat
  d.modLedger fun l => if l.ack ≤ p ∧ p ≤ l.wpos then { l with ack := p } else l

/-- R282: the write of GLB_LGACKHI acts. -/
def ackWrite (d : Dev) (w : Word) : Dev := ledgerAck (d.store .GLB_LGACKHI w)

/-- LEDGER_ACK (R273): port `p` writes GLB_LGACKHI. -/
def execLedgerAck (p : Fin 8) (w : Word) (s : State) : Host.Outcome State Fault Refusal :=
  act s fun d => regCommand d p .GLB_LGACKHI w ackWrite

/-- The byte address of a ledger position (R272). -/
def ledgerAddr (p : Nat) : Nat := 32 * (p % 2 ^ 25)

/-- The bytes of the entries from one position up to another. -/
def ledgerImage (d : Dev) (first stop : Nat) : List Byte :=
  (List.range (stop - first)).flatMap fun i => d.dram.bytes (ledgerAddr (first + i)) 32

/-- R276: a seal begins: SEAL and two SEAL_LOG entries, and the signature is asked for. -/
def sealSpan (d : Dev) : Dev :=
  let d := ledgerGap d
  let l := d.ledger
  let oldest := l.wpos - 2 ^ 25
  let first := max l.span oldest
  let gapped := decide (l.span < oldest)
  let log := d.trust.logDigest
  let r := ledgerPut d 0x14 ucEvent 0 0 d.now 0 (gapped.toNat * 2 ^ 63 + first % 2 ^ 63) ((l.wpos + 2 ^ 64 - 1) % 2 ^ 64)
  let d := ledger r.2 0x15 ucEvent 0 0 d.now 0 (log % 2 ^ 64) (log / 2 ^ 64 % 2 ^ 64)
  let d := ledger d 0x15 ucEvent 0 0 d.now 1 (log / 2 ^ 128 % 2 ^ 64) (log / 2 ^ 192 % 2 ^ 64)
  let d := d.modLedger fun x => { x with span := x.wpos, sealing := some { first, stop := l.wpos, sealPos := r.1.getD l.wpos } }
  d.modTrust fun t => { t with signing := t.signing ++ [.span] }

/-- R277, R282: a write of GLB_LGCTL. -/
def lgctlWrite (d : Dev) (w : Word) : Dev :=
  if !bit w 31 then d
  else if d.ledger.sealing.isSome then d.raise .GLB_LGSTAT 26
  else sealSpan d

/-- SEAL (R276): port `p` writes GLB_LGCTL with SEAL. -/
def execSeal (p : Fin 8) (w : Word) (s : State) : Host.Outcome State Fault Refusal :=
  act s fun d => regCommand d p .GLB_LGCTL (setBit w 31 true) lgctlWrite

/-- R276: the four SEAL_SIG entries of a signature r, s. -/
def sealSig (d : Dev) (pos : Nat) (sig : Nat × Nat) : Dev :=
  let v := sig.1 % 2 ^ 256 + 2 ^ 256 * (sig.2 % 2 ^ 256)
  d.each (List.range 4) fun d i =>
    ledger d 0x16 ucFirmware 0 0 (d.nowOn 10) (pos % 2 ^ 14 * 4 + i) (v / 2 ^ (128 * i) % 2 ^ 64) (v / 2 ^ (128 * i + 64) % 2 ^ 64)

/-- R277: an entry of the span reads poisoned. -/
def spanPoisoned (d : Dev) (x : Seal) : Bool :=
  (List.range (x.stop - x.first)).any fun i => d.dram.poisoned (ledgerAddr (x.first + i))

/-- 06_pattern_memory.md R222: the poisoned lines of a span, once each. -/
def spanLines (d : Dev) (x : Seal) : List Nat :=
  (((List.range (x.stop - x.first)).map fun i => ledgerAddr (x.first + i) / 64 * 64).filter d.dram.poisoned).eraseDups

/-- R276, R277, 14_power_reset_and_trust.md R472: the trust engine comes to a seal: it is signed, or it fails (DEDUCED, log 105). -/
def sealSigned (d : Dev) : Dev :=
  match d.ledger.sealing, d.trust.signing with
  | some x, .span :: rest =>
    if !d.hostReads then d
    else
      let d := (d.modLedger fun l => { l with sealing := none }).modTrust fun t => { t with signing := rest }
      match d.trust.otp.key with
      | some k =>
        if spanPoisoned d x then (d.each (spanLines d x) poisonRead).raise .GLB_LGSTAT 27
        else
          let h := sha256 (ledgerImage d x.first x.stop ++ ledgerImage d x.sealPos (x.sealPos + 3))
          (sealSig d x.sealPos (ecdsaSign k h)).raise .GLB_LGSTAT 28
      | none => d.raise .GLB_LGSTAT 27
  | _, _ => d

/-- SEAL_SIGNED (R276). -/
def execSealSigned (s : State) : Host.Outcome State Fault Refusal := act s sealSigned

end Sys2Proof.Machine
end

