-- ==== Sys2Proof/Machine/Time.lean ====
section
/-! DEFINITION. The time base: ticks, steps, the servo, and the crystal's compensation
(10_time_base_and_alignment.md R335 to R349, R367). -/
namespace Sys2Proof.Machine

/-! ### Rates (R340 to R342) -/

/-- TCOMP in 2^-60. -/
def Dev.tcomp (d : Dev) : Int := signed 32 (d.rd .TIM_TCOMP).toNat * 2 ^ 16

/-- R342: 200 ppm in 2^-60. -/
def rateBound : Int := 2 ^ 60 / 5000

/-- R342: ρ set, clamped so that ρ + TCOMP keeps its bound. -/
def setRho (d : Dev) (rho : Int) : Dev :=
  let r := clampInt (-rateBound - d.tcomp) (rateBound - d.tcomp) rho
  (d.modTime fun t => { t with rho := r }).onlyIf (r ≠ rho) fun d => d.raise .TIM_STAT 24

/-- The rate that takes effect at the next tick boundary (R336). -/
def Dev.rate (d : Dev) : Int := d.tbase.rho + d.tcomp

/-! ### Servo states (R345, R346) -/

/-- TIM_STAT.STATE (Table 10.2). -/
def Dev.servoState (d : Dev) : Nat := d.get .TIM_STAT 30 28

/-- R345: a TIME_EVENT entry of class event, with TIM_STAT as it stands after the event. -/
def timeEvent (d : Dev) (aux : Nat) (v : Int) : Dev :=
  ledger d 0x17 ucEvent 0 0 d.now aux (unsigned 64 v) (d.rd .TIM_STAT).toNat

/-- A change of servo state; leaving the locked state sets LOCK_LOST. -/
def servoTo (d : Dev) (st : Nat) : Dev :=
  let lost := d.servoState = 2 && st ≠ 2
  (d.set .TIM_STAT 30 28 st).onlyIf lost fun d => d.raise .TIM_STAT 25

/-- R347: the expected interval of the source in force. -/
def Dev.servoInterval (d : Dev) : Nat :=
  if d.tbase.srcInForce = 1 then or256 (d.get .TIM_RING 23 16) * d.tickTime
  else match d.tbase.ptp.logSync with
    | some k => if d.tbase.ptp.en then (if k ≥ 0 then second1 * 2 ^ k.toNat else second1 / 2 ^ (-k).toNat) else second1
    | none => second1

/-- R346: a change of SRC takes effect: acquiring, or off; the integrator is kept, and ρ equals it (DEDUCED, log 109). -/
def sourceApply (d : Dev) : Dev :=
  let src := d.get .TIM_CTL 31 30
  if src = d.tbase.srcInForce then d
  else
    let was := d.servoState
    let st := if src = 0 then 0 else 1
    let d := servoTo (d.modTime fun t => { t with srcInForce := src, lastMeas := none, measT := d.now, meas := [], count := 0, bad := 0 }) st
    (setRho d d.tbase.integ).onlyIf (was = 2) fun d => timeEvent d 0x04 0

/-- SERVO_SOURCE_APPLY (R346): at a tick boundary. -/
def execServoSourceApply (s : State) : Host.Outcome State Fault Refusal :=
  actAt s (some s.dev.sched.tickAt) sourceApply

/-! ### Measurements (R347, R348) -/

/-- A time difference in 2^-16 ns over a duration in units times 2^k, as a rate in 2^-60: the spec gives no rounding (DESIGN CHOICE, log 7). -/
def rateOf (d : Dev) (e : Int) (dt k : Nat) : Int × Dev := quoFree d (e * 2 ^ 44 * nano1) (max 1 dt * 2 ^ k)

/-- R348: whether the source's time is valid. -/
def Dev.sourceValid (d : Dev) : Bool :=
  if d.tbase.srcInForce = 1 then d.flag .TIM_RINGSTAT 30 else d.get .TIM_PTPSTAT 31 29 = 3

/-- The lock threshold of the source, in 2^-16 ns. -/
def Dev.lockThr (d : Dev) : Nat :=
  if d.tbase.srcInForce = 1 then d.get .TIM_LOCK 15 0 * 256 else d.get .TIM_LOCK 31 16 * 65536

/-- R347: the gains of the source, kp and ki. -/
def Dev.gains (d : Dev) : Nat × Nat :=
  if d.tbase.srcInForce = 1 then (d.get .TIM_SERVO 31 28, d.get .TIM_SERVO 27 24)
  else (d.get .TIM_SERVO 23 20, d.get .TIM_SERVO 19 16)

/-- R347: the servo may step: in acquiring, with STEP_EN, when |e| reaches the threshold. -/
def Dev.servoSteps (d : Dev) (e : Int) : Bool :=
  let thr := d.get .TIM_SERVO 15 0
  d.servoState = 1 && d.flag .TIM_CTL 29 && thr ≠ 0 && decide (thr * 65536 ≤ e.natAbs)

/-- R347: a step of -e is requested (DEDUCED, log 107). -/
def servoStep (d : Dev) (e : Int) : Dev :=
  (d.modTime fun t => { t with stepServo := some (t.stepServo.getD 0 - e * frac16), count := 0 }).raise .TIM_STAT 27

/-- R348: lock: TIME_VALID is set where the source's time is valid. -/
def servoLock (d : Dev) : Dev :=
  let d := (servoTo d 2).onlyIf d.sourceValid fun d => d.raise .TIM_STAT 31
  timeEvent d 0x03 0

/-- R347: the changes of state after a measurement has steered ρ. On entry to acquiring the next measurement is the first. -/
def servoStates (d : Dev) : Dev :=
  let fresh (d : Dev) : Dev := d.modTime fun t => { t with lastMeas := none }
  let d := if d.servoState = 3 then timeEvent (servoTo (fresh d) 1) 0x06 0 else d
  let d := if d.servoState = 1 ∧ 16 ≤ d.tbase.count then servoLock d else d
  if d.servoState = 2 ∧ 4 ≤ d.tbase.bad then
    timeEvent (servoTo ((fresh d).modTime fun t => { t with count := 0, bad := 0 }) 1) 0x04 0
  else d

/-- R347: a measurement e, local time minus source time in 2^-16 ns. -/
def servoMeasure (d : Dev) (e : Int) : Dev :=
  let now := d.now
  let d := d.modTime fun t => { t with measT := now }
  if d.tbase.stepServo.isSome ∨ d.servoState = 0 then d
  else
    let dt := match d.tbase.lastMeas with
      | some t => now - t
      | none => d.servoInterval
    let d := d.modTime fun t => { t with lastMeas := some now }
    if d.servoSteps e then servoStep d e
    else
      let g := d.gains
      let i := rateOf d e dt g.2
      let p := rateOf i.2 e dt g.1
      let integ := p.2.tbase.integ - i.1
      let thr := d.lockThr
      let d := setRho (p.2.modTime fun t => { t with integ := integ }) (integ - p.1)
      servoStates (d.modTime fun t => { t with
        count := if e.natAbs < thr then t.count + 1 else 0, bad := if 4 * thr < e.natAbs then t.bad + 1 else 0 })

/-- R347: the oldest measurement that has been passed to the servo; one of another source than that in force is of no use. -/
def nextMeasure (d : Dev) : Dev :=
  match d.tbase.meas with
  | [] => d
  | (src, e) :: ms =>
    let d := d.modTime fun t => { t with meas := ms }
    if src = d.tbase.srcInForce then servoMeasure d e else d

/-- SERVO_MEASUREMENT (R347): the servo takes the oldest offset passed to it. -/
def execServoMeasurement (s : State) : Host.Outcome State Fault Refusal := act s nextMeasure

/-- R347: eight expected intervals have passed without a measurement. -/
def servoHoldover (d : Dev) : Dev :=
  if d.servoState = 1 ∨ d.servoState = 2 then timeEvent (setRho (servoTo d 3) d.tbase.integ) 0x05 0 else d

/-- SERVO_HOLDOVER (R347). -/
def execServoHoldover (s : State) : Host.Outcome State Fault Refusal :=
  if s.dev.servoState = 1 ∨ s.dev.servoState = 2 then
    actAt s (some (s.dev.tbase.measT + 8 * s.dev.servoInterval)) servoHoldover
  else act s id

/-! ### Ticks (R172, R173, R336) -/

/-- 15_dependability.md R477: PTP stamps taken before a reload of the ML0 island's mirror are discarded. -/
def ptpDiscard (d : Dev) : Dev := d.modTime fun t => { t with ptp := { t.ptp with syncT2 := none, reqT3 := none } }

/-- 01_burst_path.md R15: the alignment mark: a mirror that was off is reloaded. -/
def mirrorsReload (d : Dev) : Dev := { d.onlyIf (d.mirrors.get 0 40 ≠ 0) ptpDiscard with mirrors := {} }

/-- R172, R173, R352: what a tick boundary does beside the anchor. -/
def tickEffect (d : Dev) : Dev :=
  let d := mirrorsReload d
  let next := d.sched.tickAt + d.tickTime
  let d := d.modSched fun x => { x with tickAt := next, tickLen := d.tickTime / (256 * nano1) }
  (armComparators d next).modTime fun t => { t with ringTicks := t.ringTicks + 1 }

/-- SCHEDULER_TICK (R173, R336): a tick boundary: the anchor is recorded at its base-clock cycle, and the rate changes there. -/
def execSchedulerTick (s : State) : Host.Outcome State Fault Refusal :=
  let c := s.clock.advanceTo s.dev.sched.tickAt
  let d := State.mirror { s with clock := c }
  live s { s with clock := { c with cb := c.raw, tb := c.localAt c.raw, rate := d.rate }, dev := tickEffect d }

/-! ### Steps (R343 to R345) -/

/-- R343: a host's write of TIM_SET2 requests a step. -/
def timeSet (d : Dev) : Dev :=
  let t := ofTimeWords (d.rd (.TIM_SET 0)).toNat (d.rd (.TIM_SET 1)).toNat (d.rd (.TIM_SET 2)).toNat
  let delta : Int := (t : Int) - d.now
  let d := (d.modTime fun x => { x with stepHost := some (x.stepHost.getD 0 + delta) }).raise .TIM_STAT 27
  timeEvent d 0x01 (delta / frac16)

/-- R367: a write of TIM_SET; that of word 2 requests the step. -/
def timSetWrite (i : Nat) (d : Dev) (w : Word) : Dev := (d.store (.TIM_SET i) w).onlyIf (i = 2) timeSet

/-- TIME_SET (R343): port `p` writes TIM_SET2. -/
def execTimeSet (p : Fin 8) (w : Word) (s : State) : Host.Outcome State Fault Refusal :=
  act s fun d => regCommand d p (.TIM_SET 2) w (timSetWrite 2)

/-- A table with every listed value changed. -/
def Tbl.update {α : Type} [DecidableEq α] (t : Tbl α) (z : α) (f : α → α) : Tbl α :=
  { cells := (t.cells.map fun c => (c.1, f c.2)).filter fun c => c.2 ≠ z }

/-- A time moved by a step. -/
def shiftT (delta : Int) (t : Nat) : Nat := ((t : Int) + delta).toNat

/-- R344: a step moves a source unit's anchor, and with it the instants of its slots and those that are counted from them. -/
def shiftSource (delta : Int) (n : Source) : Source :=
  let h := (n.anchor + delta + halfPs / 2) / halfPs - (n.anchor + halfPs / 2) / halfPs
  { n with
    anchor := n.anchor + delta
    reqs := n.reqs.map fun q => { q with time := shiftT h q.time }
    pend := n.pend.map fun q => { q with latch := shiftT h q.latch }
    pend2 := n.pend2.map fun q => { q with latch := shiftT h q.latch }
    starting := n.starting.map fun v => if n.startTimed then v else (v.1, shiftT h v.2) }

/-- The stamps from which durations in progress are measured move with local time, so that a step changes no duration. The end of an engine's
last burst (R175) is a stored time and keeps its label (R344) (DEDUCED, log 64) (DEDUCED, log 108). -/
def shiftTimers (d : Dev) (x : Int) : Dev :=
  let f := shiftT x
  { d with
    polls := d.polls.update none fun t => t.map f
    dram := { d.dram with
      wqs := d.dram.wqs.update {} fun q => { q with lines := q.lines.map fun l => { l with time := f l.time } }
      groups := d.dram.groups.update {} fun g => { g with
        due := f g.due, announced := g.announced.map f, lastEnd := g.lastEnd.map f }
      inRefresh := d.dram.inRefresh.map fun g => (g.1, f g.2), scrubAt := f d.dram.scrubAt }
    engines := d.engines.update {} fun e => { e with service := e.service.map fun r => { r with since := r.since.map f } }
    sites := d.sites.update {} fun s => { s with
      cap := { s.cap with drainT := f s.cap.drainT }, stamps := { s.stamps with since := f s.stamps.since } }
    acqs := d.acqs.update {} fun a => { a with drainT := f a.drainT }
    srcs := d.srcs.update {} (shiftSource x)
    sched := { d.sched with
      tickAt := f d.sched.tickAt, nextLeave := f d.sched.nextLeave, nextCommit := f d.sched.nextCommit
      descs := d.sched.descs.update none fun o => o.map fun y => { y with readyAt := f y.readyAt, commitAt := f y.commitAt } }
    ras := { d.ras with
      scrubFrom := f d.ras.scrubFrom
      engErrs := d.ras.engErrs.update [] fun l => l.map f }
    trust := { d.trust with kick := f d.trust.kick }
    ports := d.ports.update {} fun p => { p with
      ackT := f p.ackT, ackSentT := f p.ackSentT, creditT := f p.creditT, msiT := p.msiT.map f, rateStep := p.rateStep.map fun r => (r.1, f r.2)
      marks := { p.marks with time := f p.marks.time }, negT := f p.negT }
    lanes := d.lanes.update {} fun l => { l with
      cdrT := f l.cdrT, trackT := f l.trackT, retrainT := l.retrainT.map f, seqT := f l.seqT
      marks := { l.marks with time := f l.marks.time } }
    tbase := { d.tbase with lastMeas := d.tbase.lastMeas.map f, measT := f d.tbase.measT
                            ptp := { d.tbase.ptp with bestAt := f d.tbase.ptp.bestAt, reqAt := d.tbase.ptp.reqAt.map f }
                            tpos := d.tbase.tpos.update {} fun t => { t with pulseEnd := t.pulseEnd.map f }
                            tcis := d.tbase.tcis.update {} fun t => { t with lastEdge := t.lastEdge.map f } } }

end Sys2Proof.Machine
end

