-- ==== Sys2Proof/Machine/Events.lean ====
section
/-! DEFINITION. Stitch events, compare units, pulse outputs, capture inputs, and the effects of a step
(10_time_base_and_alignment.md R343, R344, R353, R354, R359 to R363). -/
namespace Sys2Proof.Machine

/-! ### Stitch events (R353, R354) -/

/-- R350: the upstream stitch lane of a part: ST2 for a follower with BRIDGE, else ST1. -/
def Dev.upstream (d : Dev) : Nat := if d.get .TIM_RING 31 30 = 2 ∧ d.flag .TIM_RING 29 then 2 else 1

/-- 11_lanes_and_host_link.md R386: stitch lane `lane` sends its own blocks: it is on, in no loopback and behind no fenced seam, and its balls are
the core's (16_electrical_and_package.md R507) (DEDUCED, log 122). -/
def Dev.stitchOn (d : Dev) (lane : Nat) : Bool := d.stage (24 + lane) ≠ 0 && !d.looped (24 + lane) && !d.laneFenced (24 + lane) && !d.sched.jtagHold

/-- A stitch payload block sent on a lane; over a lane that is off or in a loopback it is lost. -/
def sendStitch (d : Dev) (lane : Nat) (b : Block) : Dev :=
  d.onlyIf (d.stitchOn lane) fun d => dealTo [24 + lane] (d.modTime fun t => { t with stitchOut := (lane, b) :: t.stitchOut }) b

/-- Stitch lane `lane` receives: it is up, which no lane in a loopback is. -/
def Dev.stitchHears (d : Dev) (lane : Nat) : Bool := d.laneUp (24 + lane) && !d.looped (24 + lane)

/-- R353: a block sent on ST0, and on ST3 where BRIDGE_OUT is 1. -/
def sendDown (d : Dev) (b : Block) : Dev :=
  (sendStitch d 0 b).onlyIf (d.flag .TIM_RING 28) fun d => sendStitch d 3 b

/-- The 96 bits of a time in the layout of R337, word 2 highest (DEDUCED, log 111). -/
def timeBits (t : Nat) : Nat :=
  let w := timeWords t
  w.1 + 2 ^ 32 * w.2.1 + 2 ^ 64 * w.2.2

/-- The time in units that 96 bits in the layout of R337 give. -/
def ofTimeBits (v : Nat) : Nat := ofTimeWords (v % 2 ^ 32) (v / 2 ^ 32 % 2 ^ 32) (v / 2 ^ 64 % 2 ^ 32)

/-- R353: the delay of an event, at least 200 ns. -/
def Dev.sevDelay (d : Dev) : Nat := max 200 (d.get .TIM_SEVCFG 15 0) * nano1

/-- R62: event `n` reaches a burst at the time `ev`: a WAITT that waits for it, or else it is counted for a burst that has started. -/
def eventToBurst (n ev : Nat) (b : Burst) : Burst :=
  let kept := if b.start.any fun t => decide (t * halfPs ≤ ev) then { b with gotEvents := b.gotEvents ++ [(n, ev)] } else b
  match b.wait with
  | some (.event k dl none) => if k = n then { b with wait := some (.event k dl (some ev)) } else kept
  | _ => kept

/-- R354: event `n` is delivered at the time `ev` to the scheduler and to the engines; deliveries of one event in one base-clock cycle
merge. -/
def deliverEvent (d : Dev) (n ev : Nat) : Dev :=
  let d := d.raise .TIM_SEVSTAT n
  if d.tbase.delivered.get none n = some d.raw then d
  else
    let d := startEvent (d.modTime fun t => { t with delivered := t.delivered.put none n (some d.raw) }) n none ev
    d.each (List.range 16) fun d e => d.modBurst e (eventToBurst n ev)

/-- Table 10.3: an EVENT block. -/
def eventBlock (d : Dev) (n t : Nat) : Block :=
  BitVec.ofNat 128 (4 * 2 ^ 124 + n % 16 * 2 ^ 120 + d.get .TIM_RING 15 8 * 2 ^ 112 + timeBits t % 2 ^ 96)

/-- R353: event `n` is raised for the time `t`, held to 2^-16 ns (DEDUCED, log 112). -/
def raiseEvent (d : Dev) (n t : Nat) : Dev :=
  let t := toFrac16 t * frac16
  (sendDown d (eventBlock d n t)).modTime fun x => { x with events := x.events ++ [⟨n, t⟩] }

/-- R353: a write of TIM_SEV. -/
def sevWrite (d : Dev) (w : Word) : Dev :=
  let d := d.store .TIM_SEV w
  if bit w 31 then raiseEvent d (bits w 3 0) (d.now + d.sevDelay) else d

/-- STITCH_EVENT_RAISE (R353): port `p` writes TIM_SEV with GO. -/
def execStitchEventRaise (p : Fin 8) (w : Word) (s : State) : Host.Outcome State Fault Refusal :=
  act s fun d => regCommand d p .TIM_SEV (setBit w 31 true) sevWrite

/-- R353, R354: an EVENT block arrives on the upstream lane: forwarded, and, where ROLE is not off, kept for its time or delivered late. A
block of the part's own is dropped. -/
def eventReceived (d : Dev) (lane : Nat) (b : Block) : Dev :=
  let n := bits b 123 120
  let t := ofTimeBits (bits b 95 0)
  if !d.stitchHears lane ∨ bits b 127 124 ≠ 4 ∨ lane ≠ d.upstream ∨ bits b 119 112 = d.get .TIM_RING 15 8 then d
  else
    let d := sendDown d b
    if d.get .TIM_RING 31 30 = 0 then d
    else if t < d.nowOn 10 then (deliverEvent d n (d.nowOn 10)).raise .TIM_SEVSTAT 31
    else d.modTime fun x => { x with events := x.events ++ [⟨n, t⟩] }

/-- STITCH_EVENT_RECEIVE (R353). -/
def execStitchEventReceive (lane : Fin 4) (b : Block) (s : State) : Host.Outcome State Fault Refusal :=
  act s fun d => eventReceived d lane b

/-- The event whose time comes first. -/
def firstEvent : List EventDue → Option EventDue
  | [] => none
  | x :: xs => match firstEvent xs with
    | none => some x
    | some y => if y.time < x.time then some y else some x

/-- R354, R15: the first pending delivery is made, as the control island's mirror has it; those of the same event at the same base-clock cycle, which ends at `edge`, merge. -/
def eventDelivered (d : Dev) (edge : Nat) : Dev :=
  match firstEvent d.tbase.events with
  | none => d
  | some x =>
    let d := d.modTime fun t => { t with events := t.events.filter fun y => !(y.event = x.event && decide (y.time ≤ max x.time edge)) }
    (deliverEvent d x.event (max x.time (d.nowOn 10))).onlyIf (x.time < d.nowOn 10) fun d => d.raise .TIM_SEVSTAT 31

/-- STITCH_EVENT_DELIVER (R354). -/
def execStitchEventDeliver (s : State) : Host.Outcome State Fault Refusal :=
  match firstEvent s.dev.tbase.events with
  | none => act s id
  | some x =>
    let c := s.clock.advanceTo (s.dev.dueOn 10 x.time)
    actWith s c fun d => eventDelivered d (((c.localAt c.raw : Nat) : Int) + d.mirrors.get 0 10).toNat

/-! ### Compare units (R359 to R361, R370) -/

def Dev.compare (d : Dev) (n : Nat) : Compare := d.tbase.compares.get {} n
def Dev.putCompare (d : Dev) (n : Nat) (x : Compare) : Dev := d.modTime fun t => { t with compares := t.compares.put {} n x }

/-- R359: the configured units, and whether they use the compact format. -/
def Dev.compact (d : Dev) : Bool := 16 < d.cmpCount
def Dev.cmpArmed (d : Dev) (n : Nat) : Bool := d.flag (.TIM_CMPCTL n) 29

/-- R359: a write of TIM_CMPMODE: COUNT changes only while no unit is armed. -/
def cmpmodeWrite (d : Dev) (w : Word) : Dev :=
  if (List.range 64).any d.cmpArmed then
    (d.store .TIM_CMPMODE (setBits w 6 0 (d.get .TIM_CMPMODE 6 0))).raise .TIM_CMPMODE 31
  else d.store .TIM_CMPMODE (setBits w 6 0 (min 64 (bits w 6 0)))

/-- COMPARE_COUNT_WRITE (R359): port `p` writes TIM_CMPMODE. -/
def execCompareCountWrite (p : Fin 8) (w : Word) (s : State) : Host.Outcome State Fault Refusal :=
  act s fun d => regCommand d p .TIM_CMPMODE w cmpmodeWrite

/-- Table 10.8: local time in 2^-8 ns. -/
def time8 (t : Nat) : Nat := toFrac16 t / 256

/-- Table 10.8: the 40-bit difference of local time and a compact target, read as signed. -/
def compactDiff (now target : Nat) : Int := signed 40 (unsigned 40 ((time8 now : Int) - target))

/-- When a unit's target is reached, in units. -/
def Dev.targetTime (d : Dev) (n now : Nat) : Nat :=
  if d.compact then (((time8 now : Int) - compactDiff now (d.compare n).target).toNat) * 256 * frac16 else (d.compare n).target

/-- R359, R360: a unit is armed with the target its registers hold; LATE where it has been reached already. -/
def cmpArm (d : Dev) (n : Nat) : Dev :=
  if d.cmpCount ≤ n then d
  else
    let w (i : Nat) : Nat := (d.rd (.TIM_CMPT n i)).toNat
    let target := if d.compact then w 1 % 256 * 2 ^ 32 + w 0 else ofTimeWords (w 0) (w 1) (w 2)
    let d := (d.putCompare n { d.compare n with target }).raise (.TIM_CMPCTL n) 29
    d.onlyIf (d.targetTime n d.now ≤ d.now) fun d => d.raise (.TIM_CMPCTL n) 27

/-- R370: a write of TIM_CMPCTL. -/
def cmpctlWrite (n : Nat) (d : Dev) (w : Word) : Dev :=
  let d := d.store (.TIM_CMPCTL n) w
  if bit w 31 then cmpArm d n else if bit w 30 then d.clear (.TIM_CMPCTL n) 29 else d

/-- COMPARE_ARM (R360): port `p` writes TIM_CMPCTL with ARM. -/
def execCompareArm (p : Fin 8) (n : Fin 64) (w : Word) (s : State) : Host.Outcome State Fault Refusal :=
  act s fun d => regCommand d p (.TIM_CMPCTL n) (setBit w 31 true) (cmpctlWrite n)

/-- COMPARE_DISARM (R370): port `p` writes TIM_CMPCTL with DISARM and without ARM. -/
def execCompareDisarm (p : Fin 8) (n : Fin 64) (w : Word) (s : State) : Host.Outcome State Fault Refusal :=
  act s fun d => regCommand d p (.TIM_CMPCTL n) (setBit (setBit w 31 false) 30 true) (cmpctlWrite n)

/-- R361: the packet of a firing. -/
def cmpPacket (n t : Nat) : List Word64 :=
  let w := timeWords t
  [pack 64 [(40, 8, 3), (0, 6, n)], pack 64 [(32, 32, w.2.2), (0, 32, w.2.1)], pack 64 [(0, 32, w.1)]]

/-- R360, R361: a unit fires at the time `t` of a base-clock edge. -/
def cmpFire (d : Dev) (n t : Nat) : Dev :=
  let target := d.targetTime n d.now
  let a := d.get (.TIM_CMPCTL n) 25 24
  let d := ((d.clear (.TIM_CMPCTL n) 29).raise (.TIM_CMPCTL n) 28).putCompare n { d.compare n with fired := t }
  let d := d.onlyIf (a % 2 = 1) fun d => outPost d (d.cmpOwner n) (cmpPacket n t)
  d.onlyIf (2 ≤ a) fun d => raiseEvent d (d.get (.TIM_CMPCTL n) 23 20) (target + d.sevDelay)

/-- COMPARE_FIRE (R361): at the first base-clock edge at which the target has been reached; one reached at ARM fires at the next
edge. -/
def execCompareFire (n : Fin 64) (s : State) : Host.Outcome State Fault Refusal :=
  if s.dev.cmpArmed n then
    let t := s.dev.targetTime n s.clock.now
    let c := if t ≤ s.clock.now then s.clock.cycle else s.clock.advanceTo t
    actWith s c fun d => cmpFire d n (max c.now (c.localAt c.raw))
  else act s id

/-! ### Pulse outputs (R362, R371) -/

def Dev.tpo (d : Dev) (k : Nat) : Tpo := d.tbase.tpos.get {} k
def Dev.putTpo (d : Dev) (k : Nat) (x : Tpo) : Dev := d.modTime fun t => { t with tpos := t.tpos.put {} k x }
/-- TIM_TPOCTL.RUN: pulses are being emitted, to the end of the last one. -/
def Dev.tpoRuns (d : Dev) (k : Nat) : Bool :=
  d.flag (.TIM_TPOCTL k) 29 && !((d.tpo k).left = some 0 && !(d.tpo k).pulseEnd.any fun t => decide (d.now < t))

/-- The level of a pulse output (R371). -/
def Dev.tpoLevel (d : Dev) (k : Nat) : Bool := ((d.tpo k).pulseEnd.any fun t => decide (d.now < t)) != d.flag (.TIM_TPOCTL k) 28

/-- R362: the leading edge of pulse `i`, in half-picoseconds. -/
def pulseEdge (x : Tpo) (i : Nat) : Nat := toHalf (x.start + i * (x.period * frac16))

/-- The first pulse of a train at or after a time in units. -/
def pulseFrom (x : Tpo) (t : Nat) : Nat :=
  let p := x.period * frac16
  if t ≤ x.start ∨ p = 0 then 0
  else
    let k := (t - x.start) / p
    if t ≤ pulseEdge x k * halfPs then k else k + 1

/-- R362: ARM (DEDUCED, log 114). -/
def tpoArm (d : Dev) (k : Nat) : Dev :=
  let period := d.get (.TIM_TPOPER1 k) 15 0 * 2 ^ 32 + (d.rd (.TIM_TPOPER0 k)).toNat
  let width := (d.rd (.TIM_TPOWIDTH k)).toNat
  if period < 20 * 65536 ∨ width < 10 ∨ period < (width + 10) * 65536 then d.raise (.TIM_TPOCTL k) 26
  else
    let start := ofTimeWords (d.rd (.TIM_TPOSTART k 0)).toNat (d.rd (.TIM_TPOSTART k 1)).toNat (d.rd (.TIM_TPOSTART k 2)).toNat
    let n := (d.rd (.TIM_TPOCOUNT k)).toNat
    let late := decide (start < d.now + micro1)
    let x : Tpo := { d.tpo k with start, period, width, left := if n = 0 then none else some n, next := 0, pulseEnd := none }
    let x := if late then { x with next := pulseFrom x (d.now + micro1) } else x
    ((d.putTpo k x).raise (.TIM_TPOCTL k) 29).onlyIf late fun d => d.raise (.TIM_TPOCTL k) 27

/-- R371: a write of TIM_TPOCTL: while RUN is 1, only DISARM acts: no pulse begins any more. -/
def tpoctlWrite (k : Nat) (d : Dev) (w : Word) : Dev :=
  if d.tpoRuns k then (if bit w 30 then d.putTpo k { d.tpo k with left := some 0 } else d)
  else (d.store (.TIM_TPOCTL k) w).onlyIf (bit w 31) fun d => tpoArm d k

/-- R371: a write of another register of a running output is ignored. -/
def tpoWrite (k : Nat) (r : Reg) (d : Dev) (w : Word) : Dev := if d.tpoRuns k then d else d.store r w

/-- TPO_ARM (R362): port `p` writes TIM_TPOCTL with ARM. -/
def execTpoArm (p : Fin 8) (k : Fin 4) (w : Word) (s : State) : Host.Outcome State Fault Refusal :=
  act s fun d => regCommand d p (.TIM_TPOCTL k) (setBit w 31 true) (tpoctlWrite k)

/-- TPO_DISARM (R362): port `p` writes TIM_TPOCTL with DISARM. -/
def execTpoDisarm (p : Fin 8) (k : Fin 4) (w : Word) (s : State) : Host.Outcome State Fault Refusal :=
  act s fun d => regCommand d p (.TIM_TPOCTL k) (setBit w 30 true) (tpoctlWrite k)

/-- Whether a pulse is still to begin. -/
def Dev.tpoMore (d : Dev) (k : Nat) : Bool := d.tpoRuns k && (d.tpo k).left ≠ some 0

/-- R362: the next pulse's leading edge. -/
def tpoPulse (d : Dev) (k : Nat) : Dev :=
  if !d.tpoMore k then d
  else
    let x := d.tpo k
    let e := pulseEdge x x.next
    d.putTpo k { x with
      next := x.next + 1, left := x.left.map (· - 1), edges := e :: x.edges, pulseEnd := some (e * halfPs + x.width * nano1) }

/-- TPO_PULSE (R362). -/
def execTpoPulse (k : Fin 4) (s : State) : Host.Outcome State Fault Refusal :=
  if s.dev.tpoMore k then actAt s (some (pulseEdge (s.dev.tpo k) (s.dev.tpo k).next * halfPs)) fun d => tpoPulse d k
  else act s id

/-! ### Capture inputs (R363) -/

def Dev.tci (d : Dev) (k : Nat) : Tci := d.tbase.tcis.get {} k
def Dev.putTci (d : Dev) (k : Nat) (x : Tci) : Dev := d.modTime fun t => { t with tcis := t.tcis.put {} k x }

/-- R363: a rising edge: it passes the glitch filter where its levels stay for 4 ns, is accepted 50 ns or more after the last accepted one,
queued or dropped, and a start event at its stamp plus 100 ns (DEDUCED, log 197). -/
def tciEdge (d : Dev) (k stable : Nat) : Dev :=
  let x := d.tci k
  if stable < 4 * nano1 ∨ !d.flag (.TIM_TCICTL k) 31 ∨ (x.lastEdge.any fun t => decide (d.now < t + 50 * nano1)) then d
  else
    let t := toFrac16 d.now
    let d := if x.stamps.length ≥ 16 then (d.putTci k { x with lastEdge := some d.now }).raise (.TIM_TCISTAT k) 31
      else d.putTci k { stamps := x.stamps ++ [t], lastEdge := some d.now }
    startEvent d (0x10 + k) none (t * frac16 + 100 * nano1)

/-- TCI_EDGE (R363): `stable` is the shorter of the times for which the low level before the edge and the high level after it stay, in
units (DESIGN CHOICE, log 4). -/
def execTciEdge (k : Fin 4) (stable : Nat) (s : State) : Host.Outcome State Fault Refusal := act s fun d => tciEdge d k stable

/-! ### A step is applied (R343 to R345, Table 10.1) -/

/-- The requests that are pending. -/
def pendingStep (d : Dev) : Option Int :=
  match d.tbase.stepHost, d.tbase.stepServo with
  | none, none => none
  | a, b => some (a.getD 0 + b.getD 0)

/-- Table 10.1: pending deliveries that lie behind the new local time are made at the step, LATE. -/
def stepEvents (d : Dev) : Dev :=
  let l := d.tbase.events.filter (·.time < d.now)
  let d := d.modTime fun t => { t with events := t.events.filter fun x => decide (d.now ≤ x.time) }
  d.each l fun d x => (deliverEvent d x.event d.now).raise .TIM_SEVSTAT 31

/-- Table 10.1: full-format units whose target has been reached fire, and compact ones are disarmed; STEPPED is set. -/
def stepCompares (d : Dev) : Dev :=
  d.each (List.range 64) fun d n =>
    if !d.cmpArmed n then d
    else if d.compact then (d.clear (.TIM_CMPCTL n) 29).raise (.TIM_CMPCTL n) 26
    else if (d.compare n).target ≤ d.now then (cmpFire d n d.now).raise (.TIM_CMPCTL n) 26
    else d

/-- Table 10.1: the next pulse of an output is the first at or after the new local time. -/
def stepTpos (d : Dev) : Dev :=
  d.each (List.range 4) fun d k => if d.tpoRuns k then d.putTpo k { d.tpo k with next := pulseFrom (d.tpo k) d.now } else d

/-- R343 to R345: the effects of a step of Δ that has brought local time to `now`; SRC anchors move with it. -/
def stepEffect (d : Dev) (delta : Int) (now : Nat) : Dev :=
  let host := d.tbase.stepHost.isSome
  let servo := d.tbase.stepServo.isSome
  let d := shiftTimers { d with now := now } delta
  let d := d.modTime fun t => { t with stepHost := none, stepServo := none, lastStep := delta / frac16 }
  let d := ((d.clear .TIM_STAT 27).raise .TIM_STAT 26).onlyIf host fun d => d.raise .TIM_STAT 31
  let d := armComparators (stepTimers d) d.sched.tickAt
  let d := stepTpos (stepCompares (stepEvents d))
  timeEvent d (if servo then 0x02 else 0x07) (delta / frac16)

/-- STEP_APPLY (R343): at a tick boundary at which no burst is dispatched, the pending requests are applied to local time. -/
def execStepApply (s : State) : Host.Outcome State Fault Refusal :=
  match pendingStep s.dev with
  | none => act s id
  | some delta =>
    let c := s.clock.advanceTo s.dev.sched.tickAt
    let d := State.mirror { s with clock := c }
    if d.descs.any fun x => x.2.dispatched then live s { s with clock := c, dev := d }
    else
      let now := shiftT delta c.now
      live s { s with clock := { c with now := now, cb := c.raw, tb := shiftT delta (c.localAt c.raw) }, dev := stepEffect d delta now }

/-! ### Rates and the crystal (R340, R341, R349) -/

/-- R349: a write of TIM_RSET sets ρ and the integrator, while no source is chosen. -/
def rsetWrite (d : Dev) (w : Word) : Dev :=
  if d.get .TIM_CTL 31 30 ≠ 0 then d.raise .TIM_STAT 23
  else
    let d := d.store .TIM_RSET w
    let d := setRho d (signed 32 w.toNat * 2 ^ 18)
    d.modTime fun t => { t with integ := t.rho }

/-- RATE_SET (R349): port `p` writes TIM_RSET. -/
def execRateSet (p : Fin 8) (w : Word) (s : State) : Host.Outcome State Fault Refusal :=
  act s fun d => regCommand d p .TIM_RSET w rsetWrite

/-- R340: TCOMP of a crystal temperature in 1/128 °C, as a numerator over 128^3. -/
def tcompNum (c : Nat → Int) (temp : Int) : Int :=
  let x := temp - 25 * 128
  c 0 * 128 ^ 3 + c 1 * x * 128 ^ 2 + c 2 * x * x * 128 + c 3 * x * x * x

/-- R340, R342: TCOMP of the reading in TIM_XTEMP, under the active coefficients. -/
def tcompSet (d : Dev) : Dev :=
  let t := signed 16 (d.get .TIM_XTEMP 15 0)
  let r := quoFree d (tcompNum (fun m => signed 32 (d.rd (.CAL_XC 1 m)).toNat) t) (128 ^ 3)
  let d := r.2.wr .TIM_TCOMP (BitVec.ofNat 32 (unsigned 32 r.1))
  setRho d d.tbase.rho

/-- 13_calibration.md Table 13.8: a change of an active coefficient changes TCOMP, where a temperature has been read (DEDUCED, log 202). -/
def coefChanged (d : Dev) : Dev := d.onlyIf d.tbase.xtalHeld tcompSet

/-- R340, 13_calibration.md R436: a reading of the crystal temperature; while the servo is locked it is kept as a sample (DEDUCED, log 138). -/
def xtalRead (d : Dev) (temp : BitVec 16) : Dev :=
  let t := signed 16 temp.toNat
  let d := tcompSet ((d.wr .TIM_XTEMP (BitVec.ofNat 32 temp.toNat)).modTime fun x => { x with xtalHeld := true })
  d.onlyIf (d.servoState = 2) fun d => d.modCal fun c => { c with samples := ((t, d.rate) :: c.samples).take 65536 }

/-- R341: cycles between additions of TIM_AGE (DEDUCED, log 115). -/
def ageCycles : Nat := 3200000000

/-- R341: TIM_AGE is added to the integrator and to ρ. -/
def ageAdd (d : Dev) : Dev :=
  let a := signed 32 (d.rd .TIM_AGE).toNat
  setRho (d.modTime fun t => { t with integ := t.integ + a, ageDone := t.ageDone + 1 }) (d.tbase.rho + a)

/-- AGEING_ADD (R341): at each multiple of 3,200,000,000 of the counter. -/
def execAgeingAdd (s : State) : Host.Outcome State Fault Refusal :=
  actWith s (s.clock.advanceRaw ((s.dev.tbase.ageDone + 1) * ageCycles)) ageAdd

/-- R340: cycles between readings of the crystal temperature, 10 ms (DEDUCED, log 194). -/
def xtalCycles : Nat := 32000000

/-- XTAL_TEMP_READ (R340): at each multiple of 10 ms of the counter; the reading is an operand (DESIGN CHOICE, log 4). -/
def execXtalTempRead (temp : BitVec 16) (s : State) : Host.Outcome State Fault Refusal :=
  actWith s (s.clock.advanceRaw ((s.dev.tbase.xtalDone + 1) * xtalCycles)) fun d =>
    xtalRead (d.modTime fun t => { t with xtalDone := t.xtalDone + 1 }) temp

end Sys2Proof.Machine
end

