-- ==== Sys2Proof/Machine/Ring.lean ====
section
/-! DEFINITION. The stitch ring's exchanges, and the PTP port (10_time_base_and_alignment.md R350 to R358, R368, R369). -/
namespace Sys2Proof.Machine

/-! ### The stitch ring (R350 to R352) -/

def Dev.ringRole (d : Dev) : Nat := d.get .TIM_RING 31 30

/-- R352: the part's hop count; that of the reference is 0. -/
def Dev.hops (d : Dev) : Nat := if d.ringRole = 1 then 0 else d.get .TIM_RINGSTAT 23 16

/-- R351: an ST lane's calibrated transmit and receive delays, and its asymmetry A, in 2^-16 ns. -/
def Dev.stTx (d : Dev) (l : Nat) : Int := d.get (.CAL_LTX 1 l) 23 0
def Dev.stRx (d : Dev) (l : Nat) : Int := d.get (.CAL_LRX 1 l) 23 0
def Dev.stAsym (d : Dev) (l : Nat) : Int := signed 32 (d.rd (.CAL_LEXT0 1 l)).toNat

/-- R352: an exchange that has not been answered by the next request is lost; eight in a row set LOST (DEDUCED, log 113). -/
def ringMissed (d : Dev) : Dev :=
  if d.tbase.ringT1.isNone then d
  else
    let d := (d.modTime fun t => { t with ringLost := t.ringLost + 1 }).clear .TIM_RINGSTAT 31
    d.onlyIf (8 ≤ d.tbase.ringLost) fun d => d.raise .TIM_RINGSTAT 28

/-- R352: a REQUEST on the upstream lane; its stamp t1 is taken at the ball. -/
def ringRequest (d : Dev) : Dev :=
  let d := ringMissed d
  let seq := (d.tbase.ringSeq + 1) % 256
  let t1 : Int := (toFrac16 d.now : Int) + d.stTx d.upstream
  let d := d.modTime fun t => { t with ringSeq := seq, ringT1 := some t1, ringTicks := 0 }
  sendStitch d d.upstream (BitVec.ofNat 128 (1 * 2 ^ 124 + seq * 2 ^ 116 + d.get .TIM_RING 15 8 * 2 ^ 108))

/-- RING_REQUEST_SEND (R352): at every PERIOD-th tick; the reference measures its upstream neighbour too (R350). -/
def execRingRequestSend (s : State) : Host.Outcome State Fault Refusal :=
  act s fun d => if (d.ringRole = 1 ∨ d.ringRole = 2) ∧ or256 (d.get .TIM_RING 23 16) ≤ d.tbase.ringTicks then ringRequest d else d

/-- Table 10.3: a REPLY. -/
def replyBlock (d : Dev) (seq turn : Nat) : Block :=
  BitVec.ofNat 128 (2 * 2 ^ 124 + seq * 2 ^ 116 + d.get .TIM_RING 15 8 * 2 ^ 108 + d.timeValid.toNat * 2 ^ 107 +
    (decide (d.servoState = 2)).toNat * 2 ^ 106 + d.hops * 2 ^ 96 + turn % 2 ^ 48 * 2 ^ 48)

/-- R350 to R352: a REQUEST arrives on ST0, or on ST3 with BRIDGE_OUT: stamped at t2, and answered after `turn`. -/
def requestReceived (d : Dev) (lane : Nat) (b : Block) (turn : Nat) : Dev :=
  if !d.stitchHears lane ∨ bits b 127 124 ≠ 1 ∨ d.ringRole = 0 ∨ !(lane = 0 || (lane = 3 && d.flag .TIM_RING 28)) then d
  else
    let seq := bits b 123 116
    let t2 := (((toFrac16 d.now : Int) - d.stRx lane).toNat) * frac16
    sendStitch (sendStitch d lane (replyBlock d seq turn)) lane (BitVec.ofNat 128 (3 * 2 ^ 124 + seq * 2 ^ 116 + timeBits t2 % 2 ^ 96))

/-- RING_REQUEST_RECEIVE (R352); `turn` is t3 - t2 in 2^-16 ns (DESIGN CHOICE, log 4). -/
def execRingRequestReceive (lane : Fin 4) (b : Block) (turn : BitVec 48) (s : State) : Host.Outcome State Fault Refusal :=
  act s fun d => requestReceived d lane b turn.toNat

/-- R352: the values of an exchange: where a half is left over, the spec gives no rounding (DESIGN CHOICE, log 7). -/
def ringValues (d : Dev) (lane : Nat) (t1 t2 turn t4 : Int) : Dev :=
  let th := quoFree d ((t4 - t2 - turn) - (t2 - t1)) 2
  let dl := quoFree th.2 ((t4 - t2 - turn) + (t2 - t1)) 2
  let theta := th.1 - d.stAsym lane
  let d := dl.2.modTime fun t => { t with ringDly := dl.1 }
  if d.ringRole = 1 then d.modTime fun t => { t with ringClose := theta }
  else
    let d := d.modTime fun t => { t with ringOff := theta }
    d.onlyIf (d.tbase.srcInForce = 1) fun d => d.modTime fun t => { t with meas := t.meas ++ [(1, theta)] }

/-- R352: a REPLY and its REPLY_TIME arrive on the upstream lane and answer the request in hand. -/
def replyReceived (d : Dev) (lane : Nat) (r t : Block) : Dev :=
  match d.tbase.ringT1 with
  | none => d
  | some t1 =>
    if bits r 127 124 ≠ 2 ∨ bits t 127 124 ≠ 3 ∨ bits r 123 116 ≠ d.tbase.ringSeq ∨ bits t 123 116 ≠ d.tbase.ringSeq ∨
        lane ≠ d.upstream ∨ d.ringRole = 0 ∨ !d.stitchHears lane then d
    else
      let t2 := toFrac16 (ofTimeBits (bits t 95 0))
      let t4 := (toFrac16 d.now : Int) - d.stRx lane
      let hops := if d.ringRole = 1 then 0 else (bits r 103 96 + 1) % 256
      let w := pack 32 [(31, 1, 1), (30, 1, bits r 107 107), (29, 1, bits r 106 106), (28, 1, d.get .TIM_RINGSTAT 28 28),
        (16, 8, hops), (8, 8, bits r 115 108)]
      let d := (d.wr .TIM_RINGSTAT w).modTime fun x => { x with ringT1 := none, ringLost := 0 }
      ringValues d lane t1 t2 (bits r 95 48) t4

/-- RING_REPLY_RECEIVE (R352). -/
def execRingReplyReceive (lane : Fin 4) (reply time : Block) (s : State) : Host.Outcome State Fault Refusal :=
  act s fun d => replyReceived d lane reply time

/-! ### PTP (R355 to R357, R369) -/

def Dev.modPtp (d : Dev) (f : Ptp → Ptp) : Dev := d.modTime fun t => { t with ptp := f t.ptp }

/-- R369: a write of TIM_PTP: a reserved domain leaves the field unchanged. -/
def ptpWrite (d : Dev) (w : Word) : Dev :=
  d.store .TIM_PTP (if 128 ≤ bits w 23 16 then setBits w 23 16 (d.get .TIM_PTP 23 16) else w)

/-- R369: the firmware restarts the port with the settings of TIM_PTP. -/
def ptpRestart (d : Dev) : Dev :=
  let en := d.flag .TIM_PTP 31
  let d := d.modTime fun t => { t with
    ptp := { en, transport := d.get .TIM_PTP 30 30, domain := d.get .TIM_PTP 23 16 }
    lastMeas := if t.srcInForce = 2 then none else t.lastMeas }
  d.set .TIM_PTPSTAT 31 29 (if en then 1 else 0)

/-- PTP_PORT_RESTART (R369). -/
def execPtpPortRestart (s : State) : Host.Outcome State Fault Refusal := act s ptpRestart

/-- The order of the default best master clock algorithm over the fields it compares (PRESUMED, log 116). -/
def announceKey (m : AnnounceMsg) : List Nat :=
  [m.priority1, m.clockClass, m.accuracy, m.variance, m.priority2, m.gmid, m.steps, m.sender]

/-- Whether one list of numbers comes before another in lexical order. -/
def lexBefore : List Nat → List Nat → Bool
  | a :: as, b :: bs => decide (a < b) || (a = b && lexBefore as bs)
  | _, _ => false

/-- ML0 carries messages: its lane is on and in no loopback (11_lanes_and_host_link.md R386, R407), its seams are not fenced (15_dependability.md R477), no JTAG
instruction owns its balls (16_electrical_and_package.md R507), and standby has not taken it down (14_power_reset_and_trust.md R456). -/
def Dev.ml0Open (d : Dev) : Bool :=
  d.flag (.LAN_CTL 28) 31 && !d.looped 28 && !d.flag (.RAS_SEAMFENCE 2) 14 && !d.flag (.RAS_SEAMFENCE 2) 15 && !d.sched.jtagHold &&
  !((d.get .GLB_PWRSTAT 31 30 = 1 || d.get .GLB_PWRSTAT 31 30 = 2) && !d.flag .GLB_PWR 29)

/-- 2^k seconds in units. -/
def logSeconds (k : Int) : Nat := if 0 ≤ k then second1 * 2 ^ k.toNat else second1 / 2 ^ (-k).toNat

/-- R355: the chosen master, as long as its Announce messages come: one not heard for three of its intervals is no master (PRESUMED, log 195). -/
def Dev.master (d : Dev) : Option AnnounceMsg :=
  d.tbase.ptp.best.filter fun m => decide (d.now ≤ d.tbase.ptp.bestAt + 3 * logSeconds m.logAnnounce)

/-- TIM_PTPSTAT.STATE (R369): faulty while ML0 cannot be used, and listening while there is no master (PRESUMED, log 195). -/
def Dev.ptpState (d : Dev) : Nat :=
  if !d.tbase.ptp.en then d.get .TIM_PTPSTAT 31 29
  else if !d.ml0Open then 4
  else if d.master.isNone then 1 else d.get .TIM_PTPSTAT 31 29

/-- R355: an Announce message of the port's domain and transport: the best master is chosen; a change of grandmaster is flagged (R357)
(DEDUCED, log 117). -/
def announce (d : Dev) (m : AnnounceMsg) : Dev :=
  let p := d.tbase.ptp
  if !p.en ∨ !d.ml0Open ∨ m.domain ≠ p.domain ∨ m.udp.toNat ≠ p.transport ∨ m.logSync < -4 ∨ 1 < m.logSync then d
  else if d.master.any fun b => b.sender ≠ m.sender && !lexBefore (announceKey m) (announceKey b) then d
  else
    let newMaster := !d.master.any (·.sender = m.sender)
    let d := if newMaster then (d.modPtp fun q => { q with syncT2 := none, syncT1 := none, reqT3 := none, delays := [] }).set .TIM_PTPSTAT 31 29 2
      else d
    let d := d.onlyIf (p.logSync ≠ some m.logSync && d.tbase.srcInForce = 2) fun d => d.modTime fun t => { t with lastMeas := none }
    let d := d.modPtp fun q => { q with best := some m, bestAt := d.now, logSync := some m.logSync }
    (d.onlyIf (d.tbase.gmid ≠ m.gmid) fun d => d.raise .TIM_PTPSTAT 28).modTime fun t => { t with gmid := m.gmid }

/-- PTP_ANNOUNCE (R355). -/
def execPtpAnnounce (m : AnnounceMsg) (s : State) : Host.Outcome State Fault Refusal := act s fun d => announce d m

/-- Whether a message is from the chosen master, whose messages all come over the transport of its Announce (DEDUCED, log 196). -/
def fromMaster (d : Dev) (sender : Nat) : Bool := d.tbase.ptp.en && d.ml0Open && d.master.any (·.sender = sender)

/-- 01_burst_path.md R15: local time as the ML0 island's mirror gives it. -/
def Dev.ml0Now (d : Dev) : Nat := d.nowOn 40

/-- R356: the MAC stamp of a Sync: the constant of Table 10.6 and the block phase are taken off. `phase` is in 2^-16 ns. -/
def ingressStamp (d : Dev) (phase : Nat) : Int := toFrac16 (d.ml0Now - 712 * nano1 / 10) - phase

/-- R355, R356: a Sync: stamped at the MAC; a one-step Sync carries t1 (DEDUCED, log 118). -/
def sync (d : Dev) (sender seq phase : Nat) (t1 : Option Int) (corr : Int) : Dev :=
  if fromMaster d sender then
    d.modPtp fun q => { q with syncSeq := seq, syncT2 := some (ingressStamp d phase), syncT1 := t1, syncCorr := corr }
  else d

/-- PTP_SYNC (R356): `t1` is the origin time of a one-step Sync in 2^-16 ns, `phase` the measured block phase (DESIGN CHOICE, log 4). -/
def execPtpSync (sender seq phase : Nat) (t1 : Option Int) (corr : Int) (s : State) : Host.Outcome State Fault Refusal :=
  act s fun d => sync d sender seq phase t1 corr

/-- R355: the Follow_Up of a two-step master. -/
def followUp (d : Dev) (sender seq : Nat) (t1 corr : Int) : Dev :=
  if fromMaster d sender ∧ d.tbase.ptp.syncSeq = seq ∧ d.tbase.ptp.syncT1 = none then
    d.modPtp fun q => { q with syncT1 := some t1, syncCorr := q.syncCorr + corr }
  else d

/-- PTP_FOLLOW_UP (R355). -/
def execPtpFollowUp (sender seq : Nat) (t1 corr : Int) (s : State) : Host.Outcome State Fault Refusal :=
  act s fun d => followUp d sender seq t1 corr

/-- R355, R356: a Delay_Req to the chosen master, stamped at the MAC with the egress constant of Table 10.6. -/
def delayReq (d : Dev) : Dev :=
  if d.tbase.ptp.en ∧ d.ml0Open ∧ d.master.isSome then
    d.modPtp fun q => { q with
      reqAt := some d.now, reqSeq := (q.reqSeq + 1) % 65536, reqT3 := some (toFrac16 (d.ml0Now + 512 * nano1 / 10)), sent := q.sent + 1 }
  else d

/-- PTP_DELAY_REQ (R355): at the interval that the master gives; before it has given one, 1 s (PRESUMED, log 195). -/
def execPtpDelayReq (s : State) : Host.Outcome State Fault Refusal :=
  actAt s (s.dev.tbase.ptp.reqAt.map (· + logSeconds s.dev.tbase.ptp.logDelayReq)) delayReq

/-- 200 ns in 2^-16 ns. -/
def filter200 : Int := 200 * 65536

/-- R357: an exchange is complete: its delay and offset; one whose delay lies more than 200 ns above the least of the last 64
is discarded. -/
def exchange (d : Dev) (t1 t2 t3 t4 cS cD : Int) : Dev :=
  let a := t2 - t1 - cS
  let b := t4 - t3 - cD
  let dl := quoFree d (a + b) 2
  let ok := match d.tbase.ptp.delays.min? with
    | some m => decide (dl.1 ≤ m + filter200)
    | none => true
  let d := dl.2.modPtp fun q => { q with delays := (dl.1 :: q.delays).take 64, syncT2 := none, syncT1 := none, reqT3 := none }
  if !ok then d
  else
    let asym := signed 32 (d.rd .TIM_PTPASYM).toNat
    let off := quoFree d ((a - b) * 1000 - 2 * 65536 * asym) 2000
    let d := (off.2.modTime fun t => { t with ptpOff := off.1, ptpDly := dl.1 }).set .TIM_PTPSTAT 31 29 3
    d.onlyIf (d.tbase.srcInForce = 2) fun d => d.modTime fun t => { t with meas := t.meas ++ [(2, off.1)] }

/-- R355, R357: a Delay_Resp answers the request in hand. -/
def delayResp (d : Dev) (sender seq : Nat) (t4 corr interval : Int) : Dev :=
  let q := d.tbase.ptp
  if !fromMaster d sender ∨ q.reqSeq ≠ seq then d
  else
    let d := d.modPtp fun q => { q with logDelayReq := interval }
    match q.syncT1, q.syncT2, q.reqT3 with
    | some t1, some t2, some t3 => exchange d t1 t2 t3 t4 q.syncCorr corr
    | _, _, _ => d

/-- PTP_DELAY_RESP (R357): `t4` and the correction in 2^-16 ns, and the interval at which the master asks for Delay_Req. -/
def execPtpDelayResp (sender seq : Nat) (t4 corr interval : Int) (s : State) : Host.Outcome State Fault Refusal :=
  act s fun d => delayResp d sender seq t4 corr interval

/-- PTP_OTHER_MESSAGE (R355): management and signalling messages are ignored. -/
def execPtpOtherMessage (s : State) : Host.Outcome State Fault Refusal := act s id

end Sys2Proof.Machine
end

