-- ==== Sys2Proof/Machine/Lanes.lean ====
section
/-! DEFINITION. Lanes and bundles: bring-up, markers, active sets, rates, loopbacks, and how a port goes down
(11_lanes_and_host_link.md R373 to R388). -/
namespace Sys2Proof.Machine

/-! ### Stages and locks (R378, Table 11.5) -/

/-- Stages of Table 11.5. -/
def sgOff : Nat := 0
def sgCdr : Nat := 1
def sgBlock : Nat := 2
def sgMarker : Nat := 3
def sgDeskew : Nat := 4
def sgNeg : Nat := 5
def sgUp : Nat := 6
def sgFailed : Nat := 7

def Dev.setStage (d : Dev) (l st : Nat) : Dev := d.set (.LAN_STAT l) 31 28 st

/-- The lane has no lock any more; a lock it had is recorded as lost (R407). -/
def noLocks (d : Dev) (l : Nat) : Dev :=
  let had := d.get (.LAN_STAT l) 27 25 ≠ 0
  ((d.set (.LAN_STAT l) 27 25 0).modLane l fun x => { x with seq := none, missed := 0 }).onlyIf had fun d => d.raise (.LAN_STAT l) 24

/-- A lane starts to climb from CDR; one whose seam is fenced stays out. -/
def toCdr (d : Dev) (l : Nat) : Dev :=
  (noLocks (d.setStage l (if d.laneFenced l then sgFailed else sgCdr)) l).modLane l fun x => { x with cdrT := d.now }

/-- R383: a lane begins to retrain at stage `st`; one that does so too often within a second goes to FAILED (DEDUCED, log 121). -/
def beginRetrain (d : Dev) (l : Nat) (back : Dev → Dev) : Dev :=
  let ts := d.now :: (d.lane l).retrainT.filter fun t => d.now < t + second1
  let d := d.modLane l fun x => { x with retrains := (x.retrains + 1) % 2 ^ 64, retrainT := ts }
  let lim := d.get (.LAN_ERRCFG l) 15 8
  if lim ≠ 0 ∧ lim < ts.length then noLocks (d.setStage l sgFailed) l else back d

/-! ### Bundles (R380, R381) -/

/-- A lane of a bundle has marker lock, and is in no loopback. -/
def Dev.marked (d : Dev) (l : Nat) : Bool := sgDeskew ≤ d.stage l && d.stage l ≤ sgUp && !d.looped l

/-- R380: the markers of one SEQ come on two lanes within 64 blocks of each other, each lane's last one with its SEQ being known. -/
def Dev.within (d : Dev) (l m : Nat) : Bool :=
  let b := d.blockTime l
  let apart := signed 24 (((d.lane m).seq.getD 0 + 2 ^ 24 - (d.lane l).seq.getD 0) % 2 ^ 24)
  decide (((d.lane l).seqT + apart * (markBlocks * b : Nat) - (d.lane m).seqT).natAbs ≤ 64 * b)

/-- R380: a lane is aligned with every lane of its bundle that has left DESKEW. -/
def Dev.aligned (d : Dev) (p l : Nat) : Bool := ((d.bundle p).filter fun m => d.marked m && d.stage m ≠ sgDeskew).all (d.within l)

/-- R380, R382: the lanes the receiver can use: none whose skew keeps it in DESKEW. -/
def Dev.usable (d : Dev) (p : Nat) : Nat := d.positions p fun l => d.marked l && (d.stage l ≠ sgDeskew || d.aligned p l)

/-- R407, R408: a lane is in the active set of its bundle in both directions. -/
def Dev.activeLane (d : Dev) (p l : Nat) : Bool :=
  inSet (d.port p).txSet (d.position p l) && inSet (d.port p).rxSet (d.position p l)

/-- R408: the rate code in use by a port's lanes: that of the lanes of its sets, or of those that run, or of the first. -/
def Dev.portRate (d : Dev) (p : Nat) : Nat :=
  let sets := d.lanesAt p ((d.port p).txSet ||| (d.port p).rxSet)
  let on := (d.bundle p).filter fun l => d.stage l ≠ sgOff && d.stage l ≠ sgFailed
  match sets ++ on ++ d.bundle p with
  | [] => 0
  | l :: _ => d.laneRate l

/-- LNK_PSTAT with a port's state and what follows from its sets and lanes (DEDUCED, log 126). -/
def pstatWord (d : Dev) (p st : Nat) : Word :=
  let w := setBits (d.rd (.LNK_PSTAT p)) 31 29 st
  let w := setBits w 20 16 ((d.bundle p).filter (d.activeLane p)).length
  let w := setBits w 15 14 (d.portRate p)
  setBits (setBits w 12 8 (card 16 (d.port p).txSet)) 4 0 (card 16 (d.port p).rxSet)

/-- R406, R408: a port's state, widths and rate are brought up to date; LINK is raised where state, width or rate changed. -/
def portStatus (d : Dev) (p st : Nat) : Dev :=
  let w := pstatWord d p st
  let old := d.rd (.LNK_PSTAT p)
  let d := d.wr (.LNK_PSTAT p) w
  let d := d.each (d.bundle p) fun d l => d.set (.LAN_STAT l) 23 23 (d.activeLane p l).toNat
  let d := d.set .GLB_STAT p p (if st = 2 then 1 else 0)
  d.onlyIf (bits old 31 29 ≠ st || bits old 20 16 ≠ bits w 20 16 || bits old 15 14 ≠ bits w 15 14) fun d => irqRaise d p 2

def Dev.portState (d : Dev) (p : Nat) : Nat := d.get (.LNK_PSTAT p) 31 29

/-- The same with the port's state unchanged. -/
def restatus (d : Dev) (p : Nat) : Dev := portStatus d p (d.portState p)

/-- R408: a port that is not up is bringing up while a lane of its bundle runs, and down otherwise. -/
def idleState (d : Dev) (p : Nat) : Nat := if (d.bundle p).any fun l => d.stage l ≠ sgOff && d.stage l ≠ sgFailed then 1 else 0

/-! ### Unavailability (15_dependability.md R487) -/

/-- A cause of unavailability begins. -/
def unavailBegin (x : Ras) (raw : Nat) : Ras := { x with unavailFrom := some (x.unavailFrom.getD raw) }

/-- A cause has ended: the interval ends with the last one. -/
def unavailEnd (x : Ras) (raw : Nat) : Ras :=
  if x.outage ∨ x.portsDown ≠ 0 then x
  else { x with unavail := x.unavail + (raw - x.unavailFrom.getD raw), unavailFrom := none }

/-! ### Ports up and down -/

/-- A port that was up goes down; `host` tells whether a host's write to LAN_CTL or LNK_PMAP caused it. The session is held. -/
def portDown (d : Dev) (p : Nat) (host : Bool) : Dev :=
  let was := d.portUp p
  let d := d.modPort p fun x => { x with txSet := 0, rxSet := 0, txNext := none, rxNext := none, rateNext := none, rateStep := none, negRx := false }
  let d := portStatus (d.set (.LNK_PSTAT p) 28 27 0) p (idleState d p)
  d.onlyIf (was && !host) fun d => d.modRas fun x => { unavailBegin x d.raw with portsDown := x.portsDown ||| 2 ^ p }

/-- A control block sent on each of `n` lanes of a port. -/
def sendCopies (d : Dev) (p n : Nat) (b : Block) : Dev := d.each (List.replicate n b) fun d b => sendCtl d p b

/-! ### The device's markers (R376) -/

/-- The markers up to a time, one each interval, with SEQ modulo 2^24. -/
def Marks.upTo (m : Marks) (interval now : Nat) : Marks :=
  let k := (now - m.time) / interval
  { seq := (m.seq + k) % 2 ^ 24, time := m.time + k * interval }

/-- R378, R386: a lane sends its own markers while it is on, but for far-end loopback. -/
def Dev.sends (d : Dev) (l : Nat) : Bool := d.stage l ≠ sgOff && d.get (.LAN_CTL l) 30 28 ≠ 3

/-- The lanes that send markers with lane `l`: those of its bundle. -/
def Dev.markLanes (d : Dev) (l : Nat) : List Nat := (if l < 16 then d.bundle (d.lanePort l) else [l]).filter d.sends

/-- Table 11.3: the marker that lane `l` sends. -/
def markerBlock (d : Dev) (l seq bip : Nat) : Block :=
  let pos := if l < 16 then d.position (d.lanePort l) l else 0
  ctlBlock 0x1E (seq * 2 ^ 96 + l * 2 ^ 88 + pos * 2 ^ 80 + bip * 2 ^ 64 + 0x6A3C95D195C36A2E)

/-- A lane sends the last of `k` markers, with the parity of the blocks between it and the one before; IDLE blocks, whose bits are 0, fill the
slots to which no block was dealt. -/
def sendMarker (k : Nat) (d : Dev) (l seq : Nat) : Dev :=
  let n := (k - 1) * (markBlocks - 1)
  let gone := (d.lane l).dealt.filter fun b => decide (n ≤ b.1) && decide (b.1 < n + (markBlocks - 1))
  d.modLane l fun x => { x with
    sent := some (markerBlock d l seq (blocksBip gone))
    dealt := (x.dealt.filter fun b => n + (markBlocks - 1) ≤ b.1).map fun b => (b.1 - n - (markBlocks - 1), b.2) }

/-- Whether marker `seq` lies at or behind marker `now`, modulo 2^24. -/
def reached (now seq : Nat) : Bool := (now + 2 ^ 24 - seq) % 2 ^ 24 < 2 ^ 23

/-- R381: the device's own marker `sent` has gone out: the set announced for it applies. -/
def txReached (d : Dev) (p sent : Nat) : Dev :=
  match (d.port p).txNext with
  | some (m, s) => if reached sent s then restatus (d.modPort p fun x => { x with txSet := m, txNext := none }) p else d
  | none => d

/-- R376: the markers of lane `l`, and of its bundle, up to now; lanes that are all off send none. -/
def sendMarks (d : Dev) (l : Nat) : Dev :=
  let old := d.marks l
  let ls := d.markLanes l
  if ls = [] then d.setMarks l { old with time := d.now }
  else
    let m := old.upTo (markBlocks * d.blockTime l) d.now
    if m.time = old.time then d
    else
      let k := (m.time - old.time) / (markBlocks * d.blockTime l)
      let d := (d.setMarks l m).each ls fun d i => sendMarker k d i m.seq
      d.onlyIf (l < 16) fun d => txReached d (d.lanePort l) m.seq

/-- The markers of a port's bundle up to now. -/
def portMarks (d : Dev) (p : Nat) : Dev := match d.bundle p with | [] => d | l :: _ => sendMarks d l

/-- The markers of every lane up to now. -/
def allMarks (d : Dev) : Dev := ((d.each (List.range 8) portMarks).each ((List.range 12).map (16 + ·)) sendMarks)

/-- R381: the marker after which a change applies lies at least two intervals ahead. -/
def Dev.nextMark (d : Dev) (p : Nat) : Nat := ((d.port p).marks.seq + 3) % 2 ^ 24

/-- R382: an LREQ that names the lanes the receiver can use. -/
def sendLreq (d : Dev) (p : Nat) : Dev := sendCtl d p (ctlBlock 0x18 (d.usable p * 2 ^ 104))

/-- The device's transmit set, or the one it has announced. -/
def Dev.txTarget (d : Dev) (p : Nat) : Nat := match (d.port p).txNext with | some (m, _) => m | none => (d.port p).txSet

/-- R381: a new transmit set is announced on every active lane, to apply after a marker (DEDUCED, log 124). -/
def announceSet (d : Dev) (p m : Nat) : Dev :=
  let d := portMarks d p
  if m = 0 ∨ m = d.txTarget p then d
  else
    let s := d.nextMark p
    (sendCopies d p (card 16 (d.port p).txSet) (ctlBlock 0x17 (m * 2 ^ 104 + s * 2 ^ 80))).modPort p fun x => { x with txNext := some (m, s) }

/-- R382, R407: an SL lane is out of service: its partner is asked to leave it out, and on a host's write the device's own set
leaves it out as well; with the last lane in service the port goes down. -/
def laneOut (d : Dev) (l : Nat) (host : Bool) : Dev :=
  if 16 ≤ l then d
  else
    let p := d.lanePort l
    if !d.portUp p then (if d.portState p = 3 then d else portStatus d p (idleState d p))
    else if (d.bundle p).all fun m => d.stage m ≠ sgUp then portDown d p host
    else
      let d := sendLreq d p
      let d := d.onlyIf host fun d => announceSet d p (d.txTarget p - 2 ^ d.position p l * (inSet (d.txTarget p) (d.position p l)).toNat)
      restatus d p

/-- R383: a lane that is degraded retrains from CDR, out of its bundle. -/
def degrade (d : Dev) (l : Nat) : Dev := laneOut (beginRetrain d l fun d => toCdr d l) l false

/-! ### Locks gained and lost -/

/-- R378, R384: the clock is recovered; in adaptive mode the filter has settled at `step`. While the boundary cells own the balls a lane has no
partner (16_electrical_and_package.md R507). -/
def cdrLock (d : Dev) (l step : Nat) : Dev :=
  if d.stage l ≠ sgCdr ∨ (d.sched.jtagHold && !d.looped l) then d
  else
    let d := d.set (.LAN_EQ l) 20 16 (if d.flag (.LAN_EQ l) 31 then d.get (.LAN_EQ l) 4 0 else step)
    ((d.setStage l sgBlock).raise (.LAN_STAT l) 27).modLane l fun x => { x with trackT := d.now }

/-- CDR_LOCK (R378): lane `l`; the settled step is an operand (DESIGN CHOICE, log 4). -/
def execCdrLock (l : Fin 28) (step : Fin 32) (s : State) : Host.Outcome State Fault Refusal := act s fun d => cdrLock d l step

/-- R375: invalid headers counted. -/
def countHdr (d : Dev) (l n : Nat) : Dev := d.set (.LAN_ERR l) 15 0 (sat 16 (d.get (.LAN_ERR l) 15 0 + n))

/-- R375, R378: 64 consecutive valid headers, after `hdr` invalid ones in this stage. -/
def blockLock (d : Dev) (l hdr : Nat) : Dev :=
  if d.stage l ≠ sgBlock then d else ((countHdr d l hdr).setStage l sgMarker).raise (.LAN_STAT l) 26

/-- BLOCK_LOCK (R378): lane `l`; the invalid headers met before are an operand (DESIGN CHOICE, log 4). -/
def execBlockLock (l : Fin 28) (hdr : BitVec 16) (s : State) : Host.Outcome State Fault Refusal :=
  act s fun d => blockLock d l hdr.toNat

/-- Table 11.5: marker lock is lost in DESKEW or later: the lane returns to MARKER, which begins a retrain (DEDUCED, log 123). -/
def markerLost (d : Dev) (l : Nat) : Dev :=
  laneOut (beginRetrain d l fun d =>
    (((d.setStage l sgMarker).clear (.LAN_STAT l) 25).raise (.LAN_STAT l) 24).modLane l fun x => { x with seq := none, missed := 0 }) l false

/-- Table 11.5: a loss returns a lane to the stage its row names. -/
def lockLoss (d : Dev) (l : Nat) : Dev :=
  let st := d.stage l
  if st = sgBlock then toCdr d l
  else if st = sgMarker then
    (((d.setStage l sgBlock).set (.LAN_STAT l) 26 25 0).raise (.LAN_STAT l) 24).modLane l fun x => { x with seq := none, missed := 0 }
  else if sgDeskew ≤ st ∧ st ≤ sgUp then markerLost d l
  else d

/-- LOCK_LOSS (R378): lane `l`, with the invalid headers seen since the last marker (DESIGN CHOICE, log 4). -/
def execLockLoss (l : Fin 28) (hdr : BitVec 16) (s : State) : Host.Outcome State Fault Refusal :=
  act s fun d => lockLoss (countHdr d l hdr.toNat) l

/-! ### Rates (R379, R388) -/

/-- R379: the next rate of the hunting cycle. -/
def nextRate (r maxRate : Nat) : Nat := if maxRate ≤ r then 0 else r + 1

/-- A lane changes rate: the blocks to its next marker are counted anew (DESIGN CHOICE, log 201). -/
def setRate (d : Dev) (l r : Nat) : Dev :=
  let d := sendMarks d l
  ((d.setMarks l { d.marks l with time := d.now }).modLane l fun x => { x with dealt := [] }).set (.LAN_CTL l) 27 26 r

/-- R379: ten milliseconds in CDR. -/
def huntTimeout (d : Dev) (l : Nat) : Dev :=
  if d.stage l ≠ sgCdr ∨ !d.flag (.LAN_CTL l) 20 then d
  else
    let d := toCdr (setRate d l (nextRate (d.laneRate l) (d.get (.LAN_CTL l) 25 24))) l
    d.onlyIf (l < 16) fun d => restatus d (d.lanePort l)

/-- RATE_HUNT_TIMEOUT (R379): an SL or CL lane. -/
def execRateHuntTimeout (l : Fin 24) (s : State) : Host.Outcome State Fault Refusal :=
  if s.dev.stage l = sgCdr ∧ s.dev.flag (.LAN_CTL l) 20 then actAt s (some ((s.dev.lane l).cdrT + 10 * milli1)) fun d => huntTimeout d l
  else act s id

/-- The lanes of a bundle that run change rate and climb from CDR. -/
def bundleRate (d : Dev) (p r : Nat) : Dev :=
  d.each (d.bundle p) fun d l => let d := setRate d l r
    if d.stage l = sgOff ∨ d.stage l = sgFailed then d else toCdr d l

/-- R388: after the named marker every lane changes rate. -/
def rateStepNow (d : Dev) (p r : Nat) : Dev :=
  let prev := d.get (.LNK_PSTAT p) 15 14
  let d := bundleRate d p r
  let d := d.modPort p fun x => { x with rateNext := none, rateStep := some (prev, d.now + 20 * milli1), txSet := 0, rxSet := 0, txNext := none,
                                         rxNext := none, negRx := false }
  portStatus d p 3

/-- R388: the port is not up 20 ms after a rate step: it returns to the previous rate, and the failed rate is not offered again. -/
def rateStepFailed (d : Dev) (p : Nat) : Dev :=
  match (d.port p).rateStep with
  | none => d
  | some (prev, _) =>
    let r := d.get (.LNK_PSTAT p) 15 14
    let d := bundleRate (d.modPort p fun x => { x with rateStep := none, failedRates := x.failedRates ||| 2 ^ r }) p prev
    (portStatus d p (idleState d p)).modRas fun x => { unavailBegin x d.raw with portsDown := x.portsDown ||| 2 ^ p }

/-- RATE_STEP_TIMEOUT (R388). -/
def execRateStepTimeout (p : Fin 8) (s : State) : Host.Outcome State Fault Refusal :=
  match (s.dev.port p).rateStep with
  | none => act s id
  | some (_, t) => actAt s (some t) fun d => rateStepFailed d p

/-- R388: the rates a port offers: those that have not failed, within the MAXRATE of the lanes. -/
def offered (d : Dev) (p r : Nat) : Bool :=
  !inSet (d.port p).failedRates r && (d.lanesAt p (d.port p).txSet).all fun l => r ≤ d.get (.LAN_CTL l) 25 24

/-- RATE (R388): a RATE block on port `p` names a rate and the marker after which it applies (DEDUCED, log 125). -/
def rateBlock (d : Dev) (p : Nat) (b : Block) : Dev :=
  let r := bits b 119 116
  if !d.portUp p ∨ 4 ≤ r ∨ r = d.get (.LNK_PSTAT p) 15 14 ∨ !offered d p r then d
  else d.modPort p fun x => { x with rateNext := some (r, bits b 103 80) }

def execRate (p : Fin 8) (b : Block) (s : State) : Host.Outcome State Fault Refusal := act s fun d => rateBlock d p b

/-! ### Sets (R381, R382) -/

/-- R381: the partner announces its active set. -/
def lsetBlock (d : Dev) (p : Nat) (b : Block) : Dev :=
  if !d.portUp p ∨ bits b 119 104 = 0 then d
  else d.modPort p fun x => { x with rxNext := some (bits b 119 104, bits b 103 80) }

/-- LSET (R381). -/
def execLset (p : Fin 8) (b : Block) (s : State) : Host.Outcome State Fault Refusal := act s fun d => lsetBlock d p b

/-- R382: the partner names the lanes it can use; those of them the device transmits on form its new set. -/
def lreqBlock (d : Dev) (p : Nat) (b : Block) : Dev :=
  if !d.portUp p then d
  else announceSet d p (bits b 119 104 &&& d.positions p fun l => d.flag (.LAN_CTL l) 31 && !d.looped l)

/-- LREQ (R382). -/
def execLreq (p : Fin 8) (b : Block) (s : State) : Host.Outcome State Fault Refusal := act s fun d => lreqBlock d p b

/-- IDLE (R375): carries nothing. -/
def execIdle (_l : Fin 28) (s : State) : Host.Outcome State Fault Refusal := act s id

/-! ### Markers (R376, R377, R380, R383) -/

/-- R381, R388: what is due after marker `got` of the partner applies. -/
def marksReached (d : Dev) (p got : Nat) : Dev :=
  let d := match (d.port p).rxNext with
    | some (m, s) => if reached got s then d.modPort p fun x => { x with rxSet := m, rxNext := none } else d
    | none => d
  match (d.port p).rateNext with
  | some (r, s) => if reached got s then rateStepNow d p r else restatus d p
  | none => restatus d p

/-- R380, R382: a lane that is aligned leaves DESKEW: for negotiation, or into a port that is up. -/
def deskewed (d : Dev) (p l : Nat) : Dev := if d.aligned p l then d.setStage l (if d.portUp p then sgUp else sgNeg) else d

/-- R378, R380: the lanes in DESKEW that are aligned leave it, the one with which the most of them are aligned first; the others stay, out of the
active set. A bundle that is not up waits for the lanes that are about to lock (DEDUCED, log 120). -/
def deskew (d : Dev) (p : Nat) : Dev :=
  let waiting := (d.bundle p).filter fun l => d.marked l && d.stage l = sgDeskew
  let fits (l : Nat) : Nat := (waiting.filter (d.within l)).length
  let climbing := (d.bundle p).any fun l => (d.stage l = sgBlock || d.stage l = sgMarker) && !d.looped l
  if climbing && !d.portUp p then d
  else d.each ((waiting.filter fun l => waiting.all fun m => fits m ≤ fits l).take 1 ++ waiting) fun d l =>
    if d.stage l = sgDeskew then deskewed d p l else d

/-- R378: two consecutive markers: marker lock. A lane in a loopback climbs no further; CL and ST lanes are up; an SL lane reaches
DESKEW, and where its port is up the receiver asks for it back (R382). -/
def markerLock (d : Dev) (l : Nat) : Dev :=
  let d := d.raise (.LAN_STAT l) 25
  if d.looped l then d
  else if 16 ≤ l then d.setStage l sgUp
  else
    let d := d.setStage l sgDeskew
    d.onlyIf (d.portUp (d.lanePort l)) fun d => sendLreq d (d.lanePort l)

/-- R383: marker intervals between this marker and the last, or 0 where it is not a whole number of them. -/
def intervals (apart : Nat) : Nat := if apart % markBlocks = 0 then apart / markBlocks else 0

/-- R378: a marker of sequence `seq`, `k` intervals after the last, in the stage the lane is in. -/
def markerSeen (d : Dev) (l seq k : Nat) : Dev :=
  let x := d.lane l
  let good := x.seq.any fun n => k ≥ 1 && seq = (n + k) % 2 ^ 24
  if d.stage l = sgMarker then
    let d := d.modLane l fun y => { y with seq := some seq, seqT := d.now, missed := 0 }
    d.onlyIf (good && k = 1) fun d => markerLock d l
  else
    let m := x.missed + (k - 1) + (if good then 0 else 1)
    if 2 ≤ m then markerLost d l
    else if good then d.modLane l fun y => { y with seq := some seq, seqT := d.now, missed := 0 }
    else d.modLane l fun y => { y with seq := y.seq.map fun n => (n + max 1 k) % 2 ^ 24, missed := m }

/-- R384: one tracking step of an adaptive filter, at most one a millisecond. -/
def trackStep (d : Dev) (l : Nat) (track : Fin 3) : Dev :=
  if d.stage l ≠ sgUp ∨ d.flag (.LAN_EQ l) 31 ∨ track = 0 ∨ d.now < (d.lane l).trackT + milli1 then d
  else
    let a := d.get (.LAN_EQ l) 20 16
    (d.set (.LAN_EQ l) 20 16 (if track = 1 then min 31 (a + 1) else a - 1)).modLane l fun x => { x with trackT := d.now }

/-- R376, R377, R383: an alignment marker. `bip` is the receiver's own parity over the interval, `hdr` the invalid headers in it. -/
def marker (d : Dev) (l : Nat) (b : Block) (apart : Nat) (bip : BitVec 16) (hdr : Nat) (track : Fin 3) : Dev :=
  let d := sendMarks d l
  if d.stage l < sgMarker ∨ d.stage l = sgFailed then d
  else
    let errs := card 16 (bip.toNat ^^^ bits b 79 64)
    let d := countHdr (d.set (.LAN_ERR l) 31 16 (sat 16 (d.get (.LAN_ERR l) 31 16 + errs))) l hdr
    let d := (d.set (.LAN_STAT l) 15 8 (bits b 95 88)).set (.LAN_STAT l) 7 0 (bits b 87 80)
    let d := markerSeen d l (bits b 119 96) (intervals apart)
    let d := d.onlyIf (l < 16 && d.marked l) fun d => marksReached (deskew d (d.lanePort l)) (d.lanePort l) (bits b 119 96)
    let d := trackStep d l track
    d.onlyIf (d.stage l = sgUp && d.get (.LAN_ERRCFG l) 7 0 < errs) fun d => degrade d l

/-- ALIGNMENT_MARKER (R377): marker `b` on lane `l`, `apart` blocks after the last. The parity, the invalid headers and the filter's tracking
are operands (DESIGN CHOICE, log 4, DESIGN CHOICE, log 41). -/
def execAlignmentMarker (l : Fin 28) (b : Block) (apart : Nat) (bip hdr : BitVec 16) (track : Fin 3) (s : State) :
    Host.Outcome State Fault Refusal :=
  act s fun d => marker d l b apart bip hdr.toNat track

/-! ### LAN_CTL, LAN_EQ and LNK_PMAP (R378 to R386, R407) -/

/-- R388: rates are offered again once a lane has gone through OFF. -/
def forgetRates (d : Dev) (l : Nat) : Dev :=
  d.onlyIf (l < 16) fun d => d.modPort (d.lanePort l) fun x => { x with failedRates := 0 }

/-- A lane goes to OFF. -/
def laneOff (d : Dev) (l : Nat) : Dev := forgetRates (noLocks (d.setStage l sgOff) l) l

/-- R378, R379, R386: a write of LAN_CTL; ML0 has no far-end loopback, and keeps its own. A change of EN, RATE, LPBK or polarity takes the lane out of service; RETRAIN restarts it (DEDUCED, log 122). -/
def lanCtlWrite (l : Nat) (d : Dev) (w : Word) : Dev :=
  let d := d.onlyIf (l < 28) fun d => sendMarks d l
  let old := d.rd (.LAN_CTL l)
  let d := d.store (.LAN_CTL l) (if l = 28 ∧ bits w 30 28 = 3 then setBits w 30 28 (bits old 30 28) else w)
  let new := d.rd (.LAN_CTL l)
  let d := d.onlyIf (bits old 27 26 ≠ bits new 27 26) fun d => d.setMarks l { d.marks l with time := d.now }
  if l = 28 then d
  else if !bit new 31 then (if bit old 31 then laneOut (laneOff d l) l true else d)
  else if !bit old 31 then laneOut (toCdr d l) l true
  else if bit w 21 then
    let d := d.onlyIf (d.stage l = sgFailed) fun d => d.modLane l fun x => { x with retrainT := [] }
    laneOut (beginRetrain d l fun d => toCdr d l) l true
  else if bits old 27 26 ≠ bits new 27 26 ∨ bits old 30 28 ≠ bits new 30 28 ∨ bits old 23 22 ≠ bits new 23 22 then
    if d.stage l = sgFailed then d else laneOut (toCdr d l) l true
  else d

/-- LANE_ENABLE (R378): port `p` writes LAN_CTL of lane `l`. -/
def execLaneEnable (p : Fin 8) (l : Fin 29) (w : Word) (s : State) : Host.Outcome State Fault Refusal :=
  act s fun d => regCommand d p (.LAN_CTL l) w (lanCtlWrite l)

/-- LANE_RETRAIN (R378): port `p` writes LAN_CTL with RETRAIN. -/
def execLaneRetrain (p : Fin 8) (l : Fin 29) (w : Word) (s : State) : Host.Outcome State Fault Refusal :=
  act s fun d => regCommand d p (.LAN_CTL l) (setBit w 21 true) (lanCtlWrite l)

/-- LANE_RATE_WRITE (R379): port `p` writes LAN_CTL with `rate` in RATE, and the rest of it as it stands. -/
def execLaneRateWrite (p : Fin 8) (l : Fin 29) (rate : Fin 4) (s : State) : Host.Outcome State Fault Refusal :=
  act s fun d => regCommand d p (.LAN_CTL l) (setBits (d.rd (.LAN_CTL l)) 27 26 rate) (lanCtlWrite l)

/-- LOOPBACK_SET (R386): port `p` writes LAN_CTL with `mode` in LPBK, and the rest of it as it stands. -/
def execLoopbackSet (p : Fin 8) (l : Fin 29) (mode : Fin 8) (s : State) : Host.Outcome State Fault Refusal :=
  act s fun d => regCommand d p (.LAN_CTL l) (setBits (d.rd (.LAN_CTL l)) 30 28 mode) (lanCtlWrite l)

/-- R384: a write of LAN_EQ; in fixed mode the step in use is PEAK. -/
def lanEqWrite (l : Nat) (d : Dev) (w : Word) : Dev :=
  let d := d.store (.LAN_EQ l) w
  d.onlyIf (d.flag (.LAN_EQ l) 31 && d.flag (.LAN_STAT l) 27) fun d => d.set (.LAN_EQ l) 20 16 (d.get (.LAN_EQ l) 4 0)

/-- R408: the ports that lose or gain lanes leave their bundles and retrain. -/
def pmapWrite (i : Nat) (d : Dev) (w : Word) : Dev :=
  let old := d
  let d := d.store (.LNK_PMAP i) w
  let moved := (List.range 16).filter fun l => old.lanePort l ≠ d.lanePort l
  let ports := (List.range 8).filter fun p => moved.any fun l => old.lanePort l = p || d.lanePort l = p
  let d := d.each ports fun d p => portDown d p true
  let d := d.each ((List.range 16).filter fun l => ports.contains (d.lanePort l)) fun d l =>
    if sgBlock ≤ d.stage l ∧ d.stage l ≤ sgUp then beginRetrain d l fun d => toCdr d l else d
  d.each ports fun d p => portStatus d p (idleState d p)

/-- PORT_MAP_WRITE (R380): port `p` writes LNK_PMAP `i`. -/
def execPortMapWrite (p : Fin 8) (i : Fin 2) (w : Word) (s : State) : Host.Outcome State Fault Refusal :=
  act s fun d => regCommand d p (.LNK_PMAP i) w (pmapWrite i)

end Sys2Proof.Machine
end

