-- ==== Sys2Proof/Machine/Link.lean ====
section
/-! DEFINITION. The Poine Link: negotiation and sessions, acknowledgement and replay, credits and flow control, interrupts
(11_lanes_and_host_link.md R387 to R397, R402, R406). -/
namespace Sys2Proof.Machine

/-! ### Room and withholding (R397, R402) -/

/-- R402: credits are withheld for room. -/
def Dev.roomHold (d : Dev) (p : Nat) : Bool := d.outRoom p < 4096
/-- R397: credits are withheld for a held submission. -/
def Dev.heldSub (d : Dev) (p : Nat) : Bool := (d.schPort p).held.isSome

/-- Request packets: REG_RD, REG_WR, MEM_RD, MEM_WR and QRD (Table 11.11). -/
def isRequest (k : Packet) : Bool := [1, 2, 3, 4, 7].contains k.type.toNat
/-- R397: packets whose credits go on being returned while only room is short. -/
def isRead (k : Packet) : Bool := [1, 3, 7].contains k.type.toNat
def isPosted (k : Packet) : Bool := k.type.toNat = 6

/-- Table 11.11: header credits, and 128-bit blocks of data credits, of the Request class. -/
def reqHeaders : Nat := 256
def reqBlocks : Nat := 16384

/-- R395, R397: the credits of a packet that leaves the inbound buffer are returned, or withheld. -/
def returnCredit (held room : Bool) (k : Packet) (x : Port) : Port :=
  if isRequest k then
    if held || (room && !isRead k) then { x with whReqH := x.whReqH + 1, whReqD := x.whReqD + k.blocks.length }
    else { x with retReqH := x.retReqH + 1, retReqD := x.retReqD + k.blocks.length }
  else if isPosted k then
    if held || room then { x with whPost := x.whPost + 1 } else { x with retPost := x.retPost + 1 }
  else x

/-- R397: when nothing withholds, every withheld credit is returned; while only room is short, a port without an unused Request header
credit gets one of those withheld. -/
def releaseCredit (held room : Bool) (x : Port) : Port :=
  if held then x
  else if room then
    if 0 < x.whReqH ∧ reqHeaders + x.retReqH ≤ x.usedReqH then { x with whReqH := x.whReqH - 1, retReqH := x.retReqH + 1 } else x
  else
    { x with retReqH := x.retReqH + x.whReqH, retReqD := x.retReqD + x.whReqD, retPost := x.retPost + x.whPost, whReqH := 0, whReqD := 0, whPost := 0 }

/-! ### Back-pressure on v1 (R396) -/

/-- R396: blocks kept free for what is on its way: 128 per active lane. -/
def Dev.slack (d : Dev) (p : Nat) : Nat := 128 * d.get (.LNK_PSTAT p) 20 16

/-- Blocks, headers included, of the packets of a class that wait in the inbound buffer. -/
def inboundBlocks (cls : Packet → Bool) (x : Port) : Nat := ((x.inbound.filter cls).map fun k => 1 + k.blocks.length).sum

/-- R396, Table 11.11: the blocks of each class that the inbound buffer of a v1 port takes: 0 Request, 1 Posted, whose 64 headers are less than the
slack (DESIGN CHOICE, log 213). -/
def Dev.classRoom (d : Dev) (p c : Nat) : Nat := if c = 0 then reqHeaders + reqBlocks else 64 + d.slack p

/-- R396, R397: whether a class is stopped: 0 Request, 1 Posted. -/
def stopClass (d : Dev) (p c : Nat) : Bool :=
  let x := d.port p
  d.heldSub p || decide (d.classRoom p c ≤ inboundBlocks (if c = 0 then isRequest else isPosted) x + d.slack p) ||
    (d.roomHold p && (c ≠ 0 || x.inbound.any isRequest))

/-- TYPE codes of Table 11.10. -/
def ptRegRd : Nat := 1
def ptRegWr : Nat := 2
def ptMemRd : Nat := 3
def ptMemWr : Nat := 4
def ptStrm : Nat := 5
def ptDbell : Nat := 6
def ptQrd : Nat := 7

/-- The bytes of stream data for a site that wait in a port's inbound buffer. -/
def waitingStream (d : Dev) (p s : Nat) : Nat :=
  (((d.port p).inbound.filter fun k => k.type.toNat = ptStrm && bits k.addr 3 0 = s).map fun k => 16 * k.blocks.length).sum

/-- R230, R396: the sites of a port whose ring has room for too little more stream data, measured against F + size. -/
def stopSites (d : Dev) (p : Nat) : Nat :=
  setOf ((List.range 16).filter fun s => d.siteOwner s = p && d.ringOn s &&
    decide ((d.ring s).f + d.ringSize s ≤ (d.ring s).w + waitingStream d p s + 16 * d.slack p))

/-- An XOFF (type 0x14) or XON (0x15) block of a class or of stream sites. -/
def flowBlock (off : Bool) (cls sites : Nat) : Block := ctlBlock (if off then 0x14 else 0x15) (cls * 2 ^ 116 + sites * 2 ^ 100)

/-- R396: a v1 port is told of each class or site whose state has changed. -/
def flowUpdate (d : Dev) (p : Nat) : Dev :=
  if !d.portUp p ∨ d.version p ≠ 1 then d
  else
    let d := d.each [0, 1] fun d c =>
      let off := stopClass d p c
      if off = inSet (d.port p).xoffTx c then d
      else (sendCtl d p (flowBlock off c 0)).modPort p fun x => { x with xoffTx := if off then x.xoffTx ||| 2 ^ c else x.xoffTx - 2 ^ c }
    let m := stopSites d p
    let old := (d.port p).xoffSites
    let d := d.onlyIf (m ≠ old && (m ||| old) ≠ old) fun d => sendCtl d p (flowBlock true 2 ((m ||| old) - old))
    let d := d.onlyIf ((m ||| old) ≠ m) fun d => sendCtl d p (flowBlock false 2 ((m ||| old) - m))
    d.modPort p fun x => { x with xoffSites := m }

/-- R397: credits and flow control are brought up to date with what withholds them (DEDUCED, log 183). -/
def settle (d : Dev) (p : Nat) : Dev :=
  let held := d.heldSub p
  let room := d.roomHold p
  flowUpdate (d.modPort p (releaseCredit held room)) p

/-! ### Negotiation and sessions (R387 to R389) -/

/-- R389: the packets in the replay buffer are dropped and counted, numbers return to 0, and every credit to its first value. Packets
already accepted stay, and return no credit in the new session (DEDUCED, log 129). -/
def freshSession (now cplH cplD post : Nat) (x : Port) : Port :=
  { x with sessDrop := (x.sessDrop + x.replay.length) % 2 ^ 64, replay := [], txSeq := 0, rxSeq := 0, nakOut := false, sinceAck := 0, ackT := now,
           ackSentT := now, creditT := now, inboundOld := x.inbound.length, retReqH := 0, retReqD := 0, retPost := 0, usedReqH := 0, whReqH := 0, whReqD := 0,
           whPost := 0, cplH := cplH, cplD := cplD, post := post, totCplH := 0, totCplD := 0, totPost := 0, xoffRx := 0, xoffTx := 0, xoffSites := 0, strmBack := {} }

/-- R231: the stream totals of a port's sites restart. -/
def freshStreams (d : Dev) (p : Nat) : Dev :=
  d.each ((List.range 16).filter fun s => d.siteOwner s = p) fun d s => d.modRing s fun r => { r with received := 0 }

/-- R393: the number of packets of the replay buffer that an acknowledgement naming `n` releases; none where `n` names no packet. -/
def ackedBy (x : Port) (n : Nat) : Option Nat :=
  if n = x.txSeq then some x.replay.length else (x.replay.findIdx? fun r => r.1 = n)

/-- R393: acknowledged packets leave the replay buffer. -/
def acked (now n : Nat) (x : Port) : Port :=
  match ackedBy x n with
  | some (k + 1) => { x with replay := x.replay.drop (k + 1), ackT := now }
  | _ => x

/-- R393: the packets from number `n` on are sent again. -/
def resendFrom (n : Nat) (x : Port) : Port :=
  match ackedBy x n with
  | some k => { x with replays := (x.replays + (x.replay.length - k)) % 2 ^ 64 }
  | none => x

/-- R393: the same on a port: their blocks go out again. -/
def resent (d : Dev) (p n : Nat) : Dev :=
  let l := match ackedBy (d.port p) n with
    | some k => (d.port p).replay.drop k
    | none => []
  dealPackets (d.modPort p (resendFrom n)) p l

/-- Table 11.7: a NEG block of form 1 reads bits [105:0] as 0 (DEDUCED, log 127). -/
def negBits (b : Block) : Block := if bits b 119 112 = 1 then setBits b 105 0 0 else b

/-- R387: the highest version that both ends hold, 0 for none. -/
def commonVersion (b : Block) : Nat := if bit b 111 then 3 else if bit b 110 then 2 else if bit b 109 then 1 else 0

/-- R388: the highest rate that both ends offer. -/
def commonRate (d : Dev) (p : Nat) (b : Block) : Option Nat :=
  if bit b 107 then [3, 2, 1, 0].find? fun r => inSet (bits b 104 101) r && offered d p r else none

/-- R388: a RATE block where a higher rate is common. -/
def offerRate (d : Dev) (p : Nat) (b : Block) : Dev :=
  match commonRate d p b with
  | some r => if d.get (.LNK_PSTAT p) 15 14 < r then let d := portMarks d p; sendCtl d p (ctlBlock 0x19 (r * 2 ^ 116 + d.nextMark p * 2 ^ 80)) else d
  | none => d

/-- R387, R389: the port comes up at a version: its session continues, or a fresh one begins. -/
def portComesUp (d : Dev) (p v : Nat) (b : Block) : Dev :=
  let d := d.each ((d.bundle p).filter fun l => d.stage l = sgNeg) fun d l => d.setStage l sgUp
  let m := d.positions p fun l => d.stage l = sgUp
  let goesOn := bit b 105 && (d.port p).peerSession = some (bits b 95 80)
  let d := d.modPort p fun x => { x with txSet := m, rxSet := m, rateStep := none, peerSession := some (bits b 95 80) }
  let d := if goesOn then (resent (d.modPort p (acked d.now (bits b 79 68))) p (bits b 79 68)).modPort p fun x =>
      { x with ackT := d.now, ackSentT := d.now, creditT := d.now }
    else (freshStreams (d.modPort p (freshSession d.now (bits b 63 48) (bits b 47 24) (bits b 23 16))) p).raise (.LNK_PSTAT p) 24
  let d := portStatus (d.set (.LNK_PSTAT p) 28 27 v) p 2
  let d := d.modRas fun x => unavailEnd { x with portsDown := x.portsDown - 2 ^ p * (inSet x.portsDown p).toNat } d.raw
  settle (pump (offerRate d p b) p) p

/-- R387: a NEG block on a bundle that has deskewed (DEDUCED, log 128). -/
def negReceived (d : Dev) (p : Nat) (b : Block) : Dev :=
  let f := bits b 119 112
  let b := negBits b
  if d.portUp p ∨ (f ≠ 1 ∧ f ≠ 2) ∨ !((d.bundle p).any fun l => d.stage l = sgNeg) then d
  else
    let d := d.modPort p fun x => { x with negRx := true }
    let v := commonVersion b
    if v = 0 then d.raise (.LNK_PSTAT p) 23
    else if bit b 106 then portComesUp d p v b
    else d

/-- NEG (R387): block `b` received on the bundle of port `p`. -/
def execNeg (p : Fin 8) (b : Block) (s : State) : Host.Outcome State Fault Refusal := act s fun d => negReceived d p b

/-- Table 11.7: the device's NEG: every version, RATE_CAP, the rates that have not failed, and its session. -/
def negBlock (d : Dev) (p : Nat) : Block :=
  let x := d.port p
  ctlBlock 0x16 (2 * 2 ^ 112 + 7 * 2 ^ 109 + 2 ^ 107 + x.negRx.toNat * 2 ^ 106 + x.peerSession.isSome.toNat * 2 ^ 105 +
    (15 - x.failedRates % 16) * 2 ^ 101 + x.session % 65536 * 2 ^ 80 + x.rxSeq % 4096 * 2 ^ 68)

/-- The lanes of a port that have deskewed. -/
def Dev.negLanes (d : Dev) (p : Nat) : List Nat := (d.bundle p).filter fun l => d.stage l = sgNeg || d.stage l = sgUp

/-- R387: a NEG on every active lane. -/
def sendNeg (d : Dev) (p : Nat) : Dev :=
  (sendCopies d p (d.negLanes p).length (negBlock d p)).modPort p fun x => { x with negT := d.now }

/-- The time 256 blocks after `t` on a port's lanes; none where no lane has deskewed. -/
def Dev.after256 (d : Dev) (p t : Nat) : Option Nat := (d.negLanes p).head?.map fun l => t + 256 * d.blockTime l

/-- NEG_SEND (R387): every 256 blocks once the bundle has deskewed. -/
def execNegSend (p : Fin 8) (s : State) : Host.Outcome State Fault Refusal :=
  match s.dev.after256 p (s.dev.port p).negT with
  | none => act s id
  | some t => actAt s (some t) fun d => sendNeg d p

/-- A fresh session begun by the device (R453, 15_dependability.md R477): the port goes down, and comes up under a new number. -/
def dropSession (d : Dev) (p : Nat) : Dev :=
  let d := d.modPort p fun x => { x with session := (x.session + 1) % 65536, peerSession := none }
  if d.portUp p then
    let d := portDown d p false
    d.each ((d.bundle p).filter fun l => d.stage l = sgUp) fun d l => d.setStage l sgNeg
  else d

/-! ### Acknowledgement and replay (R393) -/

/-- ACK (R393): on port `p`. -/
def execAck (p : Fin 8) (b : Block) (s : State) : Host.Outcome State Fault Refusal :=
  act s fun d => if d.portUp p then pump (d.modPort p (acked d.now (bits b 119 108))) p else d

/-- NAK (R393): the packets from the named number are sent again. -/
def execNak (p : Fin 8) (b : Block) (s : State) : Host.Outcome State Fault Refusal :=
  act s fun d => d.onlyIf (d.portUp p) fun d => resent d p (bits b 119 108)

/-- An ACK (type 0x11) or a NAK (0x12) that names the number the device expects. -/
def ackBlock (type seq : Nat) : Block := ctlBlock type (seq % 4096 * 2 ^ 108)

/-- R393: an ACK. -/
def sendAck (d : Dev) (p : Nat) : Dev :=
  (sendCtl d p (ackBlock 0x11 (d.port p).rxSeq)).modPort p fun x => { x with sinceAck := 0, ackSentT := d.now }

/-- ACK_TIMER (R393): a microsecond after the last ACK (DEDUCED, log 203). -/
def execAckTimer (p : Fin 8) (s : State) : Host.Outcome State Fault Refusal :=
  if s.dev.portUp p then actAt s (some ((s.dev.port p).ackSentT + micro1)) fun d => sendAck d p else act s id

/-- R393: from the first bad CRC or gap on, a NAK once, and packets are discarded until the expected one arrives. -/
def sendNak (d : Dev) (p : Nat) : Dev :=
  if (d.port p).nakOut then d
  else (sendCtl d p (ackBlock 0x12 (d.port p).rxSeq)).modPort p fun x => { x with nakOut := true, naks := (x.naks + 1) % 2 ^ 64 }

/-- R393: a packet with a bad CRC or behind a gap; the RAS block learns of it (15_dependability.md Table 15.1) (DEDUCED, log 132). -/
def badPacket (d : Dev) (p : Nat) : Dev :=
  if !d.portUp p ∨ (d.port p).nakOut then d
  else
    let l := (d.lanesAt p (d.port p).rxSet).headD 0
    sendNak (rasReport d 0x0B sevCorrected (12 + l) l 0 none (some p)) p

/-- BAD_CRC (R393). -/
def execBadCrc (p : Fin 8) (s : State) : Host.Outcome State Fault Refusal := act s fun d => badPacket d p

/-- R393: 50 µs without an acknowledgement that advances: everything unacknowledged is sent again. -/
def replayAll (now : Nat) (x : Port) : Port := { x with replays := (x.replays + x.replay.length) % 2 ^ 64, ackT := now }

/-- REPLAY_TIMEOUT (R393). -/
def execReplayTimeout (p : Fin 8) (s : State) : Host.Outcome State Fault Refusal :=
  if s.dev.portUp p ∧ (s.dev.port p).replay ≠ [] then
    actAt s (some ((s.dev.port p).ackT + 50 * micro1)) fun d => dealPackets (d.modPort p (replayAll d.now)) p (d.port p).replay
  else act s id

/-! ### Credits and flow control (R394 to R396) -/

/-- R394: a receiver of CREDIT takes the difference from its last total (DEDUCED, log 130). -/
def creditTaken (b : Block) (x : Port) : Port :=
  let h := bits b 111 96
  let n := bits b 95 64
  if bits b 119 116 = 3 then
    { x with cplH := x.cplH + (h + 2 ^ 16 - x.totCplH) % 2 ^ 16, cplD := x.cplD + (n + 2 ^ 32 - x.totCplD) % 2 ^ 32, totCplH := h, totCplD := n }
  else if bits b 119 116 = 4 then { x with post := x.post + (h + 2 ^ 16 - x.totPost) % 2 ^ 16, totPost := h }
  else x

/-- CREDIT (R394): the host grants credits of the completion or the interrupt class. -/
def execCredit (p : Fin 8) (b : Block) (s : State) : Host.Outcome State Fault Refusal :=
  act s fun d => if d.portUp p ∧ d.version p ≠ 1 then pump (d.modPort p (creditTaken b)) p else d

/-- XOFF (R396): the host stops a class. -/
def execXoff (p : Fin 8) (b : Block) (s : State) : Host.Outcome State Fault Refusal :=
  act s fun d => d.onlyIf (d.portUp p && d.version p = 1) fun d => d.modPort p fun x => { x with xoffRx := x.xoffRx ||| 2 ^ bits b 119 116 }

/-- XON (R396): the host resumes a class. -/
def execXon (p : Fin 8) (b : Block) (s : State) : Host.Outcome State Fault Refusal :=
  act s fun d =>
    if d.portUp p ∧ d.version p = 1 then
      pump (d.modPort p fun x => { x with xoffRx := x.xoffRx - 2 ^ bits b 119 116 * (inSet x.xoffRx (bits b 119 116)).toNat }) p
    else d

/-- Table 11.4: a CREDIT block of the device. -/
def creditBlock (cls site h n : Nat) : Block := ctlBlock 0x13 (cls * 2 ^ 116 + site * 2 ^ 112 + h % 2 ^ 16 * 2 ^ 96 + n % 2 ^ 32 * 2 ^ 64)

/-- R231: the stream credit total of a site, in lines. -/
def Dev.streamTotal (d : Dev) (s : Nat) : Nat := (d.ring s).received + (d.ringGrant s - (d.ring s).w) / 64

/-- R231, R392, R395: the stream credit total that a port is sent for a site: that of the site where the port owns it, and the lines it has lost on
a site that it does not. -/
def Dev.streamCredit (d : Dev) (p s : Nat) : Nat := (if d.siteOwner s = p then d.streamTotal s else 0) + (d.port p).strmBack.get 0 s

/-- R394, R396: the totals of each class on v2 and v3; the state of each class and of the stream sites on v1. -/
def creditRepeat (d : Dev) (p : Nat) : Dev :=
  let d := d.modPort p fun x => { x with creditT := d.now }
  let x := d.port p
  if d.version p = 1 then
    let d := d.each [0, 1] fun d c => sendCtl d p (flowBlock (inSet x.xoffTx c) c 0)
    sendCtl (sendCtl d p (flowBlock true 2 x.xoffSites)) p (flowBlock false 2 (65535 - x.xoffSites % 65536))
  else
    let d := sendCtl (sendCtl d p (creditBlock 0 0 x.retReqH x.retReqD)) p (creditBlock 1 0 x.retPost 0)
    d.each ((List.range 16).filter fun s => d.siteOwner s = p || (d.port p).strmBack.get 0 s ≠ 0) fun d s =>
      sendCtl d p (creditBlock 2 s 0 (d.streamCredit p s))

/-- CREDIT_REPEAT (R394, R396): 256 blocks after the last one (DEDUCED, log 203). -/
def execCreditRepeat (p : Fin 8) (s : State) : Host.Outcome State Fault Refusal :=
  if s.dev.portUp p then actAt s (s.dev.after256 p (s.dev.port p).creditT) fun d => creditRepeat d p else act s id

/-! ### Interrupts (R406) -/

/-- R406: an MSI packet. -/
def sendMsi (d : Dev) (p : Nat) : Dev :=
  let a := (d.rd (.LNK_MSIADDRHI p)).toNat * 2 ^ 32 + (d.rd (.LNK_MSIADDRLO p)).toNat / 4 * 4
  let k : Packet := { type := BitVec.ofNat 6 ptMsi, data := d.rd (.LNK_MSIDATA p), addr := BitVec.ofNat 64 a }
  sendPacket (d.modPort p fun x => { x with msiDue := false, msiT := some d.now }) p k

/-- R406: a due MSI is sent unless the holdoff runs; one that fell due within the holdoff, only if the OR is still 1. -/
def msiSent (d : Dev) (p : Nat) : Dev :=
  if !(d.port p).msiDue || (d.holdoffEnd p).any fun t => d.now < t then d
  else if (d.port p).msiLate && !irqOr d p then d.modPort p fun x => { x with msiDue := false }
  else sendMsi d p

/-- MSI (R406). -/
def execMsi (p : Fin 8) (s : State) : Host.Outcome State Fault Refusal := act s fun d => msiSent d p

/-- MSI_HOLDOFF_END (R406): a due MSI is sent if the OR is still 1. -/
def execMsiHoldoffEnd (p : Fin 8) (s : State) : Host.Outcome State Fault Refusal :=
  if (s.dev.port p).msiDue then
    actAt s (s.dev.holdoffEnd p) fun d => msiSent d p
  else act s id

/-- R406: a write of LNK_IRQSTAT that leaves the OR at 1 makes another MSI due. -/
def irqstatWrite (p : Nat) (d : Dev) (w : Word) : Dev :=
  let d := irqUpdate (d.store (.LNK_IRQSTAT p) w) p
  d.onlyIf (irqOr d p) fun d => msiRaise d p

/-- IRQSTAT_WRITE (R406): port `p` writes its own LNK_IRQSTAT. -/
def execIrqstatWrite (p : Fin 8) (w : Word) (s : State) : Host.Outcome State Fault Refusal :=
  act s fun d => regCommand d p (.LNK_IRQSTAT p) w (irqstatWrite p)

/-- A write of LNK_IRQEN or LNK_IRQMOD may raise the OR. -/
def irqWrite (p : Nat) (r : Reg) (d : Dev) (w : Word) : Dev := irqUpdate (d.store r w) p

end Sys2Proof.Machine
end

