-- ==== Sys2Proof/Machine/Queue.lean ====
section
/-! DEFINITION. A port's event and command queues, and the service commands (11_lanes_and_host_link.md R398 to R404, R410). -/
namespace Sys2Proof.Machine

/-- Stages of a chain (R398). -/
def chainLen : Nat := 32

/-! ### The event queue (R398 to R402, R404) -/

/-- R399: the kind of a packet, in its first word. -/
def kindOf (w : Word64) : Nat := bits w 47 40
def kCompletion : Nat := 2

/-- The kind of the packet a word belongs to, and what is in progress after it. -/
def kindNow (cur : Option Nat) (w : QWord) : Nat := cur.getD (kindOf w.data)
def kindAfter (cur : Option Nat) (w : QWord) : Option Nat := if w.mark then none else some (kindNow cur w)

/-- R399, R404: a word leaves the area: into the chain where a stage is free, or discarded while a flushed packet is, and in the cycle of a
flush; `raw` is the present cycle. -/
def eventWordEnter (raw : Nat) (x : Port) : Port :=
  match x.area with
  | [] => x
  | w :: ws =>
    if x.evDiscard then { x with area := ws, evDisc := (x.evDisc + 1) % 2 ^ 64, evDiscard := !w.mark }
    else if x.evFlushAt = some raw then
      { x with area := ws, evDisc := (x.evDisc + 1) % 2 ^ 64, evDiscard := !w.mark
               evDiscCpl := (x.evDiscCpl + (decide (kindOf w.data = kCompletion)).toNat) % 2 ^ 64 }
    else if x.chain.length < chainLen then { x with area := ws, chain := x.chain ++ [w], evIn := kindAfter x.evIn w }
    else x

/-- R400: the owner's read takes the head word into the held word. -/
def takeWord (x : Port) : Port :=
  match x.chain with
  | [] => x
  | w :: ws => { x with chain := ws, held := w, evOut := kindAfter x.evOut w }

/-- R400: a read of LNK_EVQLO by the owner: bits [31:0] of the word taken, or of the held word again where the chain is empty. -/
def readEvq (d : Dev) (p : Nat) : Word × Dev :=
  let d := if (d.port p).chain = [] then irqRaise (d.raise (.LNK_QSTAT p) 31) p 3
    else irqUpdate (d.modPort p takeWord) p
  ((d.port p).held.data.setWidth 32, d)

/-- R404: completion packets of which a flush discards a word: those with a word in the chain, each counted once. -/
def flushedCompletions (cur : Option Nat) : List QWord → Nat
  | [] => 0
  | w :: ws =>
    let n := if w.mark ∨ ws = [] then (if kindNow cur w = kCompletion then 1 else 0) else 0
    n + flushedCompletions (kindAfter cur w) ws

/-- R404: the event chain is flushed; a packet that has only partly entered it goes on being discarded, and so is what enters in the same cycle (DEDUCED, log 137). -/
def evFlush (raw : Nat) (x : Port) : Port :=
  let n := flushedCompletions x.evOut x.chain
  let n := if x.chain = [] ∧ x.evIn = some kCompletion then n + 1 else n
  { x with chain := [], evDisc := (x.evDisc + x.chain.length) % 2 ^ 64, evDiscCpl := (x.evDiscCpl + n) % 2 ^ 64, evDiscard := x.evDiscard || x.evIn.isSome,
           evIn := none, evOut := none, evFlushAt := some raw }

/-! ### The command queue (R403, R404) -/

/-- Service kinds of Table 11.18. -/
def svEcho : Nat := 1
def svFwinfo : Nat := 2
def svPtpinfo : Nat := 3
def svRasread : Nat := 4
def svLogread : Nat := 5

/-- STATUS codes of Table 11.17. -/
def svOk : Nat := 0
def svUnknown : Nat := 1
def svBadArg : Nat := 2
def svBusy : Nat := 3

/-- Table 11.17: a service response to the packet that begins with `w`. -/
def svcWords (w : Word64) (status : Nat) (res : List Word64) : List Word64 :=
  pack 64 [(56, 8, status), (48, 8, res.length), (40, 8, 4), (32, 8, bits w 47 40), (0, 16, bits w 15 0)] :: res

/-- R402, R410: a response is posted where the area has room for it and none waits before it, and waits otherwise. -/
def svcRespond (d : Dev) (p : Nat) (ws : List Word64) : Dev :=
  if (d.port p).svcWait = [] ∧ 8 * ws.length ≤ d.outRoom p then outPost d p ws
  else d.modPort p fun x => { x with svcWait := x.svcWait ++ [ws] }

/-- R403: the service cores take one word: a marked word completes a packet, which waits to be acted on, or is answered UNKNOWN at
once; a packet of more than 32 words is discarded through its end mark (DEDUCED, log 135) (DEDUCED, log 136). -/
def takeCmdWord (d : Dev) (p : Nat) (w : QWord) : Dev :=
  let x := d.port p
  if x.cmdLong then d.modPort p fun x => { x with cmdLong := !w.mark }
  else
    let ws := x.cmdTaken ++ [w.data]
    if 32 < ws.length then d.modPort p fun x => { x with cmdTaken := [], cmdLong := !w.mark, cmdBad := (x.cmdBad + 1) % 2 ^ 64 }
    else if !w.mark then d.modPort p fun x => { x with cmdTaken := ws }
    else
      let h := ws.headD 0
      let d := d.modPort p fun x => { x with cmdTaken := [] }
      if kindOf h < svEcho ∨ svLogread < kindOf h then svcRespond d p (svcWords h svUnknown [])
      else d.modPort p fun x => { x with cmdPkts := x.cmdPkts ++ [ws] }

/-- R403: the service cores take words as they arrive, until a packet waits to be acted on (DESIGN CHOICE, log 44). -/
def takeCmds (d : Dev) (p : Nat) : List QWord → Dev
  | [] => d.modPort p fun x => { x with cmd := [] }
  | w :: ws =>
    if (d.port p).cmdPkts ≠ [] then d.modPort p fun x => { x with cmd := w :: ws } else takeCmds (takeCmdWord d p w) p ws

/-- R403, R406: words are taken from the command chain; one that was full has space again. -/
def serveQueue (d : Dev) (p : Nat) : Dev :=
  let full := (d.port p).cmd.length = chainLen
  let d := takeCmds d p (d.port p).cmd
  d.onlyIf (full && (d.port p).cmd.length < chainLen) fun d => irqRaise d p 1

def Dev.cmdFull (d : Dev) (p : Nat) : Bool := chainLen ≤ (d.port p).cmd.length && !(d.port p).cmdSkip

/-- R403, R404: a word is pushed with or without the end mark; into a full chain the push waits and sets CMDWAIT (DEDUCED, log 134). -/
def pushCmd (p : Nat) (mark : Bool) (d : Dev) (w : Word) : Dev :=
  let q : QWord := ⟨w ++ d.rd (.LNK_CMDQLO p), mark⟩
  if d.cmdFull p then writeHeld (d.raise (.LNK_QSTAT p) 29) p (if mark then .LNK_CMDQHIE p else .LNK_CMDQHI p) w
  else
    let d := d.store (if mark then .LNK_CMDQHIE p else .LNK_CMDQHI p) w
    if (d.port p).cmdSkip ∨ (d.port p).cmdFlushAt = some d.raw then d.modPort p fun x => { x with cmdSkip := !mark, cmdDisc := (x.cmdDisc + 1) % 2 ^ 64 }
    else serveQueue (d.modPort p fun x => { x with cmd := x.cmd ++ [q] }) p

/-- COMMAND_PUSH (R403): port `p` writes LNK_CMDQHI. -/
def execCommandPush (p : Fin 8) (w : Word) (s : State) : Host.Outcome State Fault Refusal :=
  act s fun d => regCommand d p (.LNK_CMDQHI p) w (pushCmd p false)

/-- COMMAND_PUSH_END (R403): port `p` writes LNK_CMDQHIE. -/
def execCommandPushEnd (p : Fin 8) (w : Word) (s : State) : Host.Outcome State Fault Refusal :=
  act s fun d => regCommand d p (.LNK_CMDQHIE p) w (pushCmd p true)

/-- R404: the command queue is flushed: what has not been taken, and the words already pushed of a packet in progress. -/
def cmdFlush (raw : Nat) (x : Port) : Port :=
  let inProgress := match x.cmd.getLast? with
    | some w => !w.mark
    | none => x.cmdTaken ≠ [] || x.cmdLong
  { x with cmd := [], cmdTaken := [], cmdLong := false, cmdSkip := x.cmdSkip || inProgress,
           cmdDisc := (x.cmdDisc + x.cmd.length + x.cmdTaken.length) % 2 ^ 64, cmdFlushAt := some raw }

/-- R404, R408: a write of LNK_QCTL. -/
def qctlWrite (p : Nat) (d : Dev) (w : Word) : Dev :=
  let d := d.onlyIf (bit w 31) fun d => irqUpdate (d.modPort p (evFlush d.raw)) p
  let full := (d.port p).cmd.length = chainLen
  d.onlyIf (bit w 30) fun d => (d.modPort p (cmdFlush d.raw)).onlyIf full fun d => irqRaise d p 1

/-- EVFLUSH (R404): port `p` writes its own LNK_QCTL with EVFLUSH. -/
def execEvflush (p : Fin 8) (w : Word) (s : State) : Host.Outcome State Fault Refusal :=
  act s fun d => regCommand d p (.LNK_QCTL p) (setBit w 31 true) (qctlWrite p)

/-! ### Service commands (R410) -/

/-- A service: the result words for the argument words, or none where an argument is out of range. -/
abbrev Service := Dev → List Word64 → Option (List Word64)

/-- R410: a packet's answer: BUSY, BAD_ARG, or OK with the results. -/
def answerOf (d : Dev) (busy : Bool) (ws : List Word64) (f : Service) : List Word64 :=
  let h := ws.headD 0
  if busy then svcWords h svBusy []
  else if bits h 55 48 ≠ ws.length - 1 then svcWords h svBadArg []
  else match f d ws.tail with
    | none => svcWords h svBadArg []
    | some res => svcWords h svOk res

/-- R403, R405, R410: the service cores act on the next packet of a port, of the named kind. `busy` is taken only during an image load;
the doorbell has been serviced once no packet waits. -/
def serve (d : Dev) (p kind : Nat) (busy : Bool) (f : Service) : Dev :=
  match (d.port p).cmdPkts with
  | [] => d
  | ws :: rest =>
    if kindOf (ws.headD 0) ≠ kind then d
    else
      let d := svcRespond d p (answerOf d (busy && d.trust.image.isSome) ws f)
      let d := serveQueue (d.modPort p fun x => { x with cmdPkts := rest }) p
      d.onlyIf ((d.port p).cmdPkts = [] && (d.port p).cmd = []) fun d => d.clear (.LNK_DBELL p) 0

/-- A service without arguments. -/
def noArgs (f : Dev → List Word64) : Service := fun d a => if a = [] then some (f d) else none

/-- R410: versions, SVNs, and the first bytes of the firmware measurement. -/
def fwInfo (d : Dev) : List Word64 :=
  let t := d.trust
  [pack 64 [(32, 32, t.fwVersion), (0, 32, t.fwSvn)], pack 64 [(32, 32, t.pkgVersion), (0, 32, t.pkgSvn)],
   qwordAt (digestBytes t.fwDigest) 0, qwordAt (digestBytes t.fwDigest) 1]

/-- R410: the PTP port's state, and its master. -/
def ptpInfo (d : Dev) : List Word64 :=
  let q := d.tbase.ptp
  let steps := match q.best with | some m => m.steps | none => 0
  [pack 64 [(61, 3, d.ptpState), (53, 8, q.domain), (45, 8, unsigned 8 (q.logSync.getD 0)), (29, 16, steps)],
   BitVec.ofNat 64 d.tbase.gmid, BitVec.ofNat 64 (unsigned 64 d.tbase.ptpOff), BitVec.ofNat 64 (unsigned 64 d.tbase.ptpDly)]

/-- Table 15.2: the words of a RAS record. -/
def rasWords (r : RasRec) : List Word64 :=
  let w := timeWords r.time
  [pack 64 [(56, 8, r.source), (54, 2, r.severity), (48, 6, r.island), (32, 16, w.2.2 % 65536), (0, 32, w.2.1)],
   pack 64 [(32, 32, w.1), (16, 16, w.2.2 / 65536), (15, 1, r.tv.toNat), (0, 15, r.count)],
   BitVec.ofNat 64 r.addr,
   pack 64 [(48, 16, r.sites), (44, 4, r.engine.getD 0), (43, 1, r.engine.isSome.toNat), (40, 3, r.port.getD 0), (39, 1, r.port.isSome.toNat)]]

/-- R410: the entries held from a position on, at most `n`; none where the position is older than those held. -/
def entriesFrom {α : Type} (l : List α) (next pos n : Nat) : Option (List α) :=
  if pos + l.length < next then none else some ((l.drop (pos + l.length - next)).take n)

/-- R410: up to 7 records of the RAS log from a position. -/
def rasRead : Service := fun d a =>
  match a with
  | [w] => (entriesFrom d.ras.log d.ras.pos w.toNat 7).map fun l => (l.map rasWords).flatten
  | _ => none

/-- R410: up to 3 entries of the measurement log from a position. -/
def logRead : Service := fun d a =>
  match a with
  | [w] => (entriesFrom d.trust.log d.trust.logPos w.toNat 3).map fun l => (l.map fun e => (List.range 8).map (qwordAt e)).flatten
  | _ => none

/-- R410: a waiting response is posted once the area has room. -/
def svcPost (d : Dev) (p : Nat) : Dev :=
  match (d.port p).svcWait with
  | [] => d
  | ws :: rest => if 8 * ws.length ≤ d.outRoom p then outPost (d.modPort p fun x => { x with svcWait := rest }) p ws else d

end Sys2Proof.Machine
end

