-- ==== Sys2Proof/Machine/Cal.lean ====
section
/-! DEFINITION. Calibration: runs, commits, and the shadow set (13_calibration.md R431 to R447).
Measured values are in 2^-23 ps, those of XTAL in 2^-54 per °C^k (DESIGN CHOICE, log 4, DESIGN CHOICE, log 50). -/
namespace Sys2Proof.Machine

def qEdge : Nat := 1
def qStamp : Nat := 2
def qStitch : Nat := 3
def qConv : Nat := 4
def qXtal : Nat := 5

/-- Reject codes of Table 13.2. -/
def rjDisagree : Nat := 1
def rjRange : Nat := 2
def rjSignal : Nat := 3
def rjSpan : Nat := 4
def rjLimit : Nat := 5
def rjDiscarded : Nat := 6

/-! ### Items and values (R431, R447) -/

/-- Where a calibration value is kept: a field of a shadow register with its active register, or a LIN entry. -/
inductive CalHome where
  | reg (shadow active : Reg) (hi : Nat)
  | lin (input code : Nat)

/-- A value of a run: its home, tolerance, step, and the range of its code. -/
structure CalVal where
  home : CalHome
  tol : Nat
  step : Nat
  lo : Int
  hi : Int

/-- An item of a run: its number in CAL_STAT.ITEM, none where the spec gives none, and its values. -/
structure CalItem where
  item : Option Nat
  vals : List CalVal

/-- Table 13.8: trims of 0.0625 ps, and their tolerance of 1.5 ps. -/
def trimVal (shadow active : Reg) : CalVal := { home := .reg shadow active 11, tol := 3 * 2 ^ 22, step := 2 ^ 19, lo := 0, hi := 4095 }

/-- Table 4.20: the cuff's phase, in 0.5 ps, signed. -/
def phaseVal (k : Nat) : CalVal :=
  { home := .reg (.CAL_PHASE k) (.CUF_PLL k) 9, tol := 3 * 2 ^ 22, step := 2 ^ 22, lo := -512, hi := 511 }

/-- 2^-16 ns in 2^-23 ps. -/
def unit16 : Nat := 128000

/-- Internal lane delays, in 2^-16 ns. -/
def delayVal (shadow active : Reg) (tol : Nat) : CalVal := { home := .reg shadow active 23, tol := tol, step := unit16, lo := 0, hi := 2 ^ 24 - 1 }

/-- R431: the channels of the target cuffs in ascending order. -/
def targetChans (t : Nat) : List Nat := (members 8 t).flatMap fun k => (List.range 16).map fun j => 16 * k + j

/-- The linearity table and the deskew of a stamp input. -/
def stampVals (i : Nat) : List CalVal :=
  ((List.range 2048).map fun c => { home := .lin i c, tol := 20 * unit16, step := unit16, lo := 0, hi := 65535 }) ++
  [{ home := .reg (.CAL_SKEW 0 i) (.CAL_SKEW 1 i) 23, tol := 3 * 2 ^ 22, step := unit16, lo := -(2 ^ 23), hi := 2 ^ 23 - 1 }]

/-- The two delays of a lane. -/
def laneItem (l tol : Nat) : CalItem :=
  { item := some l, vals := [delayVal (.CAL_LTX 0 l) (.CAL_LTX 1 l) tol, delayVal (.CAL_LRX 0 l) (.CAL_LRX 1 l) tol] }

/-- Table 13.1: the items of a run, in ascending order. -/
def calItems (q t : Nat) : List CalItem :=
  if q = qEdge then
    ((targetChans t).map fun c => { item := some c, vals := [trimVal (.CAL_DRV 0 c) (.CAL_DRV 1 c), trimVal (.CAL_STB 0 c) (.CAL_STB 1 c)] }) ++
    (members 8 t).map fun k => { item := none, vals := [phaseVal k] }
  else if q = qStamp then
    ((targetChans t) ++ (members 8 t).map (128 + ·)).map fun i => { item := some i, vals := stampVals i }
  else if q = qStitch then (members 4 t).map fun l => laneItem l (2 ^ 22)
  else if q = qConv then (members 8 t).map fun n => laneItem (4 + n) (2 ^ 24)
  else if q = qXtal then
    [{ item := some 0, vals := (List.range 4).map fun m =>
        { home := .reg (.CAL_XC 0 m) (.CAL_XC 1 m) 31, tol := 0, step := 1024, lo := -(2 ^ 31), hi := 2 ^ 31 - 1 } }]
  else []

/-- R434: the mean in steps of its register, ties upward. -/
def meanCode (v : CalVal) (ab : Int × Int) : Int := (ab.1 + ab.2 + v.step) / (2 * v.step : Nat)

/-- The absolute difference of the two passes. -/
def passDiff (ab : Int × Int) : Nat := (ab.1 - ab.2).natAbs

/-! ### Verdicts (R434, Table 13.2) -/

/-- A verdict on an item: a reject code with a difference in 2^-23 ps; the order of the codes is the model's (DEDUCED, log 209). -/
def itemVerdict (x : CalItem) (r : PassItem) : Option (Nat × Nat) :=
  match r with
  | none => some (rjSignal, 0)
  | some l =>
    if l.length < x.vals.length then some (rjSignal, 0)
    else
      let vs := x.vals.zip l
      match vs.find? fun p => p.1.tol < passDiff p.2 with
      | some p => some (rjDisagree, passDiff p.2)
      | none => match vs.find? fun p => meanCode p.1 p.2 < p.1.lo || p.1.hi < meanCode p.1 p.2 with
        | some p => some (rjRange, passDiff p.2)
        | none => none

/-- R434: the first item that fails: its number, code and difference. A result that is missing is no signal (DEDUCED, log 139). -/
def firstFailing : List CalItem → List PassItem → Option (Option Nat × Nat × Nat)
  | [], _ => none
  | x :: xs, rs =>
    match itemVerdict x (rs.headD none) with
    | some v => some (x.item, v.1, v.2)
    | none => firstFailing xs rs.tail

/-- R436: the sampled temperatures' lowest and highest, and their number. -/
def tempSpan (c : Cal) : Int × Int := (c.samples.map (·.1)).foldl (fun m t => (min m.1 t, max m.2 t)) ((c.samples.map (·.1)).headD 0, (c.samples.map (·.1)).headD 0)

/-- Table 13.2: XTAL has too few samples, or too small a span of temperature. -/
def spanShort (c : Cal) : Bool := c.samples.length < 256 || (tempSpan c).2 - (tempSpan c).1 < 1280

/-- The difference of the two cubics at a temperature in 1/128 °C, in 2^-54 over 128^3. -/
def cubicDiff (l : List (Int × Int)) (t : Int) : Int :=
  let x := t - 25 * 128
  let g (k : Nat) : Int := match l[k]? with | some ab => ab.1 - ab.2 | none => 0
  g 0 * 128 ^ 3 + g 1 * x * 128 ^ 2 + g 2 * x * x * 128 + g 3 * x * x * x

/-- R431: the largest difference of the cubics over the temperature span sampled. -/
def worstDiff (c : Cal) (l : List (Int × Int)) : Nat :=
  let s := tempSpan c
  (List.range ((s.2 - s.1).toNat + 1)).foldl (fun m (i : Nat) => max m (cubicDiff l (s.1 + (i : Int))).natAbs) 0

/-- The determinant of a square matrix of a size, by its rows. -/
def det : Nat → List (List Int) → Int
  | 0, _ => 1
  | n + 1, m => ((List.range (n + 1)).map fun j =>
      (if j % 2 = 0 then 1 else -1) * ((m.headD [])[j]?).getD 0 * det n (m.tail.map fun r => r.eraseIdx j)).sum

/-- R436: the cubic that fits samples (x in 1/128 °C from 25 °C, y in 2^-60) best: its coefficients in 2^-54 per °C^k; none where the temperatures
determine no cubic (DEDUCED, log 17). -/
def fitCubic (l : List (Int × Int)) : Option (List Int) :=
  let s (k : Nat) : Int := (l.map fun p => p.1 ^ k).sum
  let a : List (List Int) := (List.range 4).map fun i => (List.range 4).map fun j => s (i + j)
  let v : List Int := (List.range 4).map fun i => (l.map fun p => p.1 ^ i * p.2).sum
  let w := det 4 a
  if w = 0 then none
  else some ((List.range 4).map fun j => (2 * det 4 ((a.zip v).map fun r => r.1.set j r.2) * 128 ^ j + 64 * w) / (128 * w))

/-- R436: the passes of XTAL: cubics fitted to the even-numbered and to the odd-numbered samples; where they determine none, what the command
gives. -/
def xtalPasses (c : Cal) (pass : List PassItem) : List PassItem :=
  let half (b : Nat) : List (Int × Int) := (c.samples.zipIdx.filter fun p => p.2 % 2 = b).map fun p => (p.1.1 - 25 * 128, p.1.2)
  match fitCubic (half 0), fitCubic (half 1) with
  | some a, some b => [some (a.zip b)]
  | _, _ => pass

/-- R431, R434: the verdict on XTAL: code, and the difference as a fraction in 0.001 ppm. -/
def xtalVerdict (c : Cal) (r : PassItem) : Option (Nat × Nat × Nat) :=
  match r with
  | none => some (rjSignal, 0, 1)
  | some l =>
    if l.length < 4 then some (rjSignal, 0, 1)
    else
      let w := worstDiff c l
      if 5 * 2 ^ 54 * 128 ^ 3 < w * 10 ^ 8 then some (rjDisagree, w * 10 ^ 9, 2 ^ 54 * 128 ^ 3)
      else if ((calItems qXtal 0).flatMap (·.vals)).zip l |>.any fun p => meanCode p.1 p.2 < p.1.lo || p.1.hi < meanCode p.1 p.2 then
        some (rjRange, w * 10 ^ 9, 2 ^ 54 * 128 ^ 3)
      else none

/-- R434: why a run is rejected: its code, its item, none where the spec gives no number, and its difference as a fraction of a unit of DIFF. -/
def runVerdict (d : Dev) (o : CalOp) (pass : List PassItem) : Option (Nat × Option Nat × Nat × Nat) :=
  if o.limit then some (rjLimit, some 0, 0, 1)
  else if o.qty = qXtal then
    if spanShort d.cal then some (rjSpan, some 0, 0, 1)
    else (xtalVerdict d.cal (pass.headD none)).map fun v => (v.1, some 0, v.2.1, v.2.2)
  else (firstFailing (calItems o.qty o.target) pass).map fun v => (v.2.1, v.1, v.2.2 * 10, 2 ^ 23)

/-! ### Writing values -/

/-- A code into the shadow set. -/
def putShadow (d : Dev) (v : CalVal) (ab : Int × Int) : Dev :=
  let c := meanCode v ab
  match v.home with
  | .reg s _ hi => d.set s hi 0 (unsigned (hi + 1) c)
  | .lin i k => d.modCal fun x => { x with linShadow := x.linShadow.put none (2048 * i + k) (if c = 10 * k then none else some c.toNat) }

/-- R434: every value of an accepted run becomes the mean of its passes, in the shadow set. -/
def putMeans (d : Dev) (xs : List CalItem) (pass : List PassItem) : Dev :=
  d.each (xs.zip pass) fun d p => d.each (p.1.vals.zip (p.2.getD [])) fun d q => putShadow d q.1 q.2

/-- R316: an entry of the shadow LIN table of an input. -/
def Dev.linShadow (d : Dev) (key : Nat) : Nat := (d.cal.linShadow.get none key).getD (10 * (key % 2048))

/-- R432, R437: shadow registers with their active ones, beside those of the measured values: the host's own. -/
def hostHomes (q t : Nat) : List (Reg × Reg) :=
  if q = qEdge then (targetChans t).map fun c => (.CAL_BOARD 0 c, .CAL_BOARD 1 c)
  else if q = qStitch then (members 4 t).map fun l => (.CAL_LEXT0 0 l, .CAL_LEXT0 1 l)
  else if q = qConv then (members 8 t).flatMap fun n => [(.CAL_LEXT0 0 (4 + n), .CAL_LEXT0 1 (4 + n)), (.CAL_LEXT1 0 (4 + n), .CAL_LEXT1 1 (4 + n))]
  else []

/-- R437: the snapshot of the shadow values of a quantity and target: active register addresses with words, and LIN entries. -/
def calSnapshot (d : Dev) (q t : Nat) (host : Bool) : List (Nat × Word) × List (Nat × Nat) :=
  let vs := (calItems q t).flatMap (·.vals)
  (vs.filterMap (fun v => match v.home with | .reg s a _ => some (a.addr, d.rd s) | .lin _ _ => none) ++
    (hostHomes q t).map (fun p => (p.2.addr, d.rd p.1)) ++
    (if q = qEdge ∧ host then (List.range 9).map fun n => ((Reg.CAL_BASET 1 n).addr, d.rd (.CAL_BASET 0 n)) else []),
   vs.filterMap fun v => match v.home with | .lin i k => some (2048 * i + k, d.linShadow (2048 * i + k)) | .reg _ _ _ => none)

/-- A word of a snapshot into its active register; of CUF_PLL only PHASE. -/
def putActive (d : Dev) (aw : Nat × Word) : Dev :=
  match Reg.ofAddr aw.1 with
  | some (.CUF_PLL k) => d.set (.CUF_PLL k) 9 0 (bits aw.2 9 0)
  | some r => d.wr r aw.2
  | none => d

/-- A LIN entry into the active table. -/
def putLin (d : Dev) (kv : Nat × Nat) : Dev :=
  d.modCal fun x => { x with linActive := x.linActive.put none kv.1 (if kv.2 = 10 * (kv.1 % 2048) then none else some kv.2) }

/-! ### Operations (R434 to R440) -/

/-- R438: no affected site has a burst dispatched. -/
def calIdle (d : Dev) (o : CalOp) : Bool := (List.range 16).all fun s => !(d.calAffects o.qty o.target s && d.siteDispatched s)

/-- The lanes of a STITCH or CONV target. -/
def calLanes (q t : Nat) : List Nat :=
  if q = qStitch then (members 4 t).map (24 + ·) else if q = qConv then (members 8 t).map (16 + ·) else []

/-- R386, R436: the lanes of a run climb from CDR, at the start of its passes in loopback and after it in service (DEDUCED, log 142). -/
def calRelane (d : Dev) (o : CalOp) : Dev :=
  d.each (calLanes o.qty o.target) fun d l => if d.stage l = sgOff ∨ d.stage l = sgFailed then d else toCdr d l

/-- R438: the passes of a run begin once the affected sites are idle. -/
def passesBegin (d : Dev) : Dev :=
  match d.cal.op with
  | some o =>
    if o.run && !o.passes && calIdle d o then
      calRelane ((d.clear .CAL_STAT 30).modCal fun c => { c with op := some { o with passes := true } }) o
    else d
  | none => d

/-- CAL_PASSES_BEGIN (R438). -/
def execCalPassesBegin (s : State) : Host.Outcome State Fault Refusal := act s passesBegin

/-- An operation starts: BUSY and QTY in CAL_STAT, and PENDING until what it waits for. -/
def calStart (d : Dev) (o : CalOp) : Dev :=
  ((d.raise .CAL_STAT 31).raise .CAL_STAT 30).set .CAL_STAT 23 20 o.qty |>.modCal fun c => { c with op := some o }

/-- R434: a run starts. -/
def calRun (d : Dev) (q t : Nat) : Dev :=
  passesBegin ((calStart d { run := true, qty := q, target := t }).modCal fun c => { c with runs := c.runs.put 0 q ((c.runs.get 0 q + 1) % 2 ^ 64) })

/-- R437, R440: a host commit starts, with the snapshot it carries. -/
def calCommit (d : Dev) (q t : Nat) : Dev := calStart d { run := false, qty := q, target := t, snap := some (calSnapshot d q t true) }

/-- R442: the CALIBRATION entry of an outcome. -/
def calLedger (d : Dev) (o : CalOp) (aux code item : Nat) : Dev :=
  ledger d 0x12 ucFirmware 0 o.qty (d.nowOn 10) aux (o.target % 256 + (!o.run).toNat * 2 ^ 8 + code % 16 * 2 ^ 16 + item % 256 * 2 ^ 24) 0

/-- The operation has ended. -/
def calOver (d : Dev) (o : CalOp) : Dev :=
  let measured := o.run && o.passes && o.snap.isNone
  let d := (d.set .CAL_STAT 31 30 0).modCal fun c => { c with op := none }
  d.onlyIf measured fun d => calRelane d o

/-- R434, R442, R514: a run is rejected. -/
def calReject (d : Dev) (o : CalOp) (code item diff : Nat) : Dev :=
  let d := (calOver d o).modCal fun c => { c with rejects := c.rejects.put 0 o.qty ((c.rejects.get 0 o.qty + 1) % 2 ^ 64) }
  let d := d.set .CAL_STAT 19 16 code |>.set .CAL_STAT 15 8 item |>.set .CAL_STAT 7 0 (min 255 diff)
  calLedger (d.raise .CAL_STAT 28 |>.clear .CAL_STAT 29) o 3 code item

/-- R434, R437: a run is accepted: its values are written into the shadow set, and its commit follows. -/
def calAccept (d : Dev) (o : CalOp) (pass : List PassItem) : Dev :=
  let d := putMeans d (calItems o.qty o.target) pass
  let d := (d.modCal fun c => { c with op := some { o with snap := some (calSnapshot d o.qty o.target false) } }).raise .CAL_STAT 30
  let d := d.set .CAL_STAT 19 16 0 |>.set .CAL_STAT 15 0 0
  calLedger (calRelane (d.raise .CAL_STAT 29 |>.clear .CAL_STAT 28) o) o 2 0 0

/-- R434: pass B ends. The number of an item that the spec does not number, and the rounding of a difference, are free (DESIGN CHOICE, log 7). -/
def calRunEnd (d : Dev) (pass : List PassItem) : Dev :=
  match d.cal.op with
  | some o =>
    let pass := if o.qty = qXtal then xtalPasses d.cal pass else pass
    if !o.run || !o.passes || o.snap.isSome then d
    else match runVerdict d o pass with
      | none => calAccept d o pass
      | some (code, item, num, den) =>
        let i := match item with | some i => (i, d) | none => d.free 8
        let f := quoFree i.2 num den
        calReject f.2 o code i.1 f.1.toNat
  | none => d

/-- CAL_RUN_END (R434): the values that the two passes measured are an operand (DESIGN CHOICE, log 4). -/
def execCalRunEnd (pass : List PassItem) (s : State) : Host.Outcome State Fault Refusal := act s fun d => calRunEnd d pass

/-- R439: the current operation ends: a run that waits or measures is rejected, a commit that waits is dropped (DEDUCED, log 140). -/
def calDiscard (d : Dev) : Dev :=
  match d.cal.op with
  | some o => if o.run && o.snap.isNone then calReject d o rjDiscarded 0 0 else calOver d o
  | none => d

/-- R435, R446: a write of CAL_CMD. A reserved quantity starts nothing (DEDUCED, log 51). -/
def calWrite (d : Dev) (w : Word) : Dev :=
  let d := d.store .CAL_CMD w
  let q := d.get .CAL_CMD 23 20
  let t := d.get .CAL_CMD 7 0
  if bit w 29 then calDiscard d
  else if !bit w 31 && !bit w 30 then d
  else if d.cal.op.isSome then d.raise .CAL_STAT 27
  else if q = 0 ∨ 5 < q then d
  else if bit w 31 then calRun d q t
  else calCommit d q t

/-- CAL_RUN (R434): port `p` writes CAL_CMD with RUN and without DISCARD. -/
def execCalRun (p : Fin 8) (w : Word) (s : State) : Host.Outcome State Fault Refusal :=
  act s fun d => regCommand d p .CAL_CMD (setBit (setBit w 29 false) 31 true) calWrite

/-- CAL_COMMIT (R440): port `p` writes CAL_CMD with COMMIT and without RUN and DISCARD. -/
def execCalCommit (p : Fin 8) (w : Word) (s : State) : Host.Outcome State Fault Refusal :=
  act s fun d => regCommand d p .CAL_CMD (setBit (setBit (setBit w 29 false) 31 false) 30 true) calWrite

/-- CAL_DISCARD (R439): port `p` writes CAL_CMD with DISCARD. -/
def execCalDiscard (p : Fin 8) (w : Word) (s : State) : Host.Outcome State Fault Refusal :=
  act s fun d => regCommand d p .CAL_CMD (setBit w 29 true) calWrite

/-! ### Applying a commit (R437, R440 to R445) -/

/-- R31: an island's temperature in 1/128 °C. -/
def Dev.temp (d : Dev) (i : Nat) : Int := signed 16 (d.get (.GLB_ISLE i) 31 16)

/-- Whether the apply point of Table 13.3 has come; a tick boundary is reached by the command's own time. -/
def applyPoint (d : Dev) (o : CalOp) : Bool :=
  if o.qty = qEdge ∨ o.qty = qStamp then calIdle d o
  else if o.qty = qConv then
    (members 8 o.target).all fun n => d.srcState n = 0 &&
      (List.range 16).all fun u => !((d.acq u).cfg.stream && (d.acq u).cfg.strm = n && d.acqArmed u)
  else true

/-- R445, Table 13.4: the islands whose temperatures are kept at a commit of a quantity: the target cuffs, or every ST or CL lane island. -/
def calIslands (q t : Nat) : List Nat :=
  if q = qStamp then members 8 t else if q = qStitch then (List.range 4).map (36 + ·) else if q = qConv then (List.range 8).map (28 + ·) else []

/-- R441: the baseline after a run: the temperatures of the cuffs and of the time base now. -/
def setBaseline (d : Dev) : Dev :=
  d.each (List.range 9) fun d n => d.set (.CAL_BASET 1 n) 15 0 (d.get (.GLB_ISLE (if n < 8 then n else 11)) 31 16)

/-- R440, R443: what a commit leaves in CAL_QSTAT and CAL_LAST. -/
def calCounted (d : Dev) (o : CalOp) : Dev :=
  let r := Reg.CAL_QSTAT (o.qty - 1)
  if o.run then
    let d := (d.set r 15 0 (sat 16 (d.get r 15 0 + 1))).set r 31 30 (d.timeValid.toNat * 2)
    d.modCal fun c => { c with last := c.last.put none o.qty (some d.now) }
  else (calLedger ((d.raise r 30).raise .CAL_STAT 29 |>.clear .CAL_STAT 28 |>.set .CAL_STAT 19 0 0) o 2 0 0)

/-- R437: a commit is applied. -/
def calApply (d : Dev) : Dev :=
  match d.cal.op with
  | some o =>
    match o.snap with
    | some (regs, lin) =>
      if !applyPoint d o then d
      else
        let d := ((d.each regs putActive).each lin putLin).onlyIf (o.qty = qXtal) coefChanged
        let d := d.onlyIf (o.run && o.qty = qEdge) setBaseline
        let d := d.each (if o.qty = qEdge then members 8 o.target else []) fun d k =>
          { d with phaseRef := d.phaseRef.put 0 k (d.get (.CUF_PLL k) 9 0) }.modCal fun c => { c with moved := c.moved.keep fun i => decide (i / 16 ≠ k) }
        let d := d.modCal fun c => { c with temps := (calIslands o.qty o.target).foldl (fun t i => t.put none (64 * o.qty + i) (some (d.temp i))) c.temps }
        calCounted (calOver d o) o
    | none => d
  | none => d

/-- CAL_COMMIT_APPLY (R437): STITCH and XTAL at the next tick boundary. -/
def execCalCommitApply (s : State) : Host.Outcome State Fault Refusal :=
  match s.dev.cal.op with
  | some o => actAt s (if o.snap.isSome ∧ (o.qty = qStitch ∨ o.qty = qXtal) then some s.dev.sched.tickAt else none) calApply
  | none => act s id

/-! ### Shadow registers and LIN windows (R435, R446, R447) -/

/-- The quantity of a shadow register. -/
def shadowQty : Reg → Nat
  | .CAL_DRV 0 _ | .CAL_STB 0 _ | .CAL_BOARD 0 _ | .CAL_PHASE _ | .CAL_BASET 0 _ => qEdge
  | .CAL_SKEW 0 _ => qStamp
  | .CAL_LTX 0 l | .CAL_LRX 0 l | .CAL_LEXT0 0 l | .CAL_LEXT1 0 l => if l < 4 then qStitch else qConv
  | .CAL_XC 0 _ => qXtal
  | _ => 0

/-- R435, R439: a run is measuring the quantity: its passes have begun. -/
def shadowBusy (d : Dev) (q : Nat) : Bool := d.cal.op.any fun o => o.run && o.passes && o.snap.isNone && o.qty = q

/-- R447: by how much a write of an active trim or offset moves the drive and the strobe edges of its channel, in 2^-4 ps. -/
def activeShift (r : Reg) (old new : Word) : Option (Nat × Int × Int) :=
  let by_ (f : Word → Int) : Int := f new - f old
  match r with
  | .CAL_DRV 1 c => some (c, by_ fun w => bits w 11 0, 0)
  | .CAL_STB 1 c => some (c, 0, by_ fun w => bits w 11 0)
  | .CAL_BOARD 1 c => some (c, 8 * by_ fun w => signed 16 (bits w 15 0), 8 * by_ fun w => signed 16 (bits w 31 16))
  | _ => none

/-- R435, R447: a write of a value register; one of an active register acts at once. -/
def calValueWrite (r : Reg) (d : Dev) (w : Word) : Dev :=
  if shadowBusy d (shadowQty r) then d.raise .CAL_STAT 26
  else
    let n := (d.store r w).onlyIf (match r with | .CAL_XC 1 _ => true | _ => false) coefChanged
    match activeShift r (d.rd r) (n.rd r) with
    | some (c, x) => n.modCal fun y => { y with moved := y.moved.put (0, 0) c ((y.moved.get (0, 0) c).1 + x.1, (y.moved.get (0, 0) c).2 + x.2) }
    | none => n

/-- R446: a word of a LIN window, shadow or active, of the input in CAL_LINSEL. -/
def linRead (d : Dev) (active : Bool) (w : Nat) : Word :=
  let i := d.get .CAL_LINSEL 7 0
  if 136 ≤ i then 0
  else
    let e (c : Nat) : Nat := ((if active then d.cal.linActive else d.cal.linShadow).get none (2048 * i + c)).getD (10 * c)
    BitVec.ofNat 32 (e (2 * w) + 65536 * e (2 * w + 1))

/-- R446: a write of a word of a LIN window. -/
def linWrite (d : Dev) (active : Bool) (w : Nat) (v : Word) : Dev :=
  let i := d.get .CAL_LINSEL 7 0
  if 136 ≤ i then d
  else if !active && shadowBusy d qStamp then d.raise .CAL_STAT 26
  else
    let e (c x : Nat) (t : Tbl (Option Nat)) : Tbl (Option Nat) := t.put none (2048 * i + c) (if x = 10 * c then none else some x)
    d.modCal fun c =>
      let f := fun t => e (2 * w) (bits v 15 0) (e (2 * w + 1) (bits v 31 16) t)
      if active then { c with linActive := f c.linActive } else { c with linShadow := f c.linShadow }

/-! ### Recommendations (R445, Table 13.4) -/

/-- A quantity has neither been run nor restored. -/
def neverCal (d : Dev) (q : Nat) : Bool := d.get (.CAL_QSTAT (q - 1)) 15 0 = 0 && !d.flag (.CAL_QSTAT (q - 1)) 30

/-- An island of a quantity differs by more than `lim` from its temperature at the quantity's last commit. -/
def drifted (d : Dev) (q : Nat) (is : List Nat) (lim : Nat) : Bool :=
  is.any fun i => (d.cal.temps.get none (64 * q + i)).any fun t => lim * 128 < (d.temp i - t).natAbs

/-- GLB_GRAD.RECAL_DUE (01_burst_path.md R29). -/
def recalDue (d : Dev) : Bool := d.get .GLB_GRAD 7 0 ≠ 0 && d.get .GLB_GRAD 7 0 < d.get .GLB_GRAD 15 8

/-- Table 13.4: CAL_DUE. -/
def calDue (d : Dev) : Nat :=
  setOf ((List.range 6).filter fun q =>
    (q = 1 && (recalDue d || neverCal d 1)) || (q = 2 && (drifted d 2 (List.range 8) 20 || neverCal d 2)) ||
    (q = 3 && (drifted d 3 [36, 37, 38, 39] 10 || neverCal d 3)) ||
    (q = 4 && (drifted d 4 ((List.range 8).map (28 + ·)) 10 || neverCal d 4)) || (q = 5 && neverCal d 5))

end Sys2Proof.Machine
end

