-- ==== Sys2Proof/Machine/Islands.lean ====
section
/-! DEFINITION. Island monitors, gradients and spread-spectrum clocking (01_burst_path.md R10, R11, R21 to R31). -/
namespace Sys2Proof.Machine

/-- Table 1.2: the neighbour pairs, lower island first. -/
def neighbours : List (Nat × Nat) :=
  [(0, 1), (1, 2), (2, 3), (3, 4), (4, 5), (5, 6), (6, 7), (0, 7)] ++ ((List.range 8).map fun k => (k, 8)) ++ ((List.range 8).map fun k => (k, 11)) ++
  [(8, 9), (8, 10), (9, 10), (10, 11), (10, 40)] ++ ((List.range 8).map fun k => (8, 28 + k)) ++ ((List.range 16).map fun k => (10, 12 + k)) ++
  ((List.range 4).map fun k => (11, 36 + k))

/-- The difference of two numbers. -/
def apart (a b : Nat) : Nat := (a - b) + (b - a)

/-- R23: a pair's supplies differ by more than 60 mV, and its temperatures by more than 20 °C. -/
def overVolt (d : Dev) (x : Nat × Nat) : Bool := 600 < apart (d.get (.GLB_ISLE x.1) 15 0) (d.get (.GLB_ISLE x.2) 15 0)
def overTemp (d : Dev) (x : Nat × Nat) : Bool := 2560 < (d.temp x.1 - d.temp x.2).natAbs
def overLimit (d : Dev) (x : Nat × Nat) : Bool := overVolt d x || overTemp d x

/-- R441: the baseline temperature of a cuff. -/
def baseTemp (d : Dev) (k : Nat) : Int := signed 16 (d.get (.CAL_BASET 1 k) 15 0)

/-- R25, R26: the largest gradient change over the 28 cuff pairs, in 1/128 °C. -/
def worstGradient (d : Dev) : Nat :=
  ((List.range 8).flatMap fun a => (List.range a).map fun b => ((d.temp a - d.temp b) - (baseTemp d a - baseTemp d b)).natAbs).foldl max 0

/-- R26, R29: GLB_GRAD.WORST, 0 until the first EDGE commit. -/
def setWorst (d : Dev) : Dev := d.set .GLB_GRAD 15 8 (if neverCal d qEdge then 0 else min 255 (worstGradient d / 128))

/-- R27: a pair has come to exceed a limit: a RAS warning and a CALIBRATION entry. Table 15.2 names no field for a pair: the record has its lower island,
ADDR 0 and no sites (DESIGN CHOICE, log 77). -/
def pairReport (d : Dev) (x : Nat × Nat) : Dev :=
  ledger (rasReport d 0x0E sevWarning x.1 0 0 none none) 0x12 ucFirmware 0 0 (d.nowOn 10) 1 (x.1 * 256 + x.2) 0

/-- R27, R29, R30: LIMIT is set by every sample that finds a pair over a limit; of several pairs the first in
the list of neighbours is recorded where LIMIT was 0, and a pair is reported when it leaves the limits, not at each sample (DEDUCED, log 205)
(DEDUCED, log 141). -/
def limitCheck (d old : Dev) : Dev :=
  match neighbours.filter (overLimit d) with
  | [] => d
  | x :: xs =>
    let d := d.onlyIf (!d.flag .GLB_GRAD 31) fun d =>
      d.wr .GLB_GRADPAIR (pack 32 [(16, 8, x.1), (8, 8, x.2), (1, 1, (overVolt d x).toNat), (0, 1, (overTemp d x).toNat)])
    let d := (d.raise .GLB_GRAD 31).modCal fun c => { c with op := c.op.map fun o => { o with limit := true } }
    d.each ((x :: xs).filter fun y => !overLimit old y) pairReport

/-- R26, R27, R31: the monitors of the 41 islands are sampled: temperature and core supply of each. -/
def monitorSample (d : Dev) (l : List (BitVec 16 × BitVec 16)) : Dev :=
  let old := d
  let d := d.each ((List.range 41).zip l) fun d x => d.wr (.GLB_ISLE x.1) (x.2.1 ++ x.2.2)
  limitCheck (setWorst d) old

/-- ISLAND_MONITOR_SAMPLE (R26): the readings are an operand, in island order (DESIGN CHOICE, log 4). -/
def execIslandMonitorSample (l : List (BitVec 16 × BitVec 16)) (s : State) : Host.Outcome State Fault Refusal :=
  polled s 0 (100 * micro1) fun d => monitorSample d l

/-- SSC_APPLY (R22, R28): at the next modulation cycle the enables take effect. -/
def execSscApply (s : State) : Host.Outcome State Fault Refusal :=
  act s fun d => d.set .GLB_SSC 3 2 (d.get .GLB_SSC 1 0)

end Sys2Proof.Machine
end

