-- ==== Sys2Proof/Machine/Contain.lean ====
section
/-! DEFINITION. How errors are contained: bursts cut, engines withdrawn and reinstated, control stores repaired, cuff PLLs
(15_dependability.md R477, R478, R483, R484, R489; 03_engines_and_microcode.md R81, R88, R94, R96). -/
namespace Sys2Proof.Machine

/-! ### Bursts cut by an error -/

/-- R477, R478, R483: a burst stops releasing at once and ends ABORTED_FAULT with a code, unless a fault has ended it already or it is
not to run; its vectors not released are lost (DEDUCED, log 143). -/
def cutBurst (d : Dev) (e code : Nat) : Dev :=
  d.modEngine e fun x => match x.burst with
    | none => x
    | some b =>
      let c := b.issuedOnly
      let out := { c.drained with stopped := true, wait := none, micro := none }
      match b.fin with
      | some .skip | some .cancelled => x
      | some (.fault f a st) => { x with burst := some { out with fin := some (.fault f a st) }, emitted := b.released + numberedIn c.queue }
      | _ => { x with burst := some { out with fin := some (.fault code 0 false) }, emitted := b.released + numberedIn c.queue }

/-- The bursts of a set of sites are cut; one that its engine has not received ends without running. -/
def cutSites (d : Dev) (sites code : Nat) : Dev :=
  let d := d.each (members 16 sites) fun d s => match d.siteEngine s with | some e => cutBurst d e code | none => d
  d.each (d.descs.filter fun x => inSet sites x.2.site) fun d x => match x.2.place with
    | .engine e => if (d.burst e).isNone then dropBurst d e x.1 x.2 (.fault code 0 false) else d
    | _ => d

/-- The enabled sites that hold a channel of a cuff. -/
def Dev.cuffSites (d : Dev) (k : Nat) : Nat :=
  setOf ((List.range 16).filter fun s => (d.site s).decl.en && (List.range 16).any fun j => inSet (d.site s).decl.chans (16 * k + j))

/-! ### Withdrawal and reinstatement (R483, R484) -/

/-- Device fault codes of R477 and R483. -/
def dfWithdrawn : Nat := 0x25
def dfDatapath : Nat := 0x26
def dfSeam : Nat := 0x27
def dfPllLost : Nat := 0x28
def dfMirror : Nat := 0x29

/-- R176, R483: a descriptor committed to a withdrawn engine that has not received it: back in its place where it was committed in this
cycle, and otherwise ended (DEDUCED, log 144). -/
def withdrawCommitted (d : Dev) (e : Nat) : Dev :=
  match committedTo d e with
  | none => d
  | some (slot, x) =>
    if cycleOf x.commitAt = cycleOf d.now then
      switchIfFree ((d.modDesc slot fun y => { y with place := .ready }).clear (.ENG_STAT e) 26) x.site
    else dropBurst d e slot x (.fault dfWithdrawn 0 false)

/-- R483: the accepted descriptors that require the engine end at once. -/
def endRequiring (d : Dev) (e : Nat) : Dev :=
  d.each (d.descs.filter fun x => x.2.aff = 2 && x.2.engine = e && !x.2.dispatched) fun d x =>
    postCompletion d x.1 x.2 { status := csAbortedFault, fcode := dfWithdrawn, engine := some e }

/-- R483: an engine is withdrawn. -/
def withdraw (d : Dev) (e : Nat) : Dev :=
  if d.flag .SCH_ENGEN (16 + e) then d
  else
    let sites := match d.burst e with | some b => 2 ^ b.site | none => 0
    let d := (d.raise .SCH_ENGEN (16 + e)).modEngine e fun x => { x with affinity := none }
    let d := rasReport d 0x11 sevContained 8 0 sites (some e) none
    let d := endRequiring (withdrawCommitted (cutBurst d e dfWithdrawn) e) e
    d.onlyIf ((d.burst e).isNone) fun d => d.set (.ENG_STAT e) 31 28 6

/-- R483: after an error that names an engine: enough of them within an hour withdraw it. -/
def withdrawCheck (d : Dev) (e : Nat) : Dev :=
  let lim := d.get .RAS_ENGCFG 7 0
  d.onlyIf (lim ≠ 0 && lim ≤ ((d.ras.engErrs.get [] e).filter fun t => d.now < t + 3600 * second1).length) fun d => withdraw d e

/-- R484: a march test starts on a withdrawn engine; on any other, or while one runs, the request is ignored (DEDUCED, log 145). -/
def reinstate (d : Dev) (e : Nat) : Dev :=
  if !d.flag .SCH_ENGEN (16 + e) ∨ d.ras.march.isSome then d.raise .RAS_ENGSTAT 29
  else ((d.raise .RAS_ENGSTAT 31).set .RAS_ENGSTAT 3 0 e).modRas fun x => { x with march := some e }

/-- R489: a write of RAS_ENGCMD. -/
def engcmdWrite (d : Dev) (w : Word) : Dev :=
  let d := d.store .RAS_ENGCMD w
  let e := d.get .RAS_ENGCMD 3 0
  if bit w 31 then withdraw d e else if bit w 30 then reinstate d e else d

/-- WITHDRAW (R483): port `p` writes RAS_ENGCMD with WITHDRAW. -/
def execWithdraw (p : Fin 8) (w : Word) (s : State) : Host.Outcome State Fault Refusal :=
  act s fun d => regCommand d p .RAS_ENGCMD (setBit w 31 true) engcmdWrite

/-- REINSTATE (R484): port `p` writes RAS_ENGCMD with REINSTATE and without WITHDRAW. -/
def execReinstate (p : Fin 8) (w : Word) (s : State) : Host.Outcome State Fault Refusal :=
  act s fun d => regCommand d p .RAS_ENGCMD (setBit (setBit w 31 false) 30 true) engcmdWrite

/-- R484: the march test ends (DEDUCED, log 149). -/
def marchEnd (d : Dev) (pass : Bool) : Dev :=
  match d.ras.march with
  | none => d
  | some e =>
    let d := (d.clear .RAS_ENGSTAT 31).modRas fun x => { x with march := none }
    if pass then (d.clear .SCH_ENGEN (16 + e)).onlyIf ((d.burst e).isNone) fun d => d.set (.ENG_STAT e) 31 28 0
    else d.raise .RAS_ENGSTAT 30

/-- MARCH_TEST_END (R484): the test's verdict is an operand (DESIGN CHOICE, log 4). -/
def execMarchTestEnd (pass : Bool) (s : State) : Host.Outcome State Fault Refusal := act s fun d => marchEnd d pass

/-- RAS_LOG_SELECT (R489): port `p` writes RAS_LOGSEL; the record shown follows it. -/
def execRasLogSelect (p : Fin 8) (w : Word) (s : State) : Host.Outcome State Fault Refusal :=
  act s fun d => regCommand d p .RAS_LOGSEL w fun d w => d.store .RAS_LOGSEL w

/-- R489: the record that RAS_LOGSEL selects, where it is held. -/
def rasShown (d : Dev) : Option RasRec :=
  let back := (d.ras.pos % 2 ^ 32 + 2 ^ 32 - (d.rd .RAS_LOGSEL).toNat) % 2 ^ 32
  if 1 ≤ back ∧ back ≤ d.ras.log.length then d.ras.log[d.ras.log.length - back]? else none

/-- R489: word `w` of the record shown. -/
def rasLogData (d : Dev) (w : Nat) : Word :=
  match rasShown d with
  | some r => BitVec.ofNat 32 ((((rasWords r)[w / 2]?).getD 0).toNat / 2 ^ (32 * (w % 2)))
  | none => 0

/-! ### Control-store errors and repair (R81, R88, R94, R96, R477) -/

/-- TWIN_TRAP (R96, R483). -/
def execTwinTrap (e : Fin 16) (addr : Fin 4096) (corr : Option (Fin 4 × Fin 8192)) (s : State) : Host.Outcome State Fault Refusal :=
  act s fun d => withdrawCheck (twinTrap (withCorrected d e corr) e addr) e

/-- CSTORE_UNCORR_TRAP (R94, R483). -/
def execCstoreUncorrTrap (e : Fin 16) (store : Fin 4) (addr : Fin 8192) (corr : Option (Fin 4 × Fin 8192)) (s : State) :
    Host.Outcome State Fault Refusal :=
  act s fun d => withdrawCheck (cstoreTrap (withCorrected d e corr) e store addr) e

/-- R84: words of a standard region, which the retained image holds: 0 horizontal, 1 nano-store, 2 micro-pointer store, 3 directory. -/
def standardWord (store addr : Nat) : Bool := addr < (if store = 0 then 3072 else if store = 3 then 64 else 6144)

/-- R88: a word is rewritten from the retained image of the loaded package. -/
def restoreWord (d : Dev) (e store addr : Nat) : Dev :=
  match store with
  | 0 => d.modEngine e fun x => { x with hstore := x.hstore.put none addr none }
  | 1 => { d with nano := d.nano.put none addr none }
  | 2 => d.modEngine e fun x => { x with mptr := x.mptr.put none addr none }
  | _ => d.modEngine e fun x => { x with dir := x.dir.put none addr none }

/-- R88, R483: the oldest word that waits is rewritten, and its routine returns to its horizontal form; a repair that reads back in error
withdraws the engine. User regions have no retained image (DEDUCED, log 60). -/
def cstoreRepair (d : Dev) (e : Nat) (ok : Bool) : Dev :=
  if !d.flag (.ENG_CTL e) 0 then d
  else match (d.engine e).repairs.find? fun r => standardWord r.1 r.2.1 with
    | none => d
    | some r =>
      let d := (restoreWord d e r.1 r.2.1).modEngine e fun x => { x with repairs := x.repairs.erase r }
      if !ok then withdraw d e
      else d.onlyIf (!(d.engine e).repairs.any fun q => q.2.2 = r.2.2) fun d =>
        d.modEngine e fun x => { x with liningOnly := x.liningOnly.filter (· ≠ r.2.2) }

/-- CSTORE_REPAIR (R88): whether the word reads back without error is an operand (DESIGN CHOICE, log 4). -/
def execCstoreRepair (e : Fin 16) (ok : Bool) (s : State) : Host.Outcome State Fault Refusal := act s fun d => cstoreRepair d e ok

/-! ### Cuff PLLs (R478, 04_timing_sets_and_edges.md R153) -/

/-- R478: strobe windows that have not closed return masked. -/
def maskWindows (d : Dev) (s : Nat) : Dev :=
  d.modSite s fun x => { x with flight := x.flight.map fun f =>
    { f with wins := f.wins.map fun w => if w.stage = .done then w else { w with stage := .done, pass := true } } }

/-- R478: a cuff loses lock; Table 15.2 names no ADDR for its record, which holds 0 (DESIGN CHOICE, log 77). -/
def pllLost (d : Dev) (k : Nat) : Dev :=
  let sites := d.cuffSites k
  let d := ((d.clear (.CUF_PLL k) 31).raise (.CUF_PLL k) 30).modSched fun x => { x with pllLost := x.pllLost ||| 2 ^ k }
  let d := rasReport d 0x0C sevContained k 0 sites none none
  (cutSites d sites dfPllLost).each (members 16 sites) maskWindows

/-- CUFF_PLL_LOCK_LOST (R478). -/
def execCuffPllLockLost (k : Fin 8) (s : State) : Host.Outcome State Fault Refusal := act s fun d => pllLost d k

/-- CUFF_PLL_LOCK (R478): the scheduler may commit to the cuff's sites again. -/
def execCuffPllLock (k : Fin 8) (s : State) : Host.Outcome State Fault Refusal :=
  act s fun d => (d.raise (.CUF_PLL k) 31).modSched fun x => { x with pllLost := x.pllLost - 2 ^ k.val * (inSet x.pllLost k).toNat }

end Sys2Proof.Machine
end

