-- ==== Sys2Proof/Machine/Reset.lean ====
section
/-! DEFINITION. Resets, the release point and the board profile (14_power_reset_and_trust.md R450 to R453,
10_time_base_and_alignment.md R339, 11_lanes_and_host_link.md R385). -/
namespace Sys2Proof.Machine

/-! ### What a reset leaves (R451 to R453) -/

/-- Kinds of reset as GLB_STAT.LASTRESET gives them (12_register_interface.md R428); a lower number is a higher kind. -/
def rkPowerOn : Nat := 0
def rkCold : Nat := 1
def rkWarm : Nat := 2

/-- Causes of GLB_RSTCAUSE (R473). -/
def rcVin : Nat := 0
def rcFail : Nat := 1
def rcRail : Nat := 2
def rcResetN : Nat := 3
def rcCold : Nat := 4
def rcLife : Nat := 5
def rcWarm : Nat := 6
def rcWatchdog : Nat := 7
def rcImage : Nat := 8

/-- R451: everything wiped, and registers at their reset values. The one-time-programmable store, what counts since power-on, the base-clock
counter and the test access port stay; an engine stays withdrawn until it passes its test (15_dependability.md R484) (DEDUCED, log 148). -/
def wiped (d : Dev) (kind cause : Nat) : Dev :=
  let n : Dev := { now := d.now, raw := d.raw, jtag := d.jtag, freeIdx := d.freeIdx }
  let n := n.modTrust fun t => { t with otp := d.trust.otp, vinLow := d.trust.vinLow, energy := d.trust.energy }
  let n := n.modTime fun t => { t with ageDone := d.raw / ageCycles, xtalDone := d.raw / xtalCycles, rawRel := d.tbase.rawRel }
  let n := (n.modSched fun x => { x with jtagHold := d.sched.jtagHold }).modDram fun m =>
    { m with ceCount := d.dram.ceCount, ueCount := d.dram.ueCount }
  let n := (n.set .GLB_STAT 23 20 kind).set .GLB_STAT 19 16 d.trust.otp.lc
  let n := (n.set .GLB_RSTCAUSE 31 28 cause).set .GLB_RSTCAUSE 22 20 (d.get .GLB_RSTCAUSE 22 20)
  n.set .SCH_ENGEN 31 16 (d.get .SCH_ENGEN 31 16)

/-- R451: a reset in progress absorbs one of the same or a lower kind (DEDUCED, log 79). -/
def absorbed (d : Dev) (kind : Nat) : Bool := d.trust.held && d.get .GLB_STAT 23 20 ≤ kind

/-- R451: a cold reset (DEDUCED, log 153); the ports that were down without a host's write still are (15_dependability.md R487). -/
def coldReset (d : Dev) (cause : Nat) : Dev :=
  if absorbed d rkCold then d else (wiped d rkCold cause).modRas fun _ => { portsDown := d.ras.portsDown }

/-- R450, R451: a power-on reset: the time base starts again too, and only the one-time-programmable store and the rail of the last fault
are kept. -/
def powerOn (d : Dev) (cause : Nat) : Dev :=
  let n := wiped { d with now := 0, raw := 0 } rkPowerOn cause
  { n with jtag := {}, sched := {}, tbase := {}, dram := {}, trust := { otp := d.trust.otp } }

/-! ### Warm reset (R453) -/

/-- Device fault code WARM_RESET. -/
def dfWarmReset : Nat := 0x24

/-- R453: every accepted descriptor ends with a record. -/
def endAll (d : Dev) : Dev :=
  d.each d.descs fun d x => postCompletion d x.1 x.2 { status := csAbortedFault, fcode := dfWarmReset }

/-- A list from behind its first marked word. -/
def pastMark : List QWord → List QWord
  | [] => []
  | w :: ws => if w.mark then ws else pastMark ws

/-- R404, R453: every word of a port's chain and area is discarded and counted; a packet that a flush has counted is not counted again. -/
def discardOut (x : Port) : Port :=
  let area := if x.evDiscard then pastMark x.area else x.area
  { x with
    evDisc := (x.evDisc + x.chain.length + x.area.length) % 2 ^ 64
    evDiscCpl := (x.evDiscCpl + flushedCompletions x.evOut (x.chain ++ area)) % 2 ^ 64 }

/-- 11_lanes_and_host_link.md R389, R409: what a port keeps: its counters, with the packets that the fresh session drops, and a new session
number (DEDUCED, log 151). -/
def keptPort (x : Port) : Port :=
  { session := (x.session + 1) % 65536, replays := x.replays, naks := x.naks, dupDrop := x.dupDrop, badPkt := x.badPkt
    strmDrop := x.strmDrop, sessDrop := (x.sessDrop + x.replay.length) % 2 ^ 64, evDisc := x.evDisc, evDiscCpl := x.evDiscCpl
    cmdDisc := x.cmdDisc, cmdBad := x.cmdBad }

/-- R409: what a lane keeps. -/
def keptLane (x : Lane) : Lane := { retrains := x.retrains, dropBlk := x.dropBlk }

/-- R453: a held submission is discarded and counted; 05_sites_and_dispatch.md R202: what a port of the scheduler keeps. -/
def keptSchPort (x : SchPort) : SchPort :=
  { accepted := x.accepted, completed := x.completed, refused := (x.refused + x.held.isSome.toNat) % 2 ^ 64, invalid := x.invalid }

/-- 15_dependability.md R481, R487, R490: what the RAS block keeps: an outage runs on, and takes down the ports of the set `up`; a host's reset is no
unavailability, and the ports that were down before it still are (DEDUCED, log 150) (DEDUCED, log 152). -/
def keptRas (x : Ras) (raw up : Nat) (outage : Bool) : Ras :=
  let x := { log := x.log, pos := x.pos, corrected := x.corrected, contained := x.contained, fatal := x.fatal
             unavail := x.unavail, unavailFrom := x.unavailFrom, portsDown := x.portsDown : Ras }
  if outage then { x with unavailFrom := some (x.unavailFrom.getD raw), outage := true, portsDown := x.portsDown ||| up }
  else { x with unavail := x.unavail + (raw - x.unavailFrom.getD raw), unavailFrom := none }

/-- 06_pattern_memory.md R226, 15_dependability.md R486: the writes held in self-refresh land, or are reported, before the wipe. -/
def landHeld (d : Dev) : Dev :=
  d.each d.dram.held fun d h => match h with
    | .write cls a bs => devLand d cls a bs
    | .port _ => d

/-- R453: a warm reset; `outage` says that it is no host's (15_dependability.md R487). -/
def warmReset (d : Dev) (cause : Nat) (outage : Bool) : Dev :=
  if absorbed d rkWarm then d
  else
    let o := endAll (landHeld d)
    let o := o.each (List.range 8) fun d p => d.modPort p discardOut
    let n := wiped o rkWarm cause
    let n := n.each (List.range 8) fun d p => (d.modPort p fun _ => keptPort (o.port p)).modSchPort p fun _ => keptSchPort (o.schPort p)
    let n := n.each (List.range 28) fun d l => d.modLane l fun _ => keptLane (o.lane l)
    let n := (n.modRas fun _ => keptRas o.ras o.raw (o.get .GLB_STAT 7 0) outage).modDram fun m => { m with wRefuse := o.dram.wRefuse }
    n.modTrust fun t => { t with warmResets := (o.trust.warmResets + 1) % 2 ^ 64 }

/-- 15_dependability.md R479: a warm reset that a fatal error has made due; the spec gives GLB_RSTCAUSE no code for it (DESIGN CHOICE, log 74). -/
def fatalReset (d : Dev) : Dev :=
  if d.ras.resetDue then
    let c := d.free 4
    warmReset c.2 c.1 true
  else d

/-- R473: a write of GLB_RST. -/
def rstWrite (d : Dev) (w : Word) : Dev :=
  if bit w 31 then coldReset d rcCold else if bit w 30 then warmReset d rcWarm false else d

/-- COLD (R451): port `p` writes GLB_RST with COLD. -/
def execCold (p : Fin 8) (w : Word) (s : State) : Host.Outcome State Fault Refusal :=
  act s fun d => regCommand d p .GLB_RST (setBit w 31 true) rstWrite

/-- WARM (R453): port `p` writes GLB_RST with WARM and without COLD. -/
def execWarm (p : Fin 8) (w : Word) (s : State) : Host.Outcome State Fault Refusal :=
  act s fun d => regCommand d p .GLB_RST (setBit (setBit w 31 false) 30 true) rstWrite

/-- R451: RESET_N has been low for `low` units: from 1 µs on it starts a cold reset, and below 200 ns it is ignored; between them the spec states
neither (DESIGN CHOICE, log 204). -/
def resetN (d : Dev) (low : Nat) : Dev :=
  if low < 200 * nano1 then d
  else if micro1 ≤ low ∨ Config.freeBool d.freeIdx then coldReset { d with freeIdx := d.freeIdx + 1 } rcResetN
  else { d with freeIdx := d.freeIdx + 1 }

/-- RESET_N_ASSERT (R451): for how long RESET_N is low is an operand (DESIGN CHOICE, log 4). -/
def execResetNAssert (low : Nat) (s : State) : Host.Outcome State Fault Refusal := act s fun d => resetN d low

/-! ### Power (R450, R452) -/

/-- The clock at a power-on reset: the counter and local time at 0. -/
def Clock.zero : Clock := {}

/-- 16_electrical_and_package.md R493: for how many base-clock cycles a power fail parks the outputs: 20 µs at least, where they were
driven (DESIGN CHOICE, log 154). -/
def parkTime (d : Dev) : Nat := if d.driven then 64000 + Config.freeNat d.freeIdx else 0

/-- R450: a power fail, on VIN or on a rail: outputs are parked, and the device is held in power-on reset. -/
def powerFail (d : Dev) (rail : Option Nat) : Dev :=
  let n := powerOn { d with freeIdx := d.freeIdx + 1 } (match rail with | some _ => rcRail | none => rcFail)
  let n := match rail with | some k => n.set .GLB_RSTCAUSE 22 20 k | none => n
  n.modTrust fun t => { t with failed := true, parked := parkTime d }

/-- R450: for how long VIN stays below 8.2 V, or a rail is seen outside its window, before the device makes a power fail. -/
def failTime (rail : Option (Fin 8)) : Nat := match rail with | some _ => micro1 | none => 2 * micro1

/-- POWER_FAIL (R450): `rail` names a rail outside its window, none: VIN below 8.2 V; for how long, `low`, is an operand (DESIGN CHOICE, log 4). -/
def execPowerFail (rail : Option (Fin 8)) (low : Nat) (s : State) : Host.Outcome State Fault Refusal :=
  if low < failTime rail then act s id
  else live s { s with clock := Clock.zero, dev := powerFail s.dev (rail.map (·.val)) }

/-- POWER_ON_RESET (R452): VIN rises, or a power fail ends, whose cause GLB_RSTCAUSE keeps (DESIGN CHOICE, log 161). -/
def execPowerOnReset (s : State) : Host.Outcome State Fault Refusal :=
  .next { s with
    clock := Clock.zero
    dev := powerOn s.dev (if s.dev.trust.failed then s.dev.get .GLB_RSTCAUSE 31 28 else rcVin) }

/-! ### The board profile (11_lanes_and_host_link.md R379, R385, Table 11.6) -/

/-- The little-endian number in `k` bytes of a list from offset `o`. -/
def fieldAt (bs : List Byte) (o k : Nat) : Nat := ofBytes ((bs.drop o).take k)

/-- R385: a profile that the device uses (DEDUCED, log 155). -/
def profileGood (bs : List Byte) : Bool :=
  let n := fieldAt bs 6 1
  decide (16 + 8 * n ≤ bs.length) && fieldAt bs 0 4 = 0x4650424F && fieldAt bs 4 1 = 1 && fieldAt bs 5 1 ≤ 1 && n ≤ 28 &&
  fieldAt bs 12 4 = crc32 (bs.take 12 ++ (bs.drop 16).take (8 * n))

/-- The valid entries of a profile. -/
def profileEntries (bs : List Byte) : List (List Byte) :=
  ((List.range (fieldAt bs 6 1)).map fun i => (bs.drop (16 + 8 * i)).take 8).filter fun e =>
    inSet (fieldAt e 1 1) 0 && fieldAt e 0 1 < 28

/-- An entry applied to its lane. -/
def applyEntry (d : Dev) (e : List Byte) : Dev :=
  let l := fieldAt e 0 1
  let f := fieldAt e 1 1
  let r := fieldAt e 2 1
  let d := (d.set (.LAN_CTL l) 23 23 (f / 4)).set (.LAN_CTL l) 22 22 (f / 8)
  let d := d.onlyIf (l < 24) fun d =>
    (((d.set (.LAN_CTL l) 27 26 r).set (.LAN_CTL l) 25 24 (r / 16)).set (.LAN_CTL l) 20 20 (f / 16)).set (.LAN_EQ l) 31 31 (f / 2)
  let d := d.onlyIf (l < 16) fun d => d.set (.LNK_PMAP (l / 8)) (4 * (l % 8) + 2) (4 * (l % 8)) (fieldAt e 3 1)
  ((d.set (.LAN_EQ l) 4 0 (fieldAt e 4 1)).set (.LAN_TXEQ l) 7 4 (fieldAt e 5 1)).set (.LAN_TXEQ l) 3 0 (fieldAt e 6 1)

/-- R385: the profile is applied, rejected, or none answers. -/
def applyProfile (d : Dev) (profile : Option (List Byte)) : Dev :=
  match profile with
  | none => d
  | some bs =>
    if profileGood bs then
      let es := profileEntries bs
      let d := ((d.set .LNK_GSTAT 31 30 1).set .LNK_GSTAT 29 24 es.length).wr .LNK_BOARDID (BitVec.ofNat 32 (fieldAt bs 8 4))
      d.each es applyEntry
    else d.set .LNK_GSTAT 31 30 2

/-- R378: the lanes that are enabled leave OFF. -/
def lanesStart (d : Dev) : Dev :=
  let d := d.each (List.range 28) fun d l => d.onlyIf (d.flag (.LAN_CTL l) 31) fun d => toCdr (sendMarks d l) l
  d.each (List.range 8) fun d p => portStatus d p (idleState d p)

/-! ### The release point (10_time_base_and_alignment.md R335, R339) -/

/-- R339: the time base at the release point: local time 0, the servo off and unlocked, compare units and pulse outputs disarmed. -/
def releaseTime (d : Dev) : Dev :=
  let d := { d with polls := {}, tbase := { rawRel := d.raw, ageDone := d.raw / ageCycles, xtalDone := d.raw / xtalCycles }, sched := { d.sched with tickAt := ({} : Sched).tickAt } }
  let d := (((d.set .TIM_STAT 30 28 0).clear .TIM_STAT 31).clear .TIM_STAT 27).wr .TIM_AGE 0
  let d := d.each (List.range 64) fun d n => d.clear (.TIM_CMPCTL n) 29
  d.each (List.range 4) fun d k => d.clear (.TIM_TPOCTL k) 29

/-- R452, R467: at the release point the profile is read, lanes leave OFF, and the boot ROM reads its image: one that a host has loaded, or that
of the boot flash. -/
def release (d : Dev) (profile : Option (List Byte)) (flash : List Byte) : Dev :=
  let d := lanesStart (applyProfile (releaseTime d) profile)
  let img : ImageLoad := match d.trust.nextFw with
    | some b => { kind := 1, data := b, checking := true, boot := some false }
    | none => { kind := 1, data := flash, checking := true, boot := some true }
  d.modTrust fun t => { t with held := false, kick := 0, nextFw := none, image := some img }

/-- R335: the counter at a release point: it has run since the time-base PLL locked, for at most 7 ms after a power-on reset. How long no rule
fixes: where the model has counted nothing it is a free value (DESIGN CHOICE, log 8). -/
def releaseRaw (s : State) : Nat := if s.clock.raw = 0 then 1 + Config.freeNat s.dev.freeIdx % 22400000 else s.clock.raw

/-- RELEASE_POINT (R339): the board profile's bytes, none where it does not answer, and those of the boot flash are operands (DESIGN CHOICE, log 4) (DESIGN CHOICE, log 14). -/
def execReleasePoint (profile : Option (List Byte)) (flash : List Byte) (s : State) : Host.Outcome State Fault Refusal :=
  if s.dev.trust.held then
    let raw := releaseRaw s
    let c : Clock := { raw, now := 0, cb := raw, tb := 0, rate := s.dev.tcomp }
    let d := State.mirror { s with clock := c }
    live s { s with clock := c, dev := release { d with freeIdx := d.freeIdx + 1 } profile flash }
  else act s id

end Sys2Proof.Machine
end

