-- ==== Sys2Proof/Machine/Trust.lean ====
section
/-! DEFINITION. Boot, images and packages, the life cycle, security versions, and quotes
(14_power_reset_and_trust.md R452, R460 to R475, 03_engines_and_microcode.md R87). -/
namespace Sys2Proof.Machine

/-! ### Images (R465, R466) -/

/-- Codes of Table 14.7. -/
def imFormat : Nat := 1
def imKey : Nat := 2
def imRevoked : Nat := 3
def imRollback : Nat := 4
def imSignature : Nat := 5

/-- Image kinds of Table 14.6, and the greatest body of each. -/
def kFirmware : Nat := 1
def kPackage : Nat := 2
def bodyLimit (kind : Nat) : Nat := if kind = kFirmware then 0x200000 else 0x100000

/-- Fields of the header of Table 14.6. -/
def imgVersion (b : List Byte) : Nat := fieldAt b 8 4
def imgSvn (b : List Byte) : Nat := fieldAt b 12 4
def imgBody (b : List Byte) : Nat := fieldAt b 16 4
def imgKey (b : List Byte) : Nat := fieldAt b 5 1

/-- R465: the signed hash: SHA-256 over the header with SIG zero, and the body. -/
def signedHash (b : List Byte) : Nat := sha256 (b.take 0x60 ++ List.replicate 64 0 ++ b.drop 0xA0)

/-- R466: MAGIC, KIND, reserved bytes, BODY_BYTES, and a package's FMT, which GLB_VERUCODE gives; the image is as long as its header says (DEDUCED, log 159). -/
def formatGood (kind : Nat) (b : List Byte) : Bool :=
  (kind = kFirmware || kind = kPackage) && fieldAt b 0 4 = 0x4F474D49 && fieldAt b 4 1 = kind && fieldAt b 0x14 12 = 0 && fieldAt b 0xA0 96 = 0 &&
  imgBody b ≤ bodyLimit kind && fieldAt b 6 2 = (if kind = kPackage then 0x100 else 0) && b.length = imgBody b + 256

/-- R466: the first failing check of Table 14.7, 0 for none. -/
def imageCheck (d : Dev) (kind : Nat) (b : List Byte) : Nat :=
  let o := d.trust.otp
  if !formatGood kind b then imFormat
  else if 4 ≤ imgKey b ∨ sha256 ((b.drop 0x20).take 64) ≠ Config.vendorHash (imgKey b) then imKey
  else if inSet o.revoked (imgKey b) then imRevoked
  else if imgSvn b < (if kind = kFirmware then o.fwMin else o.pkgMin) then imRollback
  else if !ecdsaVerify (fieldAt b 0x20 64) (signedHash b) (fieldAt b 0x60 32, fieldAt b 0x80 32) then imSignature
  else 0

/-- The version, SVN and measurement of a package. -/
def packageOf (b : List Byte) : Nat × Nat × Nat := (imgVersion b, imgSvn b, Config.imageMeasure b)

/-! ### The standard package (03_engines_and_microcode.md R87) -/

/-- R87: a package is loaded into the standard regions of every engine and of the nano-store, and measured (R470). -/
def loadPackage (d : Dev) (p : Nat × Nat × Nat) : Dev :=
  let d := d.each (List.range 16) fun d e => d.modEngine e fun x => { x with
    hstore := x.hstore.keep fun a => decide (3072 ≤ a)
    mptr := x.mptr.keep fun a => decide (6144 ≤ a)
    dir := x.dir.keep fun a => decide (64 ≤ a)
    repairs := x.repairs.filter fun r => !standardWord r.1 r.2.1, affinity := none
    liningOnly := x.liningOnly.filter (64 ≤ ·) }
  let d : Dev := { d with nano := d.nano.keep fun a => decide (6144 ≤ a) }
  let d := (d.set .GLB_VERUCODE 31 16 (1 + Config.loadedVersion p.1 % 65535)).modSched fun x => { x with ucodeHold := false }
  let d := d.modTrust fun t => { t with pkgVersion := p.1, pkgSvn := p.2.1, pkgDigest := p.2.2, package := none }
  measure d kPackage 0 0 p.1 0 p.2.2

/-! ### Boot (R452, R467) -/

/-- R467, R470: the firmware runs, and its measurement is log entry 0. -/
def runFirmware (d : Dev) (b : List Byte) (flash : Bool) : Dev :=
  let m := Config.imageMeasure b
  let d := (d.set .TRU_STAT 28 28 flash.toNat).clear .TRU_STAT 29
  let d := d.modTrust fun t => { t with fwVersion := imgVersion b, fwSvn := imgSvn b, fwKey := some (imgKey b), fwDigest := m }
  measure d kFirmware 0 0 (imgVersion b) 0 m

/-- R467: the check of the image that the boot ROM has read ends: it runs, or the boot ROM waits for one from HP0 (DEDUCED, log 157). -/
def bootImage (d : Dev) (x : ImageLoad) (flash : Bool) : Dev :=
  let d := d.modTrust fun t => { t with image := none }
  if imageCheck d kFirmware x.data = 0 then runFirmware d x.data flash else d.raise .TRU_STAT 29

/-- 15_dependability.md R484: engines that pass the march test are withdrawn no more. -/
def marchAll (d : Dev) (passed : BitVec 16) : Dev :=
  d.each (List.range 16) fun d e =>
    let d := d.onlyIf (bit passed e) fun d => d.clear .SCH_ENGEN (16 + e)
    d.set (.ENG_STAT e) 31 28 (if d.flag .SCH_ENGEN (16 + e) then 6 else 0)

/-- R452: READY becomes 1, and GLB_BOOTTIME is recorded; the outage of a reset ends, and a port still down is one (15_dependability.md R487)
(DEDUCED, log 156). -/
def becomeReady (d : Dev) : Dev :=
  let d := (d.raise .GLB_STAT 31).wr .GLB_VERFW (BitVec.ofNat 32 d.trust.fwVersion)
  (d.modTrust fun t => { t with bootTime := d.now }).modRas fun x =>
    unavailEnd { x with outage := false, unavailFrom := some (x.unavailFrom.getD d.raw) } d.raw

/-- R452, R467: the wipe has ended; where the firmware runs, the engines are tested, it checks and loads the package it carries, and READY
becomes 1. -/
def bootEnd (d : Dev) (pkg : List Byte) (passed : BitVec 16) : Dev :=
  if d.trust.held ∨ d.trust.bootPkg then d
  else
    let d := d.modTrust fun t => { t with wiped := true }
    if d.trust.fwKey.isNone then d
    else
      let d := (marchAll d passed).modTrust fun t => { t with bootPkg := true }
      if imageCheck d kPackage pkg ≠ 0 then d.raise .GLB_STAT 30 else becomeReady (loadPackage d (packageOf pkg))

/-- R87, R467: a package that waits is loaded once the firmware runs and has processed the package that it carries, and no engine is
dispatched; READY becomes 1 where that package had failed (12_register_interface.md R428). -/
def packageLoad (d : Dev) : Dev :=
  match d.trust.package with
  | none => d
  | some p =>
    if !d.trust.bootPkg || (List.range 16).any fun e => d.dispatched e || (d.burst e).isSome then d
    else (loadPackage d p).onlyIf (!d.ready) becomeReady

/-- UCODE_PACKAGE_LOAD (R87). -/
def execUcodePackageLoad (s : State) : Host.Outcome State Fault Refusal := act s packageLoad

/-- READY (R452): the package that the firmware carries, and the engines that pass their march test, are operands (DESIGN CHOICE, log 4). -/
def execReady (pkg : List Byte) (passed : BitVec 16) (s : State) : Host.Outcome State Fault Refusal :=
  act s fun d => bootEnd d pkg passed

/-! ### Image loads (R468) -/

/-- R468: a host's load ends with a code: accepted where it is 0 (DEDUCED, log 158). -/
def imageDone (d : Dev) (kind code : Nat) : Dev :=
  let d := (d.modTrust fun t => { t with image := none }).clear .TRU_IMGSTAT 31
  let d := (if code = 0 then d.outcome .TRU_IMGSTAT 30 29 else d.outcome .TRU_IMGSTAT 29 30).set .TRU_IMGSTAT 3 0 code
  d.onlyIf (kind = kPackage && code ≠ 0) fun d => d.raise .GLB_STAT 30

/-- R468: START: a load begins, or ends the one in progress with code FORMAT. -/
def imageStart (d : Dev) (kind : Nat) : Dev :=
  match d.trust.image with
  | some x => imageDone d x.kind imFormat
  | none => (d.modTrust fun t => { t with image := some { kind, data := [] } }).raise .TRU_IMGSTAT 31

/-- R468: FINISH: the check of the loaded image starts. -/
def imageFinish (d : Dev) : Dev := d.modTrust fun t => { t with image := t.image.map fun x => { x with checking := true } }

/-- R468: ABORT: the load is dropped. -/
def imageAbort (d : Dev) : Dev := (d.modTrust fun t => { t with image := none }).clear .TRU_IMGSTAT 31

/-- While the boot ROM checks its own image, it takes none from a host (DEDUCED, log 75). -/
def bootLoads (d : Dev) : Bool := d.trust.image.any fun x => x.boot.isSome

/-- R474: a write of TRU_IMGCTL (DEDUCED, log 160). -/
def imgctlWrite (d : Dev) (w : Word) : Dev :=
  let d := d.store .TRU_IMGCTL w
  if bootLoads d then d
  else if bit w 29 then imageAbort d
  else (d.onlyIf (bit w 31) fun d => imageStart d (bits w 1 0)).onlyIf (bit w 30) imageFinish

/-- R468: four bytes are appended; more than the header announces ends the load with code FORMAT. -/
def imgdataWrite (d : Dev) (w : Word) : Dev :=
  match d.trust.image with
  | none => d
  | some x =>
    if x.checking then d
    else
      let b := x.data ++ toBytes 4 w.toNat
      if 20 ≤ b.length ∧ imgBody b + 256 < b.length then imageDone d x.kind imFormat
      else d.modTrust fun t => { t with image := some { x with data := b } }

/-- IMAGE_START (R468): port `p` writes TRU_IMGCTL with START and without ABORT. -/
def execImageStart (p : Fin 8) (w : Word) (s : State) : Host.Outcome State Fault Refusal :=
  act s fun d => regCommand d p .TRU_IMGCTL (setBit (setBit w 29 false) 31 true) imgctlWrite

/-- IMAGE_DATA (R468): port `p` writes TRU_IMGDATA. -/
def execImageData (p : Fin 8) (w : Word) (s : State) : Host.Outcome State Fault Refusal :=
  act s fun d => regCommand d p .TRU_IMGDATA w imgdataWrite

/-- IMAGE_FINISH (R468): port `p` writes TRU_IMGCTL with FINISH and without ABORT. -/
def execImageFinish (p : Fin 8) (w : Word) (s : State) : Host.Outcome State Fault Refusal :=
  act s fun d => regCommand d p .TRU_IMGCTL (setBit (setBit w 29 false) 30 true) imgctlWrite

/-- IMAGE_ABORT (R468): port `p` writes TRU_IMGCTL with ABORT. -/
def execImageAbort (p : Fin 8) (w : Word) (s : State) : Host.Outcome State Fault Refusal :=
  act s fun d => regCommand d p .TRU_IMGCTL (setBit w 29 true) imgctlWrite

/-- R466, R468: the check of a host's image ends: accepted firmware runs after a warm reset; an accepted package waits to be loaded, and
dispatch is held. -/
def hostImage (d : Dev) (x : ImageLoad) : Dev :=
  let c := imageCheck d x.kind x.data
  let d := imageDone d x.kind c
  if c ≠ 0 then d
  else if x.kind = kFirmware then
    (warmReset d rcImage false).modTrust fun t => { t with nextFw := some x.data }
  else (d.modTrust fun t => { t with package := some (packageOf x.data) }).modSched fun y => { y with ucodeHold := true }

/-- R466 to R468: the checks of an image end. -/
def imageCheckEnd (d : Dev) : Dev :=
  match d.trust.image with
  | none => d
  | some x =>
    if !x.checking then d
    else match x.boot with
      | some flash => bootImage d x flash
      | none => hostImage d x

/-- IMAGE_CHECK_END (R466). -/
def execImageCheckEnd (s : State) : Host.Outcome State Fault Refusal := act s imageCheckEnd

/-! ### Security versions (R469) -/

/-- R469: a write of TRU_SVN raises minimums and revokes keys, or is refused. -/
def svnWrite (d : Dev) (w : Word) : Dev :=
  let o := d.trust.otp
  if bits w 13 0 < o.fwMin ∨ bits w 27 14 < o.pkgMin ∨ (d.trust.fwKey.any fun k => inSet (bits w 31 28) k) then d.raise .TRU_IMGSTAT 28
  else d.modTrust fun t => { t with otp := { o with fwMin := bits w 13 0, pkgMin := bits w 27 14, revoked := o.revoked ||| bits w 31 28 } }

/-- SVN_WRITE (R469): port `p` writes TRU_SVN. -/
def execSvnWrite (p : Fin 8) (w : Word) (s : State) : Host.Outcome State Fault Refusal :=
  act s fun d => regCommand d p .TRU_SVN w svnWrite

/-- R474: TRU_SVN as it reads, from the store. -/
def svnWord (d : Dev) : Word :=
  let o := d.trust.otp
  pack 32 [(28, 4, o.revoked), (14, 14, o.pkgMin), (0, 14, o.fwMin)]

/-! ### The measurement log (R471) -/

/-- R471: the entry that TRU_LOGSEL selects, where it is held. -/
def logShown (d : Dev) : Option (List Byte) :=
  let t := d.trust
  let back := (t.logPos % 2 ^ 32 + 2 ^ 32 - (d.rd .TRU_LOGSEL).toNat) % 2 ^ 32
  if 1 ≤ back ∧ back ≤ t.log.length then t.log[t.log.length - back]? else none

/-- R471, R474: a write of TRU_LOGSEL updates LOG_GONE and the data words together; they are 0 where the entry is not held. -/
def logselWrite (d : Dev) (w : Word) : Dev :=
  let d := d.store .TRU_LOGSEL w
  let e := logShown d
  (d.set .TRU_STAT 27 27 e.isNone.toNat).each (List.range 16) fun d w => d.wr (.TRU_LOGDATA w) (BitVec.ofNat 32 (fieldAt (e.getD []) (4 * w) 4))

/-- LOG_SELECT (R471): port `p` writes TRU_LOGSEL; LOG_GONE and the data words follow it. -/
def execLogSelect (p : Fin 8) (w : Word) (s : State) : Host.Outcome State Fault Refusal :=
  act s fun d => regCommand d p .TRU_LOGSEL w logselWrite

/-! ### The life cycle (R460 to R463) -/

/-- States in the encoding of GLB_STAT.LCSTATE. -/
def lcBlank : Nat := 0
def lcProvisioned : Nat := 1
def lcDeployed : Nat := 2
def lcReturned : Nat := 3
def lcRetired : Nat := 4

/-- Table 14.5. -/
def lcAllowed (a b : Nat) : Bool :=
  (a = lcBlank && (b = lcProvisioned || b = lcRetired)) || (a = lcProvisioned && (b = lcDeployed || b = lcRetired)) ||
  (a = lcDeployed && (b = lcReturned || b = lcRetired)) || (a = lcReturned && b = lcRetired)

/-- R461, R474: a request is refused. -/
def lcRefuse (d : Dev) (code : Nat) : Dev := (d.raise .TRU_LCSTAT 31).set .TRU_LCSTAT 1 0 code

/-- Table 14.5, R462, R463: the action before the state is written: an identity key is generated, a scalar of 1 to n - 1 (DESIGN CHOICE, log 9), or destroyed. -/
def lcAction (d : Dev) (target : Nat) : Dev :=
  if target = lcProvisioned then
    let d : Dev := { d with freeIdx := d.freeIdx + 1 }
    d.modTrust fun t => { t with otp := { t.otp with key := some (1 + Config.randomScalar d.freeIdx % (orderN - 1)) } }
  else d.onlyIf (target = lcRetired) fun d => d.modTrust fun t => { t with otp := { t.otp with key := none } }

/-- R462: a power fail cuts a transition off: the old state stays in force, a key slot begun is abandoned, and whether a key has been
destroyed is open (DESIGN CHOICE, log 76). -/
def lcCut (d : Dev) (target : Nat) : Dev :=
  let d := if target = lcProvisioned then d.modTrust fun t => { t with otp := { t.otp with abandoned := t.otp.abandoned + 1 } }
    else if Config.freeBool d.freeIdx then lcAction { d with freeIdx := d.freeIdx + 1 } target else { d with freeIdx := d.freeIdx + 1 }
  powerFail d none

/-- R461: an allowed request takes effect at once, and ends in a cold reset. -/
def lcRequest (d : Dev) (target : Nat) (cut : Bool) : Dev :=
  let o := d.trust.otp
  if !lcAllowed o.lc target then lcRefuse d 1
  else if target = lcProvisioned ∧ 2 ≤ o.abandoned then lcRefuse d 2
  else if cut then lcCut d target
  else (coldReset ((lcAction d target).modTrust fun t => { t with otp := { t.otp with lc := target } }) rcLife).set .GLB_STAT 19 16 target

/-- R474: a write of TRU_LCREQ. -/
def lcreqWrite (cut : Bool) (d : Dev) (w : Word) : Dev :=
  let d := d.store .TRU_LCREQ w
  if bit w 31 then lcRequest d (bits w 2 0) cut else d

/-- LIFECYCLE_TRANSITION (R461): port `p` writes TRU_LCREQ with GO; `cut` says that power fails before the state bits are written (DESIGN CHOICE, log 76). -/
def execLifecycleTransition (p : Fin 8) (w : Word) (cut : Bool) (s : State) : Host.Outcome State Fault Refusal :=
  let d := regCommand s.mirror p .TRU_LCREQ (setBit w 31 true) (lcreqWrite cut)
  live s { s with clock := if d.trust.failed then Clock.zero else s.clock, dev := d }

/-- Table 14.4: vendor debug is enabled. -/
def vendorDebug (lc : Nat) : Bool := lc = lcBlank || lc = lcProvisioned || lc = lcReturned

/-- R474: TRU_STAT as it reads: what it shows of the life cycle, from the release point on. -/
def truStat (d : Dev) : Word :=
  let on := !d.trust.held
  setBit (setBit (d.rd .TRU_STAT) 31 (on && d.trust.otp.key.isSome)) 30 (on && vendorDebug d.trust.otp.lc)

/-- R463: word `w` of the public key, which the boot derives; 0 without a key. -/
def idKeyWord (d : Dev) (w : Nat) : Word :=
  match if d.trust.held then none else d.trust.otp.key with
  | some k => BitVec.ofNat 32 (publicKey k / 2 ^ (32 * w))
  | none => 0

/-! ### Quotes (R472) -/

/-- The nonce in a port's registers. -/
def nonceOf (d : Dev) (p : Nat) : List Byte := (List.range 8).flatMap fun w => toBytes 4 (d.rd (.TRU_QNONCE p w)).toNat

/-- R472: a GO: the nonce is taken and a quote queued, or one is pending already. -/
def quoteGo (p : Nat) (d : Dev) (w : Word) : Dev :=
  if !bit w 31 then d
  else if d.flag (.TRU_QSTAT p) 31 then d.raise (.TRU_QSTAT p) 29
  else (d.modTrust fun t => { t with signing := t.signing ++ [.quote p (nonceOf d p)] }).raise (.TRU_QSTAT p) 31

/-- QUOTE_GO (R472): port `p` writes its TRU_QCTL with GO. -/
def execQuoteGo (p : Fin 8) (w : Word) (s : State) : Host.Outcome State Fault Refusal :=
  act s fun d => regCommand d p (.TRU_QCTL p) (setBit w 31 true) (quoteGo p)

/-- Table 14.9: the body of a quote. -/
def quoteBody (d : Dev) (p : Nat) (nonce : List Byte) : List Byte :=
  let t := d.trust
  toBytes 4 0x544F5551 ++ toBytes 2 1 ++ toBytes 2 0 ++ toBytes 1 t.otp.lc ++ toBytes 1 (d.timeValid.toNat + 2 * (vendorDebug t.otp.lc).toNat) ++
  toBytes 1 p ++ toBytes 1 0 ++ toBytes 4 (d.rd .GLB_VERFW).toNat ++ toBytes 8 Config.serial ++ timeBytes d.now ++ toBytes 4 d.ucode ++
  toBytes 8 t.logPos ++ digestBytes t.logDigest ++ nonce ++ toBytes 16 0

/-- R472, R474: words placed in TRU_QBODY from word `w` on. -/
def putQuote (p : Nat) (d : Dev) (w : Nat) : List Word → Dev
  | [] => d
  | x :: xs => putQuote p (d.wr (.TRU_QBODY p w) x) (w + 1) xs

/-- The words of bytes, lowest first. -/
def wordsOf (k : Nat) (bs : List Byte) : List Word := (List.range k).map fun i => BitVec.ofNat 32 (fieldAt bs (4 * i) 4)

/-- R472: the trust engine comes to a port's quote: it builds the body and signs it, or fails without a key. -/
def quoteSigned (d : Dev) : Dev :=
  match d.trust.signing with
  | .quote p nonce :: rest =>
    let d := (d.modTrust fun t => { t with signing := rest }).clear (.TRU_QSTAT p) 31
    match d.trust.otp.key with
    | none => d.raise (.TRU_QSTAT p) 28
    | some k =>
      let b := quoteBody d p nonce
      let g := ecdsaSign k (sha256 b)
      (putQuote p d 0 (wordsOf 48 (b ++ digestBytes g.1 ++ digestBytes g.2))).raise (.TRU_QSTAT p) 30
  | _ => d

/-- QUOTE_SIGNED (R472). -/
def execQuoteSigned (s : State) : Host.Outcome State Fault Refusal := act s quoteSigned

end Sys2Proof.Machine
end

