-- ==== Sys2Proof/Machine/Power.lean ====
section
/-! DEFINITION. Supply monitors, the watchdog, standby and resume (14_power_reset_and_trust.md R449, R450, R454, R456 to R458). -/
namespace Sys2Proof.Machine

/-! ### Monitors (R450) -/

/-- R450: a fall of VIN below 8.7 V: a RAS warning whose island and address the spec does not give (DESIGN CHOICE, log 77) (DEDUCED, log 162). -/
def vinLow (d : Dev) : Dev :=
  let i := d.free 6
  let a := i.2.free 64
  let d := (a.2.raise .GLB_PWRSTAT 29).modTrust fun t => { t with vinLow := (t.vinLow + 1) % 2 ^ 64 }
  rasReport d 0x0F sevWarning i.1 a.1 0 none none

/-- Table 14.1: the windows of the rails, nominal in 0.1 mV and tolerance in percent, by index. -/
def railWindows : List (Nat × Nat) := [(8000, 5), (7500, 5), (9000, 3), (12000, 3), (18000, 5), (9000, 3), (11000, 3), (4000, 5)]

/-- R449: a voltage within a tolerance of a nominal value. -/
def railGood (v : Nat) (nominal : Int) (tol : Nat) : Bool := decide (((v : Int) - nominal).natAbs * 100 ≤ tol * nominal.natAbs)

/-- R449: the core supplies of the islands, each against its own trimmed value, a step being 2.5 mV. -/
def coresGood (d : Dev) (cores : List (BitVec 16)) : Bool :=
  ((List.range 41).zip cores).all fun x => railGood x.2.toNat (7500 + 25 * signed 7 (d.get (.GLB_VTRIM x.1) 6 0)) 5

/-- R449, R473: the rails with VCORE at the lowest island, and RAIL_OK, one bit a rail in its window. -/
def railsShown (rails cores : List (BitVec 16)) : List Nat :=
  (rails.map (·.toNat)).set 1 (cores.foldl (fun m v => min m v.toNat) 65535)
def railsOk (d : Dev) (rails cores : List (BitVec 16)) : Nat :=
  (((List.range 8).zip (rails.zip railWindows)).map fun x =>
    if (if x.1 = 1 then coresGood d cores else railGood x.2.1.toNat x.2.2.1 x.2.2.2) then 2 ^ x.1 else 0).sum

/-- R449, R450: a measurement of VIN and of the rails. -/
def vinSample (d : Dev) (vin pin : Nat) (rails cores : List (BitVec 16)) : Dev :=
  let old := d.get .GLB_VIN 15 0
  let d := (d.wr .GLB_VIN (pack 32 [(16, 16, pin), (0, 16, vin)])).set .GLB_PWRSTAT 7 0 (railsOk d rails cores)
  let d := d.each ((List.range 8).zip (railsShown rails cores)) fun d x => d.wr (.GLB_RAIL x.1) (BitVec.ofNat 32 x.2)
  let d := d.modTrust fun t => { t with energy := t.energy + pin }
  d.onlyIf (vin < 8700 && (8700 ≤ old || old = 0)) vinLow

/-- VIN_SAMPLE (R450): VIN in mV, input power in 10 mW, the eight rails and the core supplies of the 41 islands in 0.1 mV (DESIGN CHOICE, log 4). -/
def execVinSample (vin pin : BitVec 16) (rails cores : List (BitVec 16)) (s : State) : Host.Outcome State Fault Refusal :=
  polled s 2 (10 * micro1) fun d => vinSample d vin.toNat pin.toNat rails cores

/-! ### The watchdog (R454) -/

/-- R473: TIMEOUT in ms, where 0 means 65,536. -/
def Dev.wdogTimeout (d : Dev) : Nat := (if d.get .GLB_WDOG 15 0 = 0 then 65536 else d.get .GLB_WDOG 15 0) * milli1

/-- R454, 15_dependability.md Table 15.1: the watchdog expires: a fatal report, and a warm reset. -/
def watchdogExpiry (d : Dev) : Dev := warmReset (rasReport d 0x10 sevFatal 10 0 0 none none) rcWatchdog true

/-- WATCHDOG_EXPIRY (R454). -/
def execWatchdogExpiry (s : State) : Host.Outcome State Fault Refusal :=
  if s.dev.flag .GLB_WDOG 31 then actAt s (some (s.dev.trust.kick + s.dev.wdogTimeout)) watchdogExpiry else act s id

/-- R454, R473: a write of GLB_WDOG. -/
def wdogWrite (d : Dev) (w : Word) : Dev :=
  (d.store .GLB_WDOG w).onlyIf (bit w 30) fun d => d.modTrust fun t => { t with kick := d.now }

/-- KICK (R454): the firmware, or port `p`, writes GLB_WDOG with KICK. -/
def execKick (p : Option (Fin 8)) (w : Word) (s : State) : Host.Outcome State Fault Refusal :=
  act s fun d => match p with
    | none => wdogWrite d (setBit w 30 true)
    | some p => regCommand d p .GLB_WDOG (setBit w 30 true) wdogWrite

/-! ### Standby (R456) -/

/-- GLB_PWRSTAT.STATE: 0 active, 1 entering standby, 2 standby, 3 resuming. -/
def Dev.pwrState (d : Dev) : Nat := d.get .GLB_PWRSTAT 31 30
def Dev.setPwr (d : Dev) (v : Nat) : Dev := d.set .GLB_PWRSTAT 31 30 v

/-- R456: the cases in which standby is refused. -/
def standbyRefused (d : Dev) : Bool :=
  (d.descs.any fun x => x.2.dispatched) || ((List.range 8).any fun n => d.srcState n ≠ 0) || ((List.range 16).any fun u => d.acqState u ≠ 0) ||
  ((List.range 16).any fun s => d.ringOn s) || d.cal.op.isSome || d.pwrState ≠ 0

/-- R456: the cuffs hold their outputs at 0 and stop their PLLs; the stamper loops lose lock with them (09_time_measurement.md R318). -/
def cuffsStop (d : Dev) : Dev :=
  let d := d.each (List.range 128) fun d c => d.modChan c fun x => { x with en := false, data := false }
  let d := d.each (List.range 8) fun d k => d.clear (.CUF_PLL k) 31
  d.each (List.range 136) fun d i => (d.clear (.TDC_ISTAT i) 31).modStampIn i fun x => { x with good := 0 }

/-- The CL and ST lanes. -/
def auxLanes : List Nat := (List.range 12).map (16 + ·)

/-- R456: standby has been reached; a resume kept during entry takes effect (R458). -/
def resume (d : Dev) : Dev :=
  if d.pwrState = 1 then d.modTrust fun t => { t with resumeKept := true }
  else if d.pwrState ≠ 2 then d
  else
    let d := exitSelfRefresh (d.setPwr 3)
    let d := d.each auxLanes fun d l => d.onlyIf (d.flag (.LAN_CTL l) 31) fun d => toCdr d l
    d.modTrust fun t => { t with resuming := true, resumeKept := false }

/-- R456: entry ends once the DRAM is in self-refresh (DEDUCED, log 165). -/
def standbyReached (d : Dev) : Dev :=
  if d.pwrState ≠ 1 ∨ d.dramState ≠ 2 ∨ d.dram.exitKept then d
  else
    let d := d.setPwr 2
    d.onlyIf d.trust.resumeKept resume

/-- R456: the standby sequence (DEDUCED, log 164). -/
def standby (d : Dev) : Dev :=
  let d := (d.setPwr 1).modSched fun x => { x with standby := true }
  let d := enterSelfRefresh d
  let d := (cuffsStop d).each auxLanes laneOff
  standbyReached (d.modTrust fun t => { t with resumeKept := false })

/-- R456, R473: a write of GLB_PWR; one that asks for standby where it is refused changes nothing else (DEDUCED, log 163). -/
def pwrWrite (d : Dev) (w : Word) : Dev :=
  if bit w 31 && standbyRefused d then d.raise .GLB_PWRSTAT 28
  else ((d.store .GLB_PWR w).onlyIf (bit w 31) standby).onlyIf (bit w 30) resume

/-- STANDBY (R456): port `p` writes GLB_PWR with STANDBY. -/
def execStandby (p : Fin 8) (w : Word) (s : State) : Host.Outcome State Fault Refusal :=
  act s fun d => regCommand d p .GLB_PWR (setBit w 31 true) pwrWrite

/-- RESUME (R458): port `p` writes GLB_PWR with RESUME and without STANDBY. -/
def execResume (p : Fin 8) (w : Word) (s : State) : Host.Outcome State Fault Refusal :=
  act s fun d => regCommand d p .GLB_PWR (setBit (setBit w 31 false) 30 true) pwrWrite

/-- WAKE_N_FALL (R458, 16_electrical_and_package.md R503): WAKE_N falls: it was high for `high` and stays low for `low`, in units (DESIGN CHOICE, log 4); a
level shorter than the filter is ignored. -/
def execWakeNFall (high low : Nat) (s : State) : Host.Outcome State Fault Refusal :=
  act s fun d => d.onlyIf (200 * nano1 ≤ high && 200 * nano1 ≤ low) resume

/-- R458: dispatch and delay-list release restart once the DRAM has left self-refresh and every cuff PLL is locked. -/
def dispatchRestart (d : Dev) : Dev :=
  if d.trust.resuming ∧ d.dramActive ∧ (List.range 8).all fun k => d.flag (.CUF_PLL k) 31 then
    ((d.setPwr 0).modSched fun x => { x with standby := false }).modTrust fun t => { t with resuming := false }
  else d

/-- RESUME_DISPATCH_RESTART (R458). -/
def execResumeDispatchRestart (s : State) : Host.Outcome State Fault Refusal := act s dispatchRestart

/-- 06_pattern_memory.md R226, R227: exit from self-refresh ends; entry to standby that has waited for it goes on. -/
def exitEnded (d : Dev) : Dev :=
  let d := selfRefreshExited d
  d.onlyIf (d.pwrState = 1) enterSelfRefresh

end Sys2Proof.Machine
end

