-- ==== Sys2Proof/Machine/Errors.lean ====
section
/-! DEFINITION. Errors of SRAM items, seams and mirrors (15_dependability.md R476 to R480, 01_burst_path.md R15, R20). -/
namespace Sys2Proof.Machine

/-! ### SRAM items (R477, Table 15.1) -/

/-- The SOURCE of an item. -/
def itemSource : SramItem → Nat
  | .control _ store _ _ => if store.val = 0 then 0x01 else 0x02
  | .cache _ => 0x03
  | .quad _ => 0x04
  | .capture _ _ | .acquisition _ _ | .source _ => 0x05
  | .link _ => 0x06
  | .descriptors => 0x07
  | .service => 0x08

/-- The engine, sites and port that a record about an item names. -/
def itemEngine (d : Dev) : SramItem → Option Nat
  | .control e _ _ _ | .cache e => some e
  | .quad s => d.siteEngine s
  | _ => none
def engineSites (d : Dev) (e : Nat) : Nat := match d.burst e with | some b => 2 ^ b.site | none => 0
def itemSites (d : Dev) : SramItem → Nat
  | .control e _ _ _ | .cache e => engineSites d e
  | .quad s | .capture s _ => 2 ^ s.val
  | .acquisition u _ => 2 ^ d.acqSite u
  | .source n => 2 ^ d.srcSite n
  | _ => 0
def itemPort : SramItem → Option Nat
  | .link p => some p
  | _ => none

/-- A report about an item. -/
def itemReport (d : Dev) (x : SramItem) (sev island addr : Nat) : Dev :=
  rasReport d (itemSource x) sev island addr (itemSites d x) (itemEngine d x) (itemPort x)

/-- R94, R96: an uncorrectable control-store word: the twin, or CSTORE_UNCORR; with no routine at work, or where the routine at work runs from
its lining and does not read the word, only the repair. -/
def controlError (d : Dev) (e store addr k : Nat) : Dev :=
  let repair := needRepair (cstoreUncorrected d e store addr) e store addr k
  match routineNow d e with
  | none => repair
  | some r => if store ≠ 0 ∨ (!runsLining d e r && !bit (d.dirEntry e r) 28) then cstoreTrap d e store addr
      else if runsLining d e r then repair else twinTrap d e addr

/-- R477: a line of a cache that can be fetched again: one of a loadable, or one of the stream at or above the floor of the ring (R230). -/
def refetched (d : Dev) (b : Burst) (ring : Bool) (pos : Nat) : Bool := !ring || decide (d.ringFloor b.site ≤ pos)

/-- R100, R477: an uncorrectable line of a cache: line `addr` of the prefetch buffer, or else the line of the pleat cache at work. It is
dropped, to be fetched again, or delivers its words poisoned: the word that consumes one traps. -/
def cacheError (d : Dev) (e island addr : Nat) : Dev :=
  let report (sev : Nat) : Dev := engineError (itemReport d (.cache (Fin.ofNat 16 e)) sev island addr) e
  let lost (sev : Nat) : Dev := itemReport d (.cache (Fin.ofNat 16 e)) sev island addr
  match d.burst e with
  | none => report sevCorrected
  | some b => match b.lines[addr]? with
    | some l =>
      if refetched d b l.ring (64 * l.key) then (report sevCorrected).modBurst e fun b => { b with lines := b.lines.eraseIdx addr }
      else (lost sevContained).modBurst e fun b => { b with lines := b.lines.modify addr fun l => { l with poison := true } }
    | none =>
      if refetched d b b.inStream (8 * b.pc) then
        (report sevCorrected).modBurst e fun b => { b with pleat := b.pleat.keep fun a => decide (a / 8 ≠ b.pc / 8) }
      else (lost sevContained).modBurst e fun b => { b with pleatBad := b.pc / 8 :: b.pleatBad }

/-- A line of a list marked. -/
def markLine (n : Nat) (l : List BufLine) : List BufLine := l.zipIdx.map fun p => if p.2 = n then { p.1 with poison := true } else p.1

/-- R301, R477: the line that a source unit plays from is bad (DEDUCED, log 147). -/
def sourceBad (d : Dev) (n : Nat) : Dev :=
  d.modSrc n fun x => { x with play := x.play.map fun p =>
    let a := sampleAddr d n p.seg (p.pos / 2 ^ 32) / 64 * 64
    { p with lines := p.lines.map fun l => if l.addr = a then { l with poison := true } else l } }

/-- R483: where the error names an engine, it may withdraw it. -/
def thenWithdraw (d : Dev) (e : Option Nat) : Dev := match e with | some e => withdrawCheck d e | none => d

/-- Table 15.1, the column Uncorrectable. -/
def itemLost (d : Dev) (x : SramItem) (island addr : Nat) : Dev :=
  match x with
  | .control e store a k => thenWithdraw (controlError d e store a k) (some e)
  | .cache e => thenWithdraw (cacheError d e island addr) (some e)
  | .quad s => thenWithdraw (cutSites (itemReport d x sevContained island addr) (2 ^ s.val) dfDatapath) (d.siteEngine s)
  | .capture s n => (itemReport d x sevContained island addr).modSite s fun y => { y with cap := { y.cap with buf := markLine n y.cap.buf } }
  | .acquisition u n => (itemReport d x sevContained island addr).modAcq u fun a => { a with buf := markLine n a.buf }
  | .source n => sourceBad (itemReport d x sevContained island addr) n
  | .link p => dropSession (itemReport d x sevContained island addr) p
  | .descriptors | .service => fatalReset (itemReport d x sevFatal island addr)

/-- R81, Table 15.1, the column Corrected. -/
def itemCorrected (d : Dev) (x : SramItem) (island addr : Nat) : Dev :=
  match x with
  | .control e store a _ => cstoreCorrected d e store a
  | x => itemReport d x sevCorrected island addr

/-- SRAM_ERROR (R477): the item, whether the code corrects it, and the island and address of the record (DESIGN CHOICE, log 4) (DESIGN CHOICE, log 167). -/
def execSramError (x : SramItem) (corrected : Bool) (island : Fin 41) (addr : BitVec 64) (s : State) : Host.Outcome State Fault Refusal :=
  act s fun d => if corrected then itemCorrected d x island addr.toNat else itemLost d x island addr.toNat

/-- R480: the line that a source unit plays from is dropped, and comes from the DRAM again. -/
def sourceDrop (d : Dev) (n : Nat) : Dev :=
  d.modSrc n fun x => { x with play := x.play.map fun p =>
    { p with lines := p.lines.filter fun l => l.addr ≠ sampleAddr d n p.seg (p.pos / 2 ^ 32) / 64 * 64 } }

/-- R480: what a scrub read finds: 0 nothing, 1 an error it corrects, 2 an uncorrectable word, which in a control store is repaired at once, in a
cache or a buffer is invalidated, and otherwise acts as Table 15.1 states. A buffer that holds the only copy of a line keeps it as
poisoned (DEDUCED, log 166). -/
def scrubFound (d : Dev) (x : SramItem) (outcome island addr : Nat) : Dev :=
  if !d.flag .RAS_SCRUB 31 ∨ outcome = 0 then d
  else if outcome = 1 then itemCorrected d x island addr
  else match x with
    | .control e store a k => thenWithdraw (needRepair (cstoreUncorrected d e store a) e store a k) (some e)
    | .source n => sourceDrop (itemReport d x sevCorrected island addr) n
    | x => itemLost d x island addr

/-- R489: the scrub period. -/
def Dev.scrubPeriod (d : Dev) : Nat := (if d.get .RAS_SCRUB 15 0 = 0 then 65536 else d.get .RAS_SCRUB 15 0) * second1

/-- R480: the scrub reads each word once in a period: `x` at `addr` is noted; a new period begins where the last one is over. -/
def scrubTurn (d : Dev) (x : SramItem) (addr : Nat) : Dev :=
  if !d.flag .RAS_SCRUB 31 then d
  else d.modRas fun r =>
    if r.scrubFrom + d.scrubPeriod ≤ d.now then { r with scrubFrom := d.now, scrubbed := [(x, addr)] }
    else { r with scrubbed := (x, addr) :: r.scrubbed }

/-- R480: a word that has been read in this period is due again when it ends. -/
def scrubDue (d : Dev) (x : SramItem) (addr : Nat) : Option Nat :=
  if d.ras.scrubbed.contains (x, addr) then some (d.ras.scrubFrom + d.scrubPeriod) else none

/-- SRAM_SCRUB_READ (R480). -/
def execSramScrubRead (x : SramItem) (outcome : Fin 3) (island : Fin 41) (addr : BitVec 64) (s : State) : Host.Outcome State Fault Refusal :=
  actAt s (scrubDue s.dev x addr.toNat) fun d => scrubFound (scrubTurn d x addr.toNat) x outcome island addr.toNat

/-! ### Seams (01_burst_path.md R20, Table 1.5) -/

/-- Table 1.5: the island that receives a seam's items. -/
def seamIsland (n : Nat) : Nat :=
  if n < 16 then 10 else if n < 32 then n - 4 else if n = 32 then 8 else if n = 33 then 10 else if n < 42 then n - 34 else if n < 50 then 8
  else if n = 50 then 9 else if n = 51 then 8 else if n = 52 then 9 else if n = 53 then 10 else if n < 62 then n - 26 else if n < 70 then 8
  else if n < 74 then n - 34 else if n < 78 then 11 else if n = 78 then 40 else if n = 79 then 10 else if n = 80 then 11 else if n = 81 then 10
  else if n < 90 then n - 82 else 10

/-- Table 1.5: the cuff of seams 34 to 49, and the lane of a lane seam. -/
def seamCuff (n : Nat) : Option Nat := if 34 ≤ n ∧ n < 50 then some ((n - 34) % 8) else none
def seamLane (n : Nat) : Option Nat :=
  if n < 32 then some (n % 16) else if 54 ≤ n ∧ n < 70 then some (16 + (n - 54) % 8) else if 70 ≤ n ∧ n < 78 then some (24 + (n - 70) % 4) else none

/-- Table 15.1: the seams whose errors are fatal. -/
def seamFatal (n : Nat) : Bool := [32, 33, 50, 51, 52, 53, 80, 81].contains n

/-- R20, R477: the seam is fenced, and what it carried is lost. -/
def seamError (d : Dev) (n : Nat) : Dev :=
  if d.seamFenced n then d
  else
    let sites := match seamCuff n with | some k => d.cuffSites k | none => 0
    let port := match seamLane n with | some l => if l < 16 then some (d.lanePort l) else none | none => none
    let d := d.raise (.RAS_SEAMFENCE (n / 32)) (n % 32)
    let d := rasReport d 0x09 (if seamFatal n then sevFatal else sevContained) (seamIsland n) n sites none port
    let d := cutSites d sites dfSeam
    let d := match seamLane n with | some l => degrade d l | none => d
    fatalReset d

/-- SEAM_PARITY_ERROR (R20). -/
def execSeamParityError (n : Fin 98) (s : State) : Host.Outcome State Fault Refusal := act s fun d => seamError d n

/-! ### Mirrors (01_burst_path.md R15) -/

/-- Table 15.1: an island's mirror has failed its check; the record has no ADDR that Table 15.2 names, and holds 0 (DESIGN CHOICE, log 77). Cuffs are islands 0 to 7, the engine cluster 8, the control island 10
and the ML0 island 40; no other island has a mirror. -/
def mirrorFailed (d : Dev) (i : Nat) : Dev :=
  if i < 8 then cutSites (rasReport d 0x0D sevContained i 0 (d.cuffSites i) none none) (d.cuffSites i) dfMirror
  else if i = 8 ∨ i = 10 then fatalReset (rasReport d 0x0D sevFatal i 0 0 none none)
  else if i = 40 then ptpDiscard (rasReport d 0x0D sevContained i 0 0 none none)
  else d

/-- R15: the islands that keep a mirror. -/
def hasMirror (i : Nat) : Bool := i < 8 || i = 8 || i = 10 || i = 40

/-- R15: the check at a mark: a mirror that is off by `diff` is reported, and stays off until the next mark reloads it. -/
def mirrorCheck (d : Dev) (i : Nat) (diff : Int) : Dev :=
  if diff = 0 ∨ !hasMirror i then d else mirrorFailed { d with mirrors := d.mirrors.put 0 i diff } i

/-- MIRROR_CHECK (R15): by how much the mirror differs from the mark, in units, is an operand (DESIGN CHOICE, log 4). -/
def execMirrorCheck (i : Fin 41) (diff : Int) (s : State) : Host.Outcome State Fault Refusal := act s fun d => mirrorCheck d i diff

end Sys2Proof.Machine
end

