-- ==== Sys2Proof/Machine/Jtag.lean ====
section
/-! DEFINITION. The test access port (16_electrical_and_package.md R506, R507). -/
namespace Sys2Proof.Machine

/-- R506: the IDCODE: version 1, part 0x9128, manufacturer code 0x2B3, and 1. -/
def idcode : Nat := 0x19128567

/-- R507: the instructions under which the boundary cells own the balls. -/
def ownsBalls : JtagInstr → Bool
  | .extest | .clamp | .highz | .extestPulse | .extestTrain => true
  | _ => false

/-- R507: every lane loses its partner, and its port goes down. -/
def partnersLost (d : Dev) : Dev :=
  let d := d.each (List.range 28) fun d l => d.onlyIf (sgBlock ≤ d.stage l && d.stage l ≤ sgUp) fun d => toCdr d l
  d.each (List.range 8) fun d p => d.onlyIf (d.portUp p) fun d => portDown d p false

/-- R506, R507: an Update-IR loads an instruction. -/
def loadInstr (d : Dev) (i : JtagInstr) : Dev :=
  let d : Dev := { d with jtag := { d.jtag with instr := i } }
  let d := d.modSched fun x => { x with jtagHold := ownsBalls i }
  d.onlyIf (ownsBalls i) partnersLost

/-- R507: a reset of the TAP: the instruction is IDCODE (PRESUMED, log 30), and the balls are the core's. -/
def tapReset (d : Dev) : Dev := { d with jtag := {} }.modSched fun x => { x with jtagHold := false }

/-- TAP_RESET (R507): by TMS, or by TRST_N, low for `trst` units (DESIGN CHOICE, log 4), of which less than 20 ns is ignored (R503). -/
def execTapReset (trst : Option Nat) (s : State) : Host.Outcome State Fault Refusal :=
  act s fun d => d.onlyIf (trst.all fun t => 20 * nano1 ≤ t) tapReset

/-- The number whose bits are a list, lowest first. -/
def ofBools : List Bool → Nat
  | [] => 0
  | b :: bs => b.toNat + 2 * ofBools bs

/-- R506, R507: an instruction that selects the boundary register, by which the cells drive the balls: the cells capture the balls, which is an
operand (DESIGN CHOICE, log 4), are shifted out, and take what is shifted in (DESIGN CHOICE, log 78). -/
def boundaryTest (d : Dev) (i : JtagInstr) (sample shifted : List Bool) : Dev :=
  let d := loadInstr d i
  { d with jtag := { d.jtag with out := ofBools sample, boundary := shifted } }

/-- R506, R507: an instruction that selects the bypass register and under which the cells drive the balls as last loaded, or leave them undriven;
a shift passes `tdi` (DESIGN CHOICE, log 78). -/
def bypassed (d : Dev) (i : JtagInstr) (tdi : Bool) : Dev :=
  let d := loadInstr d i
  { d with jtag := { d.jtag with out := 0, bypassBit := tdi } }

/-- BYPASS (R506): the bypass register is selected; a capture loads it with 0, and a shift passes `tdi` (DESIGN CHOICE, log 78). -/
def execBypass (tdi : Bool) (s : State) : Host.Outcome State Fault Refusal :=
  act s fun d => bypassed d .bypass tdi

/-- IDCODE (R506). -/
def execIdcode (s : State) : Host.Outcome State Fault Refusal :=
  act s fun d => let d := loadInstr d .idcode
    { d with jtag := { d.jtag with out := idcode } }

/-- SAMPLE_PRELOAD (R506): the cells sample the balls, which is an operand (DESIGN CHOICE, log 4), and are loaded for the next instruction. -/
def execSamplePreload (sample preload : List Bool) (s : State) : Host.Outcome State Fault Refusal :=
  act s fun d => let d := loadInstr d .samplePreload
    { d with jtag := { d.jtag with out := ofBools sample, boundary := preload } }

/-- EXTEST (R507). -/
def execExtest (sample shifted : List Bool) (s : State) : Host.Outcome State Fault Refusal := act s fun d => boundaryTest d .extest sample shifted
/-- CLAMP (R507). -/
def execClamp (tdi : Bool) (s : State) : Host.Outcome State Fault Refusal := act s fun d => bypassed d .clamp tdi
/-- HIGHZ (R507). -/
def execHighz (tdi : Bool) (s : State) : Host.Outcome State Fault Refusal := act s fun d => bypassed d .highz tdi
/-- EXTEST_PULSE (R507). -/
def execExtestPulse (sample shifted : List Bool) (s : State) : Host.Outcome State Fault Refusal :=
  act s fun d => boundaryTest d .extestPulse sample shifted
/-- EXTEST_TRAIN (R507). -/
def execExtestTrain (sample shifted : List Bool) (s : State) : Host.Outcome State Fault Refusal :=
  act s fun d => boundaryTest d .extestTrain sample shifted

end Sys2Proof.Machine
end

