-- ==== Sys2Proof/Machine/Views.lean ====
section
/-! DEFINITION. What a read of a register returns (00_scope.md R8, 12_register_interface.md R417): the stored word, with the fields
that the device derives from its state. -/
namespace Sys2Proof.Machine

/-- The upper and the lower half of a 64-bit word. -/
def hiHalf (w : Word64) : Word := BitVec.ofNat 32 (w.toNat / 2 ^ 32)
def loHalf (w : Word64) : Word := w.setWidth 32

/-! ### The scheduler and the engines -/

/-- SCH_STAT (05_sites_and_dispatch.md R189). -/
def schStatShown (d : Dev) : Word :=
  pack 32 [(16, 13, d.descs.length), (8, 8, setOf ((List.range 8).filter fun p => (d.schPort p).held.isSome))]

/-- SCH_PSTAT (R195). -/
def pstatShown (d : Dev) (p : Nat) : Word :=
  setBits (setBit (d.rd (.SCH_PSTAT p)) 30 (d.schPort p).held.isSome) 12 0 (d.owned p)

/-- SCH_SITESTAT.STATE (R199). -/
def siteState (d : Dev) (s : Nat) : Nat :=
  if (d.site s).resetting || (d.site s).releasing then 3
  else if !(d.site s).decl.en then 4
  else if d.siteDispatched s then 2
  else if d.descs.any fun x => x.2.site = s && x.2.place = .ready then 1
  else 0

/-- SCH_SITESTAT (R199). -/
def siteStatShown (d : Dev) (s : Nat) : Word :=
  let e := d.siteEngine s
  let waiting := (d.descs.filter fun x => x.2.site = s && !x.2.dispatched).length
  setBits (setBits (setBit (setBits (d.rd (.SCH_SITESTAT s)) 31 28 (siteState d s)) 27 e.isSome) 23 20 (e.getD 0)) 12 0 waiting

/-- ENG_STAT (03_engines_and_microcode.md R103): idle once the service routines have issued their last words (R99); the lead, service while a
service routine runs beside a burst, and ending once a running burst has no vector left to release (DEDUCED, log 179). -/
def engStatShown (d : Dev) (e : Nat) : Word :=
  match d.burst e with
  | none => if d.engIdle e then setBits (d.rd (.ENG_STAT e)) 31 28 0 else d.rd (.ENG_STAT e)
  | some b =>
    let w := setBits (d.rd (.ENG_STAT e)) 9 0 b.lead
    if serviceAt d.now (d.engine e).service ≠ [] then setBits w 31 28 7
    else if d.engState e = 4 ∧ b.fin.isSome ∧ b.queue = [] then setBits w 31 28 5 else w

/-! ### Channels, acquisition, stampers and DRAM -/

/-- The levels of PEDE and PEDD of a channel (04_timing_sets_and_edges.md R145, R146). -/
def Dev.pede (d : Dev) (c : Nat) : Bool := (d.chan c).en && !d.flag (.CUF_CHCTL c) 1 && !edgePass d (c / 16)
def Dev.pedd (d : Dev) (c : Nat) : Bool := (d.chan c).data && !edgePass d (c / 16)

/-- TDC_STAT (09_time_measurement.md R331) (DEDUCED, log 178). -/
def tdcStatShown (d : Dev) : Word :=
  let on := (List.range 136).filter fun i => d.flag (.TDC_IN i) 31
  let open_ := (on.filter fun i => !d.flag (.TDC_ISTAT i) 31).length
  pack 32 [(31, 1, (on ≠ [] && open_ = 0).toNat), (0, 8, open_)]

/-- TDC_IN of a channel input (R331): the site that holds the channel. -/
def tdcInShown (d : Dev) (i : Nat) : Word :=
  let s := d.siteOf i
  setBits (setBit (d.rd (.TDC_IN i)) 19 s.isSome) 15 12 (s.getD 0)

/-- DRC_BMAP word `i` (06_pattern_memory.md R247). -/
def bmapShown (d : Dev) (i : Nat) : Word :=
  pack 32 ((List.range 4).flatMap fun k =>
    let b := d.dram.bolt (4 * i + k)
    [(8 * k + 7, 1, b.alloc.toNat), (8 * k + 6, 1, b.lost.toNat), (8 * k + 5, 1, (decide (4 * i + k < 512)).toNat), (8 * k, 4, b.site)])

/-! ### Port queues -/

/-- LNK_QSTAT (11_lanes_and_host_link.md R408). -/
def qstatShown (d : Dev) (p : Nat) : Word :=
  let x := d.port p
  let w := setBit (d.rd (.LNK_QSTAT p)) 30 x.held.mark
  setBits (setBits (setBits (setBits w 23 18 x.chain.length) 17 12 (packets x.chain)) 11 6 x.cmd.length) 5 0 (packets x.cmd)

/-- R400: the head word of a port's event chain, 0 where the chain is empty. -/
def Dev.headWord (d : Dev) (p : Nat) : Word64 := ((d.port p).chain.head?.map (·.data)).getD 0

/-! ### Every register -/

/-- The word that a read of a register by port `p` returns, without the side effects of the read. -/
def Dev.shown (d : Dev) (p : Nat) (r : Reg) : Word :=
  match r with
  | .GLB_LGSTAT => setBit (setBit (d.rd r) 31 (2 ^ 25 - 65536 ≤ d.ledger.unacked)) 29 d.ledger.sealing.isSome
  | .GLB_GRAD => setBit (d.rd r) 30 (recalDue d)
  | .SCH_CTL => if d.trust.otp.lc = lcRetired then setBit (d.rd r) 31 false else d.rd r
  | .SCH_STAT => schStatShown d
  | .SCH_PSTAT q => pstatShown d q
  | .SCH_SITESTAT s => siteStatShown d s
  | .ENG_STAT e => engStatShown d e
  | .CUF_CHSTAT c => setBit (setBit (d.rd r) 1 (d.pede c)) 0 (d.pedd c)
  | .ACQ_STAT u => setBits (setBits (d.rd r) 19 16 (d.acqSite u)) 15 11 (d.acq u).exp
  | .DRC_STAT => setBit (d.rd r) 30 d.heavy
  | .DRC_BSTAT => setBit (d.rd r) 31 d.allocBusy
  | .DRC_BMAP i => bmapShown d i
  | .TIM_TPOCTL k => setBit (d.rd r) 29 (d.tpoRuns k)
  | .TIM_RINGSTAT => setBits (d.rd r) 23 16 d.hops
  | .TIM_PTPSTAT => setBits (d.rd r) 31 29 d.ptpState
  | .TIM_TCISTAT k => setBits (d.rd r) 4 0 (d.tci k).stamps.length
  | .TDC_STAT => tdcStatShown d
  | .TDC_IN i => if i < 128 then tdcInShown d i else d.rd r
  | .LNK_PSTAT q => setBit (setBit (d.rd r) 26 (d.heldSub q || d.roomHold q)) 25 (d.roomHold q)
  | .LNK_QSTAT q => qstatShown d q
  | .LNK_EVQLO q => loHalf (if p = q then (d.port q).held.data else d.headWord q)
  | .LNK_EVQHI q => hiHalf (if p = q then (d.port q).held.data else d.headWord q)
  | .LNK_IRQSTAT q => setBit (d.rd r) 0 (eventCause d q)
  | .MBX_DATA q w => ((d.port q).mbxData[w]?).getD 0
  | .CAL_DUE => BitVec.ofNat 32 (calDue d)
  | .TRU_STAT => truStat d
  | .TRU_SVN => svnWord d
  | .TRU_IDKEY w => idKeyWord d w
  | .RAS_STAT => setBits (d.rd r) 10 0 d.ras.log.length
  | .RAS_LOGSTAT => setBit (d.rd r) 31 (rasShown d).isNone
  | .RAS_LOGDATA w => rasLogData d w
  | _ => d.rd r

/-- R417, R426: a read of a register by port `p`, with its side effects where the port owns the register: the taking of an event word,
the clearing of MBX_STAT.VALID, and RC clearing. -/
def readReg (d : Dev) (p : Nat) (r : Reg) : Word × Dev :=
  match r with
  | .LNK_EVQLO q => if p = q then readEvq d q else (d.shown p r, d)
  | .MBX_DATA q w => (d.shown p r, d.onlyIf (p = q && d.get (.MBX_STAT q) 2 0 = w + 1) fun d => d.clear (.MBX_STAT q) 31)
  | _ => (d.shown p r, d.onlyIf (r.row.rc ≠ 0 && d.owns p r) fun d => d.clearRc r)


/-- 15_dependability.md R482: ALERT_N is driven low. -/
def Dev.alertLow (d : Dev) : Bool := d.driven && d.get .RAS_STAT 31 28 &&& d.get .RAS_ALERTEN 3 0 ≠ 0

/-- The level at which the core drives a ball (R145, R146, R361, R482). -/
def Dev.coreLevel (d : Dev) : Ball → Bool
  | .pede c => d.pede c
  | .pedd c => d.pedd c
  | .tpo k => d.tpoLevel k
  | .alertN => !d.alertLow

/-- 16_electrical_and_package.md R493, R507: the level of a ball, none where it is undriven: the core's, or that of its boundary cell while the
boundary cells own the balls (DESIGN CHOICE, log 78). -/
def Dev.ballLevel (d : Dev) (b : Ball) : Option Bool :=
  if !d.driven then none
  else if !d.sched.jtagHold then some (d.coreLevel b)
  else if d.jtag.instr = .highz then none
  else d.jtag.boundary[Config.boundaryCell b.index]?

end Sys2Proof.Machine
end

