-- ==== Sys2Proof/Machine/Mailbox.lean ====
section
/-! DEFINITION. The ports' mailboxes (12_register_interface.md R423 to R427), with the wide values of every chapter. -/
namespace Sys2Proof.Machine

/-- A wide value: its width in 32-bit words, and the value. -/
abbrev Wide := Nat × Nat

/-- Values of 64 bits; an absent one reads all ones. -/
def w64 (v : Nat) : Option Wide := some (2, v % 2 ^ 64)
def w64s (v : Int) : Option Wide := some (2, unsigned 64 v)
def w64o (v : Option Nat) : Option Wide := some (2, (v.getD (2 ^ 64 - 1)) % 2 ^ 64)
/-- Values of 128 bits. -/
def w128 (v : Int) : Option Wide := some (4, unsigned 128 v)
/-- A time in the layout of R337, 96 bits; an absent one reads all ones. -/
def w96 (t : Nat) : Option Wide :=
  let w := timeWords t
  some (3, w.1 + 2 ^ 32 * w.2.1 + 2 ^ 64 * w.2.2)
def w96o (t : Option Nat) : Option Wide :=
  match t with
  | some t => w96 t
  | none => some (3, 2 ^ 96 - 1)

/-- The value at a place of a list of values, where the instance is in range. -/
def rowOf (n inst row : Nat) (l : List (Option Wide)) : Option Wide := if inst < n then (l[row]?).join else none

/-- Table 3.15. -/
def mbxEngine (d : Dev) (e row : Nat) : Option Wide :=
  let x := d.engine e
  rowOf 16 e row [w64 x.padVec, w64o x.padFirst, w64 x.discard, w64 x.emitted]

/-- Table 5.25. -/
def mbxSched (d : Dev) (p row : Nat) : Option Wide :=
  let x := d.schPort p
  rowOf 8 p row [w64 x.accepted, w64 x.completed, w64 x.refused, w64 x.invalid]

/-- Table 6.22. -/
def mbxDram (d : Dev) (s row : Nat) : Option Wide :=
  let x := d.ring s
  if row < 5 then rowOf 16 s row [w64 x.w, w64 x.f, w64 (d.ringGrant s), w64 x.m, w64o x.under]
  else rowOf 1 s (row - 5) [w64 d.dram.ceCount, w64 d.dram.ueCount, w64 d.dram.wRefuse]

/-- Table 7.14. -/
def mbxAcq (d : Dev) (u row : Nat) : Option Wide :=
  let x := d.acq u
  let c := (d.site u).cap
  if row < 9 then
    rowOf 16 u row [w64 x.offered, w64 x.captured, w64 x.recorded, w64 x.decimated, w64 x.lost, w64o x.trigIdx, w64 x.violations, w64o x.firstViol,
      w64o x.firstFail]
  else if row < 41 then rowOf 16 u 0 [w64 (x.failCnt.get 0 (row - 9))]
  else if row < 45 then rowOf 16 u (row - 41) [w64s x.sum, w128 x.sumsq, w64 x.rwpos, w64 x.redlost]
  else if row < 48 then rowOf 16 u (row - 45) [w64 c.vec, w64 c.lostv, w64 c.wpos]
  else rowOf 1 u (row - 48) [w64 d.ledger.wpos, w64 d.ledger.ack, w64 d.ledger.drop]

/-- Table 8.11. -/
def mbxSource (d : Dev) (n row : Nat) : Option Wide :=
  let x := d.src n
  rowOf 8 n row [w96 x.anchor.toNat, w64 x.slot, w64 x.idleSlots, w64 x.played, w64 x.underSamp, w64 x.poisonSamp, w64o x.firstUnder, w64 x.startSlot,
    w64 x.replaced]

/-- Table 9.8. -/
def mbxTdc (d : Dev) (i row : Nat) : Option Wide :=
  let x := d.stampIn i
  let v := d.interval i
  let q := d.freq i
  if row < 8 then
    rowOf 136 i row [w64 x.edges, w64 x.heldoff, w64 x.merged, w64 x.stamps, w64 x.qlost, w64 x.recorded, w64 x.rlost, w64 x.unrec]
  else if row < 9 then rowOf 16 i 0 [w64 (d.site i).stamps.wpos]
  else if row < 16 then
    rowOf 16 i (row - 9) [w64 v.count, w64 v.neg, w64s v.last, w64s v.least, w64s v.greatest, w128 v.sum, w128 v.sumsq]
  else rowOf 16 i (row - 16) [w64 q.resN, w64 q.per, w64 q.freq, w64 q.res, w96 (q.t0 * frac16)]

/-- Table 10.17. -/
def mbxTime (d : Dev) (i row : Nat) : Option Wide :=
  let t := d.tbase
  if row < 11 then
    rowOf 1 i row [w96 d.now, w64 d.raw, w64s t.rho, w64s t.integ, w64s t.lastStep, w64s t.ringOff, w64s t.ringDly, w64s t.ringClose, w64s t.ptpOff,
      w64s t.ptpDly, w64 t.gmid]
  else if row = 11 then rowOf 64 i 0 [w96 (d.compare i).fired]
  else if row = 12 then rowOf 4 i 0 [w96o ((d.tci i).stamps.head?.map (· * frac16))]
  else rowOf 1 i (row - 13) [w64 t.rawRel]

/-- Table 11.16. -/
def mbxLink (d : Dev) (i row : Nat) : Option Wide :=
  let x := d.port i
  if row < 2 then rowOf 29 i row [w64 (d.lane i).retrains, w64 (d.lane i).dropBlk]
  else rowOf 8 i (row - 2) [w64 x.replays, w64 x.naks, w64 x.dupDrop, w64 x.badPkt, w64 x.strmDrop, w64 x.sessDrop, w64 x.evDisc, w64 x.evDiscCpl,
    w64 x.cmdDisc, w64 x.cmdBad]

/-- Table 13.9: the instance is the quantity's code (13_calibration.md R448). -/
def mbxCal (d : Dev) (q row : Nat) : Option Wide :=
  if q = 0 then none else rowOf 6 q row [w96o (d.cal.last.get none q), w64 (d.cal.runs.get 0 q), w64 (d.cal.rejects.get 0 q)]

/-- Table 14.13. -/
def mbxPower (d : Dev) (i row : Nat) : Option Wide :=
  let t := d.trust
  rowOf 1 i row [w64 t.logPos, w64 t.warmResets, w64 t.vinLow, w64 (t.energy / 10000)]

/-- 15_dependability.md R487: unavailable time in ns, with the interval in progress (DEDUCED, log 182). -/
def unavailNs (d : Dev) : Nat := (d.ras.unavail + (d.raw - d.ras.unavailFrom.getD d.raw)) * 5 / 16

/-- Table 15.7. -/
def mbxRas (d : Dev) (i row : Nat) : Option Wide :=
  rowOf 1 i row [w64 d.ras.pos, w64 d.ras.corrected, w64 d.ras.contained, w64 d.ras.fatal, w64 (unavailNs d)]

/-- Table 12.5: the value that a selection names, if it names one. -/
def mbxValue (d : Dev) (t row inst : Nat) : Option Wide :=
  match t with
  | 0x00 => rowOf 1 inst row [w64 Config.serial, w96 d.trust.bootTime]
  | 0x01 => mbxEngine d inst row
  | 0x02 => mbxSched d inst row
  | 0x03 => mbxDram d inst row
  | 0x04 => mbxAcq d inst row
  | 0x05 => mbxSource d inst row
  | 0x06 => mbxTdc d inst row
  | 0x07 => mbxTime d inst row
  | 0x08 => mbxLink d inst row
  | 0x09 => mbxCal d inst row
  | 0x0A => mbxPower d inst row
  | 0x0B => mbxRas d inst row
  | _ => none

/-- R425, R427: a write of MBX_SEL: a bad selection, a latch in progress, or a new latch, which drops data not read. -/
def mbxSelWrite (p : Nat) (d : Dev) (w : Word) : Dev :=
  let t := bits w 31 24
  let row := bits w 23 16
  let inst := bits w 15 8
  if bits w 7 0 ≠ 0 ∨ mbxValue d t row inst = none then d.raise (.MBX_STAT p) 29
  else if (d.port p).mbx.isSome then d.raise (.MBX_STAT p) 30
  else
    let d := d.onlyIf (d.flag (.MBX_STAT p) 31) fun d => d.raise (.MBX_STAT p) 28
    ((d.store (.MBX_SEL p) w).clear (.MBX_STAT p) 31).modPort p fun x => { x with mbx := some (t, row, inst) }

/-- MAILBOX_SELECT (R425): port `p` writes its MBX_SEL. -/
def execMailboxSelect (p : Fin 8) (w : Word) (s : State) : Host.Outcome State Fault Refusal :=
  act s fun d => regCommand d p (.MBX_SEL p) w (mbxSelWrite p)

/-- R425: the side effect of a latch: TIM_TCI removes the stamp that it shows. -/
def mbxEffect (d : Dev) (t row inst : Nat) : Dev :=
  if t = 0x07 ∧ row = 12 then d.putTci inst { d.tci inst with stamps := (d.tci inst).stamps.drop 1 } else d

/-- The 32-bit words of a wide value, lowest first. -/
def wideWords (v : Wide) : List Word := (List.range v.1).map fun i => BitVec.ofNat 32 (v.2 / 2 ^ (32 * i))

/-- R425: the selected value is captured whole. -/
def mbxLatch (d : Dev) (p : Nat) : Dev :=
  match (d.port p).mbx with
  | none => d
  | some (t, row, inst) =>
    match mbxValue d t row inst with
    | none => d
    | some v =>
      let d := (mbxEffect d t row inst).modPort p fun x => { x with mbx := none, mbxData := wideWords v }
      (d.raise (.MBX_STAT p) 31).set (.MBX_STAT p) 2 0 v.1

/-- MAILBOX_LATCH_COMPLETE (R425). -/
def execMailboxLatchComplete (p : Fin 8) (s : State) : Host.Outcome State Fault Refusal := act s fun d => mbxLatch d p

/-- MAILBOX_LAST_READ (R426): port `p` reads the last word of its mailbox; without a latch since reset there is none (DESIGN CHOICE, log 3) (DEDUCED, log 181). -/
def execMailboxLastRead (p : Fin 8) (s : State) : Host.Outcome State Fault Refusal :=
  act s fun d => ifAccepted d p fun d =>
    let n := d.get (.MBX_STAT p) 2 0
    if n = 0 then d else (readReg d p (.MBX_DATA p (n - 1))).2

end Sys2Proof.Machine
end

