-- ==== Sys2Proof/Machine/Regs.lean ====
section
/-! DEFINITION. Register accesses: what a write to each register does, and the checks of Table 12.2
(12_register_interface.md R411 to R429). -/
namespace Sys2Proof.Machine

/-! ### Assignments (R429) -/

/-- R429: a write of an assignment register: field `j` is the site of unit `first + j`; the field of a unit that is not idle stays (DEDUCED, log 180). -/
def assignWrite (p : Nat) (r : Reg) (idle : Dev → Nat → Bool) (first : Nat) (d : Dev) (w : Word) : Dev :=
  if d.lockMask r ≠ 0 then lockFlag d p r
  else
    let busy := (List.range 8).filter fun j => bits w (4 * j + 3) (4 * j) ≠ d.get r (4 * j + 3) (4 * j) && !idle d (first + j)
    let kept := busy.foldl (fun w j => setBits w (4 * j + 3) (4 * j) (d.get r (4 * j + 3) (4 * j))) w
    (d.store r kept).onlyIf (busy ≠ []) fun d => d.raise .GLB_STAT 29

/-! ### Every register's write -/

/-- The effect of a write of a register by a port that may make it (R8, and the rules of the register's home chapter). -/
def writeReg (p : Nat) (r : Reg) : Dev → Word → Dev :=
  match r with
  | .GLB_ACQSITE i => assignWrite p r (fun d u => d.acqState u = 0) (8 * i)
  | .GLB_SRCSITE => assignWrite p r (fun d n => d.srcState n = 0) 0
  | .GLB_RST => rstWrite
  | .GLB_PWR => pwrWrite
  | .GLB_WDOG => wdogWrite
  | .GLB_LGCTL => lgctlWrite
  | .GLB_LGACKHI => ackWrite
  | .SCH_CTL => fun d w => d.store .SCH_CTL (if d.trust.otp.lc = lcRetired then setBit w 31 (d.flag .SCH_CTL 31) else w)
  | .SCH_PLOCK => plockWrite p
  | .SCH_SUBMIT q i => submitWrite q i
  | .SCH_ENGEN => engenWrite p
  | .SCH_CANCEL q => cancelWrite q
  | .SCH_LDCTL q => ldctlWrite q
  | .SCH_SITECMD s => siteCmdWrite p s
  | .SCH_HFLAG s => hflagWrite s
  | .CUF_TSCOMMIT s => tsCommitWrite s
  | .CUF_SYMMAP k n => symmapWrite k n
  | .ACQ_CTL u => acqCtlWrite u
  | .ACQ_ATTACH u => armedWrite u r
  | .ACQ_GRP u _ => armedWrite u r
  | .ACQ_GOPEN u i => acqOpenWrite u i
  | .ACQ_GCLOSE u i => acqCloseWrite u i
  | .ACQ_CAPCFG s => capcfgWrite s
  | .ACQ_GRANT _ => grantWrite r
  | .ACQ_CAPGRANT _ => grantWrite r
  | .ACQ_SPER n => sperWrite n
  | .SRC_CTL n => srcCtlWrite n
  | .SRC_SPER n => srcSperWrite n
  | .SRC_CFG n => srcCfgWrite r n
  | .SRC_RBASE n => srcCfgWrite r n
  | .SRC_TBASE n => srcCfgWrite r n
  | .SRC_TSTART n i => srcTstartWrite n i
  | .DRC_PWR => drcPwrWrite
  | .DRC_BCMD => bcmdWrite
  | .DRC_SRBASE s => srbaseWrite s
  | .DRC_SRCFG s => srcfgWrite s
  | .DRC_SRMARKHI s => markWrite s
  | .TIM_RSET => rsetWrite
  | .TIM_SET i => timSetWrite i
  | .TIM_SEV => sevWrite
  | .TIM_PTP => ptpWrite
  | .TIM_CMPMODE => cmpmodeWrite
  | .TIM_CMPCTL n => cmpctlWrite n
  | .TIM_TPOCTL k => tpoctlWrite k
  | .TIM_TPOSTART k _ => tpoWrite k r
  | .TIM_TPOPER0 k => tpoWrite k r
  | .TIM_TPOPER1 k => tpoWrite k r
  | .TIM_TPOWIDTH k => tpoWrite k r
  | .TIM_TPOCOUNT k => tpoWrite k r
  | .TDC_IN i => tdcInWrite i
  | .TDC_RBASE s => tdcRbaseWrite s
  | .TDC_RCTL s => tdcRctlWrite s
  | .TDC_IVCTL u => ivctlWrite u
  | .TDC_FQCTL u => fqctlWrite u
  | .TDC_GOPEN u w => fqOpenWrite u w
  | .TDC_GCLOSE u w => fqCloseWrite u w
  | .LAN_CTL l => lanCtlWrite l
  | .LAN_EQ l => lanEqWrite l
  | .LNK_PMAP i => pmapWrite i
  | .LNK_QCTL q => qctlWrite q
  | .LNK_CMDQHI q => pushCmd q false
  | .LNK_CMDQHIE q => pushCmd q true
  | .LNK_IRQSTAT q => irqstatWrite q
  | .LNK_IRQEN q => irqWrite q r
  | .LNK_IRQMOD q => irqWrite q r
  | .MBX_SEL q => mbxSelWrite q
  | .CAL_CMD => calWrite
  | .CAL_DRV _ _ => calValueWrite r
  | .CAL_STB _ _ => calValueWrite r
  | .CAL_SKEW _ _ => calValueWrite r
  | .CAL_BOARD _ _ => calValueWrite r
  | .CAL_PHASE _ => calValueWrite r
  | .CAL_BASET _ _ => calValueWrite r
  | .CAL_LTX _ _ => calValueWrite r
  | .CAL_LRX _ _ => calValueWrite r
  | .CAL_LEXT0 _ _ => calValueWrite r
  | .CAL_LEXT1 _ _ => calValueWrite r
  | .CAL_XC _ _ => calValueWrite r
  | .TRU_LCREQ => lcreqWrite false
  | .TRU_LOGSEL => logselWrite
  | .TRU_IMGCTL => imgctlWrite
  | .TRU_IMGDATA => imgdataWrite
  | .TRU_SVN => svnWrite
  | .TRU_QCTL q => quoteGo q
  | .RAS_ENGCMD => engcmdWrite
  | _ => fun d w => d.storeBy p r w

/-! ### Accesses at an address (Table 12.2) -/

/-- The word of a LIN window at a canonical address: whether it is the active window, and the word (13_calibration.md R446). -/
def linWord (a : Nat) : Option (Bool × Nat) :=
  if 0xA08000 ≤ a ∧ a < 0xA09000 then some (false, (a - 0xA08000) / 4)
  else if 0xA0A000 ≤ a ∧ a < 0xA0B000 then some (true, (a - 0xA0A000) / 4)
  else none

/-- A 32-bit read at an aligned canonical address, made through the address `via`: a register, a LIN window, a control-store word, or a hole
(R412). No rule states what a read from behind a fenced seam returns (DEDUCED, log 146). -/
def readAt (d : Dev) (p via a : Nat) : Word × Dev :=
  if d.readCut via then
    let v := d.free 32
    (BitVec.ofNat 32 v.1, v.2)
  else if 0x1000000 ≤ a then (storeRead d a, d)
  else match Reg.ofAddr a with
    | some r => readReg d p r
    | none => match linWord a with
      | some l => (linRead d l.1 l.2, d)
      | none => (0, d)

/-- Table 12.2, step 5, for what is no register: a hole has no owner. -/
def ownedWrite (d : Dev) (p a : Nat) (owner : Option Nat) (f : Dev → Dev) : Bool × Dev :=
  if !d.ready ∧ !earlyBlock a then (false, d)
  else match owner with
    | none => (true, d)
    | some o => if p = o then (true, f d) else (false, perr d p 28)

/-- A 32-bit write at an aligned canonical address, and whether it was not refused. -/
def writeAt (d : Dev) (p a : Nat) (w : Word) : Bool × Dev :=
  if 0x1000000 ≤ a then ownedWrite d p a (storeOwner d a) fun d => if d.writeCut a then d else storeWrite d a w
  else match Reg.ofAddr a with
    | some r => hostWrite d p r w (writeReg p r)
    | none => match linWord a with
      | some l => ownedWrite d p a (some 0) fun d => linWrite d l.1 l.2 w
      | none => ownedWrite d p a none id

/-- R413: the SIZE codes of ADDR[27:26]. -/
def szWord : Nat := 0
def szByte : Nat := 1
def szHalf : Nat := 2
def szLong : Nat := 3

/-- Table 12.2, step 2. -/
def misaligned (a size : Nat) : Bool := a % 4 ≠ 0 || (size = szLong && a % 8 ≠ 0)

/-- R411 to R415: a read by port `p`: its status, the word, and the upper half of a 64-bit read; nothing falls between the halves (DEDUCED, log 210). -/
def readAccess (d : Dev) (p a size : Nat) : Nat × Word × Word × Dev :=
  match canonAddr a with
  | none => (stUnsupported, 0, 0, d)
  | some c =>
    if misaligned a size then (stError, 0, 0, perr d p 29)
    else
      let x := readAt d p a c
      if size = szLong then
        let y := readAt x.2 p a (c + 4)
        (stOk, x.1, y.1, y.2)
      else (stOk, x.1, 0, x.2)

/-- R411 to R415: a write by port `p`: its status. A 64-bit write is two writes, the lower one first, with nothing between them (DEDUCED, log 210). -/
def writeAccess (d : Dev) (p a size : Nat) (lo hi : Word) : Nat × Dev :=
  match canonAddr a with
  | none => (stUnsupported, d)
  | some c =>
    if misaligned a size then (stError, perr d p 29)
    else if size = szByte ∨ size = szHalf then (stOk, perr d p 31)
    else
      let x := writeAt d p c lo
      if size = szLong then
        let y := writeAt x.2 p (c + 4) hi
        (if x.1 && y.1 then stOk else stError, y.2)
      else (if x.1 then stOk else stError, x.2)

/-! ### Commands that are one access -/

/-- REGISTER_WRITE (R414): port `p` writes the 32-bit word at a byte address. -/
def execRegisterWrite (p : Fin 8) (a : BitVec 26) (w : Word) (s : State) : Host.Outcome State Fault Refusal :=
  act s fun d => ifAccepted d p fun d => (writeAccess d p a.toNat szWord w 0).2

/-- ASSIGNMENT_WRITE (R429): port `p` writes GLB_ACQSITE0, GLB_ACQSITE1 or GLB_SRCSITE. -/
def execAssignmentWrite (p : Fin 8) (i : Fin 3) (w : Word) (s : State) : Host.Outcome State Fault Refusal :=
  act s fun d =>
    let r : Reg := if i = 2 then .GLB_SRCSITE else .GLB_ACQSITE i
    regCommand d p r w (writeReg p r)

/-- The register with RC fields that a read names. -/
def rcReg : RcReg → Reg
  | .trap e => .ENG_TRAP e
  | .cserr e => .ENG_CSERR e
  | .collcnt c => .CUF_COLLCNT c
  | .lanErr l => .LAN_ERR l

/-- CLEAR_ON_READ (00_scope.md R8): port `p` reads a register with RC fields; only its owner clears them (R417). -/
def execClearOnRead (p : Fin 8) (x : RcReg) (s : State) : Host.Outcome State Fault Refusal :=
  act s fun d => ifAccepted d p fun d =>
    let a := (rcReg x).addr
    if d.readCut a then d else (readReg d p (rcReg x)).2

/-- EVENT_QUEUE_READ (11_lanes_and_host_link.md R400): port `p` reads its LNK_EVQLO. -/
def execEventQueueRead (p : Fin 8) (s : State) : Host.Outcome State Fault Refusal :=
  act s fun d => ifAccepted d p fun d => (readReg d p (.LNK_EVQLO p)).2

/-- The canonical address of word 5 of a control-store word: of engine `k / 4096`, or of the nano-store from 65,536 on
(03_engines_and_microcode.md R110). -/
def commitAddr (k : Nat) : Nat :=
  if k < 65536 then 0x1000000 + k / 4096 * 0x80000 + k % 4096 * 32 + 20 else 0x1800000 + (k - 65536) * 32 + 20

/-- CSTORE_WORD_COMMIT (R110): port `p` writes 32-bit word 5 of a control-store word. -/
def execCstoreWordCommit (p : Fin 8) (k : Fin 73728) (w : Word) (s : State) : Host.Outcome State Fault Refusal :=
  act s fun d => ifAccepted d p fun d => (writeAt d p (commitAddr k) w).2

end Sys2Proof.Machine
end

