-- ==== Sys2Proof/Machine/Fabric.lean ====
section
/-! DEFINITION. The packets that a host sends, and when they act (11_lanes_and_host_link.md R390 to R397, R400 to R405;
06_pattern_memory.md R208, R222, R226, R229 to R233). -/
namespace Sys2Proof.Machine

/-! ### Register packets (12_register_interface.md R413) -/

/-- R413: the byte address and the SIZE of a register packet, and whether R391 or a reserved bit makes it UNSUPPORTED. -/
def raAddr (k : Packet) : Nat := bits k.addr 25 0
def raSize (k : Packet) : Nat := bits k.addr 27 26
def raBad (write : Bool) (k : Packet) : Bool :=
  k.blocks ≠ [] || bits k.addr 31 28 ≠ 0 || (bits k.addr 63 32 ≠ 0 && !(write && raSize k = szLong))

/-- A completion that carries a status alone. -/
def answer (d : Dev) (p : Nat) (k : Packet) (status : Nat) : Dev := complete d p k.tag status 0 0 []

/-- A REG_RD acts (DEDUCED, log 177). -/
def regRd (d : Dev) (p : Nat) (k : Packet) : Dev :=
  if raBad false k then answer d p k stUnsupported
  else
    let r := readAccess d p (raAddr k) (raSize k)
    complete r.2.2.2 p k.tag r.1 r.2.1 (BitVec.ofNat 64 (r.2.2.1.toNat * 2 ^ 32)) []

/-- R402, R403: a write at a canonical address waits: a submission for room for its response, or a push for a stage of the chain (DEDUCED, log 169). -/
def writeWaits (d : Dev) (p c : Nat) : Bool :=
  match Reg.ofAddr c with
  | some (.SCH_SUBMIT q 7) => q = p && d.ready && decide (d.outRoom p < 8)
  | some (.LNK_CMDQHI q) | some (.LNK_CMDQHIE q) => q = p && d.cmdFull p
  | _ => false

/-- The canonical addresses that an aligned write packet writes. -/
def writtenAt (k : Packet) : List Nat :=
  if misaligned (raAddr k) (raSize k) then []
  else if raSize k = szLong then ((canonAddr (raAddr k)).map fun c => [c, c + 4]).getD []
  else if raSize k = szWord then (canonAddr (raAddr k)).toList
  else []

/-- A REG_WR acts, or waits. A reset that it begins takes the port down, and with it the completion (DEDUCED, log 175). -/
def regWr (d : Dev) (p : Nat) (k : Packet) : Bool × Dev :=
  if raBad true k then (true, answer d p k stUnsupported)
  else if (writtenAt k).any (writeWaits d p) then (false, d.onlyIf (d.cmdFull p) fun d => d.raise (.LNK_QSTAT p) 29)
  else
    let r := writeAccess d p (raAddr k) (raSize k) k.data (hiHalf k.addr)
    (true, if r.2.trust.held then r.2 else answer r.2 p k r.1)

/-! ### DRAM packets (R391, 06_pattern_memory.md R208) -/

/-- R391: the address or the length of a bulk access of `n` blocks makes it UNSUPPORTED. -/
def memBad (a : Word64) (n : Nat) : Bool :=
  n = 0 || decide (256 < n) || bits a 3 0 ≠ 0 || bits a 63 36 ≠ 0 || decide (0xC00000000 < a.toNat + 16 * n) ||
  decide (4096 < a.toNat % 4096 + 16 * n)

/-- `n` blocks of DRAM; the spec gives a poisoned line no data (DESIGN CHOICE, log 7). -/
def readBlocks (d : Dev) (a : Nat) : Nat → List Block × Dev
  | 0 => ([], d)
  | n + 1 =>
    let b := if d.dram.poisoned a then d.free 128 else (d.dram.num a 16, d)
    let r := readBlocks b.2 (a + 16) n
    (BitVec.ofNat 128 b.1 :: r.1, r.2)

/-- R209, R226: a request of a port waits at the controller, in arrival order, or does so no longer. -/
def portWaits (d : Dev) (p : Nat) : Bool × Dev :=
  (false, d.modDram fun m => if m.held.contains (.port p) then m else { m with held := m.held ++ [.port p] })
def portServed (d : Dev) (p : Nat) : Dev := d.modDram fun m => { m with held := m.held.filter (· ≠ .port p) }

/-- A MEM_RD acts, or waits: for a channel that is in refresh or drains (R209, R210), or for the stack (R226); every port may read every
address (R208). Before the wipe of the boot sequence has ended it is refused (14_power_reset_and_trust.md R452). -/
def memRd (d : Dev) (p : Nat) (k : Packet) : Bool × Dev :=
  let n := k.data.toNat
  let a := k.addr.toNat
  if k.blocks ≠ [] || memBad k.addr n then (true, answer d p k stUnsupported)
  else if !d.trust.wiped then (true, answer d p k stError)
  else if (linesOf a (16 * n)).any d.lineWaits then portWaits d p
  else
    let bad := (linesOf a (16 * n)).filter d.dram.poisoned
    let r := readBlocks ((portServed d p).each bad poisonRead) a n
    (true, complete r.2 p k.tag (if bad = [] then stOk else stPoison) 0 0 r.1)

/-- R208: whether a port may write a byte address: an allocated bolt of a site it owns, or a free bolt for HP0 in PROVISIONED. -/
def memOwned (d : Dev) (p a : Nat) : Bool :=
  let b := d.dram.bolt (boltOf a)
  decide (512 ≤ boltOf a) && (if b.alloc then p = d.siteOwner b.site else p = 0 && d.trust.otp.lc = lcProvisioned)

/-- A host write that is refused or reported: an error response and a count (R208, R212). -/
def memRefuse (d : Dev) (p : Nat) (k : Packet) : Dev :=
  answer (d.modDram fun m => { m with wRefuse := (m.wRefuse + 1) % 2 ^ 64 }) p k stError

/-- A MEM_WR acts, or waits: for lines of the write queues (R211), or for the stack (R226) (DEDUCED, log 171). -/
def memWr (d : Dev) (p : Nat) (k : Packet) : Bool × Dev :=
  let a := k.addr.toNat
  if memBad k.addr k.blocks.length then (true, answer d p k stUnsupported)
  else if !d.trust.wiped then (true, answer d p k stError)
  else if !d.hostReaches then portWaits d p
  else if !memOwned d p a then (true, memRefuse (portServed d p) p k)
  else if !writeFits d clsHost a (blockBytes k.blocks) then portWaits d p
  else
    let r := writeLines (portServed d p) clsHost a (blockBytes k.blocks)
    (true, if r.1 then answer r.2 p k stOk else memRefuse r.2 p k)

/-! ### Stream packets (R392, 06_pattern_memory.md R229 to R233, R238) -/

/-- R229, R233: a line of stream data lands at W; on v1 a mark that W would pass by the ring's size is lost (DEDUCED, log 174). -/
def streamLine (s : Nat) (d : Dev) (bs : List Byte) : Dev :=
  let w := (d.ring s).w
  let d := d.onlyIf (d.ringVersion s = 1 && d.markValid s && decide ((d.ring s).m + d.ringSize s < w + 64)) fun d => markLost d s
  let r := writeLine d clsHost (d.ringAddr s w) bs
  let d := if r.1 then r.2 else writeReported r.2 (d.ringAddr s w)
  d.modRing s fun x => { x with w := w + 64, received := x.received + 1 }

/-- The lines of stream data. -/
def streamLines : List Block → List (List Byte)
  | a :: b :: c :: e :: bs => blockBytes [a, b, c, e] :: streamLines bs
  | _ => []

/-- A packet discarded and counted in LNK_BADPKT (R391, R405). -/
def badKind (d : Dev) (p : Nat) : Dev := d.modPort p fun x => { x with badPkt := (x.badPkt + 1) % 2 ^ 64 }

/-- R392: a STRM discarded. -/
def streamDrop (d : Dev) (p : Nat) : Dev := d.modPort p fun x => { x with strmDrop := (x.strmDrop + 1) % 2 ^ 64 }

/-- R231, R395: the lines of `n` discarded blocks return their credits: they count as received, or on a port that does not own the site as lines
returned to it (DEDUCED, log 173). -/
def streamReturn (d : Dev) (p s n : Nat) : Dev :=
  if p = d.siteOwner s then d.modRing s fun x => { x with received := x.received + (n + 3) / 4 }
  else d.modPort p fun x => { x with strmBack := x.strmBack.put 0 s (x.strmBack.get 0 s + (n + 3) / 4) }

/-- R211: the lines of a STRM find lines of the write queues. -/
def streamFits (d : Dev) (s n : Nat) : Bool :=
  let cs := (List.range (n / 4)).map fun i => pseudoChannel (d.ringAddr s ((d.ring s).w + 64 * i))
  cs.all fun c => (d.wqIssued c).fits clsHost (cs.count c)

/-- R229: the engine that runs a site's burst may fetch what has come into the ring. -/
def ringFilled (d : Dev) (s : Nat) : Dev :=
  match d.siteEngine s with
  | some e => prefetch d e
  | none => d

/-- A STRM acts, or waits: for lines of the write queues (R211), or for the stack (R226) (DEDUCED, log 172). -/
def strm (d : Dev) (p : Nat) (k : Packet) : Bool × Dev :=
  let n := k.blocks.length
  let s := bits k.addr 3 0
  if n < 4 ∨ 1024 < n ∨ n % 4 ≠ 0 then (true, streamReturn (badKind d p) p s n)
  else if p ≠ d.siteOwner s then (true, streamReturn (streamDrop d p) p s n)
  else if (d.site s).resetting then (true, streamReturn d p s n)
  else if !d.ringOn s then (true, streamReturn (streamDrop d p) p s n)
  else if !d.hostReaches ∨ !streamFits d s n then portWaits d p
  else (true, ringFilled ((portServed d p).each (streamLines k.blocks) (streamLine s)) s)

/-! ### Doorbells and queue reads (R401, R405) -/

/-- A DBELL acts: doorbell 0 alone exists. -/
def dbell (d : Dev) (p : Nat) (k : Packet) : Dev :=
  if k.blocks ≠ [] ∨ bits k.addr 3 0 ≠ 0 then badKind d p else d.raise (.LNK_DBELL p) 0

/-- R401: up to `n` words are taken. -/
def qrdTake (d : Dev) (p : Nat) : Nat → List QWord × Dev
  | 0 => ([], d)
  | n + 1 =>
    match (d.port p).chain with
    | [] => ([], d)
    | w :: _ =>
      let r := qrdTake (d.modPort p takeWord) p n
      (w :: r.1, r.2)

/-- R401: words two to a block, the first in bits [63:0]. -/
def qrdBlocks : List QWord → List Block
  | [] => []
  | [a] => [BitVec.ofNat 128 a.data.toNat]
  | a :: b :: ws => BitVec.ofNat 128 (a.data.toNat + 2 ^ 64 * b.data.toNat) :: qrdBlocks ws

/-- R401: the end marks of words. -/
def qrdMarks (ws : List QWord) : Word := BitVec.ofNat 32 (ws.foldr (fun w m => 2 * m + w.mark.toNat) 0)

/-- A QRD's completion. -/
def qrdAnswer (d : Dev) (p : Nat) (k : Packet) (status : Nat) (ws : List QWord) : Dev :=
  complete d p k.tag status (qrdMarks ws) (BitVec.ofNat 64 ws.length) (qrdBlocks ws)

/-- A QRD acts. -/
def qrd (d : Dev) (p : Nat) (k : Packet) : Dev :=
  if k.blocks ≠ [] then answer d p k stUnsupported
  else if (d.port p).chain = [] then
    qrdAnswer (irqRaise (d.raise (.LNK_QSTAT p) 31) p 3) p k stUnderrun [(d.port p).held]
  else
    let r := qrdTake d p (bits k.addr 4 0 + 1)
    qrdAnswer (irqUpdate r.2 p) p k stOk r.1

/-! ### The inbound buffer (R393 to R397) -/

/-- A packet at the front of the inbound buffer acts, or waits; one of a reserved TYPE has no completion (R391). -/
def actPacket (d : Dev) (p : Nat) (k : Packet) : Bool × Dev :=
  let t := k.type.toNat
  if t = ptRegRd then (true, regRd d p k)
  else if t = ptRegWr then regWr d p k
  else if t = ptMemRd then memRd d p k
  else if t = ptMemWr then memWr d p k
  else if t = ptStrm then strm d p k
  else if t = ptDbell then (true, dbell d p k)
  else if t = ptQrd then (true, qrd d p k)
  else (true, badKind d p)

/-- R395, R389: a packet has left the buffer: its credits return, unless it came in an earlier session. -/
def packetLeft (d : Dev) (p : Nat) (k : Packet) : Dev :=
  let held := d.heldSub p
  let room := d.roomHold p
  settle (d.modPort p fun x => if 0 < x.inboundOld then { x with inboundOld := x.inboundOld - 1 } else returnCredit held room k x) p

/-- R393, R397, 05_sites_and_dispatch.md R170: packets act in order, until one waits or a submission is held. -/
def drainBuffer : Nat → Dev → Nat → Dev
  | 0, d, _ => d
  | n + 1, d, p =>
    match (d.port p).inbound with
    | [] => d
    | k :: ks =>
      if d.heldSub p || (d.port p).waitWrite.isSome then d
      else
        let r := actPacket (d.modPort p fun x => { x with inbound := ks }) p k
        if !r.1 then r.2.modPort p fun x => { x with inbound := k :: ks }
        else if r.2.trust.held then r.2
        else drainBuffer n (packetLeft r.2 p k) p

/-- R402, R403: a write of a port that waits acts as soon as it need not. -/
def heldWriteActs (d : Dev) (p : Nat) : Dev :=
  match (d.port p).waitWrite with
  | none => d
  | some x => if writeWaits d p x.1 then d else (writeAt (d.modPort p fun y => { y with waitWrite := none }) p x.1 x.2).2

/-- What waits in a port's inbound buffer acts, as far as it may. -/
def drainPort (d : Dev) (p : Nat) : Dev :=
  let d := settle (heldWriteActs d p) p
  drainBuffer (d.port p).inbound.length d p

/-- R396: on v1 a packet finds no room; stream data that waits takes room of the ring too (06_pattern_memory.md R230). -/
def noRoom (d : Dev) (p : Nat) (k : Packet) : Bool :=
  d.version p = 1 &&
  (if k.type.toNat = ptStrm then
    let s := bits k.addr 3 0
    p = d.siteOwner s && d.ringOn s &&
      decide ((d.ring s).f + d.ringSize s < (d.ring s).w + waitingStream d p s + 16 * k.blocks.length)
  else if isRequest k then decide (d.classRoom p 0 < inboundBlocks isRequest (d.port p) + 1 + k.blocks.length)
  else isPosted k && decide (d.classRoom p 1 < inboundBlocks isPosted (d.port p) + 1))

/-- R393: a packet with the expected number is accepted (DEDUCED, log 170). -/
def packetAccepted (d : Dev) (p : Nat) (k : Packet) : Dev :=
  let d := d.modPort p fun x => { x with
    rxSeq := (x.rxSeq + 1) % 4096, nakOut := false, sinceAck := x.sinceAck + 1, usedReqH := x.usedReqH + (isRequest k).toNat
    inbound := x.inbound ++ [k] }
  let d := d.onlyIf (32 ≤ (d.port p).sinceAck) fun d => sendAck d p
  drainPort d p

/-- R393: a packet arrives with a good CRC and a number: expected, already accepted, or behind a gap (DEDUCED, log 168). -/
def packetArrives (d : Dev) (p seq : Nat) (k : Packet) : Dev :=
  if !d.portUp p then d
  else if seq = (d.port p).rxSeq then (if noRoom d p k then sendNak d p else packetAccepted d p k)
  else if ((d.port p).rxSeq + 4095 - seq) % 4096 < 2048 then d.modPort p fun x => { x with dupDrop := (x.dupDrop + 1) % 2 ^ 64 }
  else badPacket d p

/-- A packet of a type arrives on port `p` under number `seq`. -/
def packetCommand (t : Nat) (p : Fin 8) (seq : Fin 4096) (k : Packet) (s : State) : Host.Outcome State Fault Refusal :=
  act s fun d => packetArrives d p seq { k with type := BitVec.ofNat 6 t }

/-- REG_RD (R390, 12_register_interface.md R414). -/
def execRegRd (p : Fin 8) (seq : Fin 4096) (k : Packet) (s : State) : Host.Outcome State Fault Refusal := packetCommand ptRegRd p seq k s

/-- REG_WR (R390, 12_register_interface.md R414). -/
def execRegWr (p : Fin 8) (seq : Fin 4096) (k : Packet) (s : State) : Host.Outcome State Fault Refusal := packetCommand ptRegWr p seq k s

/-- MEM_RD (R391). -/
def execMemRd (p : Fin 8) (seq : Fin 4096) (k : Packet) (s : State) : Host.Outcome State Fault Refusal := packetCommand ptMemRd p seq k s

/-- Whether a TYPE is reserved for packets to the device (Table 11.10). -/
def reservedType (k : Packet) : Bool := k.type = 0 || decide (ptQrd < k.type.toNat)

/-- MEM_WR (R391, 06_pattern_memory.md R208); a packet of a reserved TYPE keeps it, and is discarded (DEDUCED, log 176). -/
def execMemWr (p : Fin 8) (seq : Fin 4096) (k : Packet) (s : State) : Host.Outcome State Fault Refusal :=
  if reservedType k then act s fun d => packetArrives d p seq k else packetCommand ptMemWr p seq k s

/-- STRM (R392). -/
def execStrm (p : Fin 8) (seq : Fin 4096) (k : Packet) (s : State) : Host.Outcome State Fault Refusal := packetCommand ptStrm p seq k s

/-- DBELL (R405). -/
def execDbell (p : Fin 8) (seq : Fin 4096) (k : Packet) (s : State) : Host.Outcome State Fault Refusal := packetCommand ptDbell p seq k s

/-- QRD (R401). -/
def execQrd (p : Fin 8) (seq : Fin 4096) (k : Packet) (s : State) : Host.Outcome State Fault Refusal := packetCommand ptQrd p seq k s

/-! ### What lets waiting packets act -/

/-- EVENT_WORD_ENTER (R399): the room that it leaves may let a submission act (R402). -/
def execEventWordEnter (p : Fin 8) (s : State) : Host.Outcome State Fault Refusal :=
  act s fun d => drainPort (irqUpdate (d.modPort p (eventWordEnter d.raw)) p) p

/-- 05_sites_and_dispatch.md R170: the block of the oldest held submission has lifted; its response waits for room (R402). -/
def heldRetried (d : Dev) : Dev :=
  match nextHeld d with
  | none => d
  | some (p, _) => if d.outRoom p < 8 then d else drainPort (heldRetry d).2 p

/-- HELD_SUBMISSION_RETRY (05_sites_and_dispatch.md R170). -/
def execHeldSubmissionRetry (s : State) : Host.Outcome State Fault Refusal := act s heldRetried

/-! ### Requests that wait at the DRAM controller (06_pattern_memory.md R209 to R211, R216, R225, R226) -/

/-- R226: held requests are served in arrival order; one that still has to wait is held again. -/
def serveHeld (d : Dev) : Dev :=
  (d.modDram fun m => { m with held := [] }).each d.dram.held fun d h => match h with
    | .write cls a bs => devTry d cls a bs
    | .port p => drainPort d p

/-- R209: channels are free again: real-time reads issue first, then the oldest host reads, then writes. -/
def channelsFree (d : Dev) : Dev :=
  let d := prefetchAll d
  heldWrites (d.each d.dram.held fun d h => match h with
    | .port p => drainPort d p
    | .write _ _ _ => d)

/-- WRITE_DRAIN_END (R210): host reads that waited for the drain issue. -/
def execWriteDrainEnd (c : Fin 32) (s : State) : Host.Outcome State Fault Refusal :=
  act s fun d => if (d.wq c).draining then channelsFree (drainEnd d c) else d

/-- REFRESH_END (R216): the group's channels take requests again. -/
def execRefreshEnd (s : State) : Host.Outcome State Fault Refusal :=
  actAt s (s.dev.dram.inRefresh.map (·.2)) fun d => if d.dram.inRefresh.isSome then channelsFree (refreshEnd d) else d

/-- R225: a read that a port has in the controller's queues. -/
def queuedRead (d : Dev) (h : Held) : Option Nat :=
  match h with
  | .port p => if (d.port p).inbound.head?.any (·.type.toNat = ptMemRd) then some p else none
  | .write _ _ _ => none

/-- R225: every read that was queued when entry began completes, once the refresh and the drains in progress have ended. -/
def queuedReads (d : Dev) : Dev :=
  let ps := (d.dram.held.take d.dram.heldAtEnter).filterMap (queuedRead d)
  let d := (d.modDram fun m => { m with wqs := {}, inRefresh := none }).set .DRC_PWR 25 24 0
  (d.each ps (drainBuffer 1)).set .DRC_PWR 25 24 1

/-- SELF_REFRESH_ENTRY_END (R225): in entry to standby, standby is reached with it. -/
def execSelfRefreshEntryEnd (s : State) : Host.Outcome State Fault Refusal :=
  act s fun d => if d.dramState = 1 then standbyReached (entryEnd (queuedReads d)) else d

/-- SELF_REFRESH_EXIT_END (R226, R227): held requests issue in order, and engines fetch again. -/
def execSelfRefreshExitEnd (s : State) : Host.Outcome State Fault Refusal :=
  act s fun d =>
    let d := keptExit d
    if d.dramState = 3 then prefetchAll (serveHeld (exitEnded d)) else d

/-- CMDFLUSH (R404): port `p` writes its own LNK_QCTL with CMDFLUSH; a push that waits for a stage acts. -/
def execCmdflush (p : Fin 8) (w : Word) (s : State) : Host.Outcome State Fault Refusal :=
  act s fun d => drainPort (regCommand d p (.LNK_QCTL p) (setBit w 30 true) (qctlWrite p)) p

/-! ### Service commands (R410) -/

/-- The service cores act on a packet; a push that waits for a stage acts. -/
def served (s : State) (p : Fin 8) (kind : Nat) (busy : Bool) (f : Service) : Host.Outcome State Fault Refusal :=
  act s fun d => drainPort (serve d p kind busy f) p

/-- ECHO (R410). -/
def execEcho (p : Fin 8) (busy : Bool) (s : State) : Host.Outcome State Fault Refusal := served s p svEcho busy fun _ a => some a

/-- FWINFO (R410). -/
def execFwinfo (p : Fin 8) (busy : Bool) (s : State) : Host.Outcome State Fault Refusal := served s p svFwinfo busy (noArgs fwInfo)

/-- PTPINFO (R410). -/
def execPtpinfo (p : Fin 8) (busy : Bool) (s : State) : Host.Outcome State Fault Refusal := served s p svPtpinfo busy (noArgs ptpInfo)

/-- RASREAD (R410). -/
def execRasread (p : Fin 8) (busy : Bool) (s : State) : Host.Outcome State Fault Refusal := served s p svRasread busy rasRead

/-- LOGREAD (R410). -/
def execLogread (p : Fin 8) (busy : Bool) (s : State) : Host.Outcome State Fault Refusal := served s p svLogread busy logRead

/-- SERVICE_RESPONSE_POST (R410). -/
def execServiceResponsePost (p : Fin 8) (s : State) : Host.Outcome State Fault Refusal := act s fun d => settle (svcPost d p) p

/-! ### No command waits -/

/-- One base-clock cycle without a command (DESIGN CHOICE, log 1): the counter and local time go on, markers are sent, and packets that may act do. In a power
fail only the rails fall. -/
def State.idle (s : State) : State :=
  if s.dev.trust.failed then { s with dev := s.dev.modTrust fun t => { t with parked := t.parked - 1 } }
  else
    let s := { s with clock := s.clock.cycle }
    let d := (keptExit s.mirror).onlyIf (s.dev.dram.held ≠ []) heldWrites
    { s with dev := (d.onlyIf (!d.trust.held) allMarks).each (List.range 8) drainPort }

end Sys2Proof.Machine
end

