-- ==== Sys2Proof/Machine/Dispatch.lean ====
section
/-! DEFINITION. Dispatch: one arm per command, each one call of its meaning. -/
namespace Sys2Proof.Machine

/-- The effect of a command on everything but the queue. -/
def exec (i : Instr) (s : State) : Host.Outcome State Fault Refusal :=
  match i with
  | .vec e corr => Sys2Proof.Machine.execVec e corr s
  | .rpt e => Sys2Proof.Machine.execRpt e s
  | .loop e => Sys2Proof.Machine.execLoop e s
  | .endl e => Sys2Proof.Machine.execEndl e s
  | .call e => Sys2Proof.Machine.execCall e s
  | .ret e => Sys2Proof.Machine.execRet e s
  | .jmp e => Sys2Proof.Machine.execJmp e s
  | .jif e => Sys2Proof.Machine.execJif e s
  | .jifSyncResolve e extra => Sys2Proof.Machine.execJifSyncResolve e extra s
  | .matchStart e => Sys2Proof.Machine.execMatch e s
  | .matchEnd e emitted => Sys2Proof.Machine.execMatchEnd e emitted s
  | .waitt e => Sys2Proof.Machine.execWaitt e s
  | .waittTargetReached e => Sys2Proof.Machine.execWaittTargetReached e s
  | .waittTimeout e => Sys2Proof.Machine.execWaittTimeout e s
  | .tset e => Sys2Proof.Machine.execTset e s
  | .capon e => Sys2Proof.Machine.execCapon e s
  | .capoff e => Sys2Proof.Machine.execCapoff e s
  | .trig e => Sys2Proof.Machine.execTrig e s
  | .wave e => Sys2Proof.Machine.execWave e s
  | .mark e => Sys2Proof.Machine.execMark e s
  | .stream e => Sys2Proof.Machine.execStream e s
  | .uop e words => Sys2Proof.Machine.execUop e words s
  | .halt e => Sys2Proof.Machine.execHalt e s
  | .twinTrap e addr corr => Sys2Proof.Machine.execTwinTrap e addr corr s
  | .liningRedirect e => Sys2Proof.Machine.execLiningRedirect e s
  | .poisonTrap e => Sys2Proof.Machine.execPoisonTrap e s
  | .cstoreUncorrTrap e store addr corr => Sys2Proof.Machine.execCstoreUncorrTrap e store addr corr s
  | .cstoreFieldTrap e => Sys2Proof.Machine.execCstoreFieldTrap e s
  | .hostAbortInterrupt e => Sys2Proof.Machine.execHostAbortInterrupt e s
  | .armingRequestInterrupt e => Sys2Proof.Machine.execArmingRequestInterrupt e s
  | .serviceRequestInterrupt e => Sys2Proof.Machine.execServiceRequestInterrupt e s
  | .cstoreRepair e ok => Sys2Proof.Machine.execCstoreRepair e ok s
  | .ucodePackageLoad => Sys2Proof.Machine.execUcodePackageLoad s
  | .cstoreWordCommit p k w => Sys2Proof.Machine.execCstoreWordCommit p k w s
  | .engineDispatchReceived e => Sys2Proof.Machine.execEngineDispatchReceived e s
  | .armingComplete e => Sys2Proof.Machine.execArmingComplete e s
  | .vectorRelease site => Sys2Proof.Machine.execVectorRelease site s
  | .driveEdge c => Sys2Proof.Machine.execDriveEdge c s
  | .strobeOpen c ch cl => Sys2Proof.Machine.execStrobeOpen c ch cl s
  | .strobeClose c moved => Sys2Proof.Machine.execStrobeClose c moved s
  | .compareResultReturn site drained => Sys2Proof.Machine.execCompareResultReturn site drained s
  | .burstEnd e => Sys2Proof.Machine.execBurstEnd e s
  | .mirrorCheck ix diff => Sys2Proof.Machine.execMirrorCheck ix diff s
  | .sscApply => Sys2Proof.Machine.execSscApply s
  | .islandMonitorSample l => Sys2Proof.Machine.execIslandMonitorSample l s
  | .seamParityError n => Sys2Proof.Machine.execSeamParityError n s
  | .siteDeclare p site w => Sys2Proof.Machine.execSiteDeclare p site w s
  | .declarationTakeEffect site => Sys2Proof.Machine.execDeclarationTakeEffect site s
  | .siteReset p site w => Sys2Proof.Machine.execSiteReset p site w s
  | .siteWipe site => Sys2Proof.Machine.execSiteWipe site s
  | .siteWipeEnd site => Sys2Proof.Machine.execSiteWipeEnd site s
  | .siteTrig p site w => Sys2Proof.Machine.execSiteTrig p site w s
  | .partitionLock p w => Sys2Proof.Machine.execPartitionLock p w s
  | .registerGo p w => Sys2Proof.Machine.execRegisterGo p w s
  | .registrationEnd p => Sys2Proof.Machine.execRegistrationEnd p s
  | .loadableDrop p w => Sys2Proof.Machine.execLoadableDrop p w s
  | .submit p w => Sys2Proof.Machine.execSubmit p w s
  | .heldSubmissionRetry => Sys2Proof.Machine.execHeldSubmissionRetry s
  | .schedulerTick => Sys2Proof.Machine.execSchedulerTick s
  | .delayListRelease => Sys2Proof.Machine.execDelayListRelease s
  | .readyQueueEntry site => Sys2Proof.Machine.execReadyQueueEntry site s
  | .dispatchCommit skip => Sys2Proof.Machine.execDispatchCommit skip s
  | .cancel p w => Sys2Proof.Machine.execCancel p w s
  | .startDeadlinePassed slot => Sys2Proof.Machine.execStartDeadlinePassed slot s
  | .hostFlagWrite p site w => Sys2Proof.Machine.execHostFlagWrite p site w s
  | .alloc p w => Sys2Proof.Machine.execAlloc p w s
  | .free p w => Sys2Proof.Machine.execFree p w s
  | .boltWipeEnd => Sys2Proof.Machine.execBoltWipeEnd s
  | .writeDrainStart c => Sys2Proof.Machine.execWriteDrainStart c s
  | .writeDrainEnd c => Sys2Proof.Machine.execWriteDrainEnd c s
  | .dramReadReturn line outcome => Sys2Proof.Machine.execDramReadReturn line outcome s
  | .refreshDue g heavy => Sys2Proof.Machine.execRefreshDue g heavy s
  | .refreshAnnounce g heavy => Sys2Proof.Machine.execRefreshAnnounce g heavy s
  | .refreshStart g => Sys2Proof.Machine.execRefreshStart g s
  | .refreshEnd => Sys2Proof.Machine.execRefreshEnd s
  | .stackTempPoll t => Sys2Proof.Machine.execStackTempPoll t s
  | .dramScrubRead outcome => Sys2Proof.Machine.execDramScrubRead outcome s
  | .selfRefreshEnter p w => Sys2Proof.Machine.execSelfRefreshEnter p w s
  | .selfRefreshEntryEnd => Sys2Proof.Machine.execSelfRefreshEntryEnd s
  | .selfRefreshExit p w => Sys2Proof.Machine.execSelfRefreshExit p w s
  | .selfRefreshExitEnd => Sys2Proof.Machine.execSelfRefreshExitEnd s
  | .ringEnable p site w => Sys2Proof.Machine.execRingEnable p site w s
  | .resetpos p site w => Sys2Proof.Machine.execResetpos p site w s
  | .unmark p site w => Sys2Proof.Machine.execUnmark p site w s
  | .markSet p site w => Sys2Proof.Machine.execMarkSet p site w s
  | .captureEnable p site w => Sys2Proof.Machine.execCaptureEnable p site w s
  | .grantWrite p capture n w => Sys2Proof.Machine.execGrantWrite p capture n w s
  | .acqArm p u w => Sys2Proof.Machine.execAcqArm p u w s
  | .acqDisarm p u w => Sys2Proof.Machine.execAcqDisarm p u w s
  | .acqForce p u w => Sys2Proof.Machine.execAcqForce p u w s
  | .envelopeLoadEnd u => Sys2Proof.Machine.execEnvelopeLoadEnd u s
  | .captureSampleArrival n x drained => Sys2Proof.Machine.execCaptureSampleArrival n x drained s
  | .acqDrainEnd u => Sys2Proof.Machine.execAcqDrainEnd u s
  | .ledgerAck p w => Sys2Proof.Machine.execLedgerAck p w s
  | .sealSpan p w => Sys2Proof.Machine.execSeal p w s
  | .sealSigned => Sys2Proof.Machine.execSealSigned s
  | .srcStreamEnable p n w => Sys2Proof.Machine.execSrcStreamEnable p n w s
  | .srcStreamDisable p n w => Sys2Proof.Machine.execSrcStreamDisable p n w s
  | .sourceSlot n fetched beyond => Sys2Proof.Machine.execSourceSlot n fetched beyond s
  | .srcStart p n w => Sys2Proof.Machine.execSrcStart p n w s
  | .srcRedirect p n w => Sys2Proof.Machine.execSrcRedirect p n w s
  | .srcStop p n w => Sys2Proof.Machine.execSrcStop p n w s
  | .srcHalt p n w => Sys2Proof.Machine.execSrcHalt p n w s
  | .stampInputEdge c low rising code pcode => Sys2Proof.Machine.execStampInputEdge c low rising code pcode s
  | .stampDequeue ix drained => Sys2Proof.Machine.execStampDequeue ix drained s
  | .tdcLoopMeasure ix err idac => Sys2Proof.Machine.execTdcLoopMeasure ix err idac s
  | .stampLineTimeout site drained => Sys2Proof.Machine.execStampLineTimeout site drained s
  | .stamperEnable p ix w => Sys2Proof.Machine.execStamperEnable p ix w s
  | .stampRegionEnable p site w => Sys2Proof.Machine.execStampRegionEnable p site w s
  | .stampRegionClear p site w => Sys2Proof.Machine.execStampRegionClear p site w s
  | .intervalArm p u w => Sys2Proof.Machine.execIntervalArm p u w s
  | .intervalDisarm p u w => Sys2Proof.Machine.execIntervalDisarm p u w s
  | .freqArm p u w => Sys2Proof.Machine.execFreqArm p u w s
  | .freqDisarm p u w => Sys2Proof.Machine.execFreqDisarm p u w s
  | .freqGateClose u => Sys2Proof.Machine.execFreqGateClose u s
  | .freqFitComplete u => Sys2Proof.Machine.execFreqFitComplete u s
  | .timeSet p w => Sys2Proof.Machine.execTimeSet p w s
  | .stepApply => Sys2Proof.Machine.execStepApply s
  | .xtalTempRead temp => Sys2Proof.Machine.execXtalTempRead temp s
  | .ageingAdd => Sys2Proof.Machine.execAgeingAdd s
  | .rateSet p w => Sys2Proof.Machine.execRateSet p w s
  | .servoSourceApply => Sys2Proof.Machine.execServoSourceApply s
  | .servoMeasurement => Sys2Proof.Machine.execServoMeasurement s
  | .servoHoldover => Sys2Proof.Machine.execServoHoldover s
  | .ringRequestSend => Sys2Proof.Machine.execRingRequestSend s
  | .ringRequestReceive lane b turn => Sys2Proof.Machine.execRingRequestReceive lane b turn s
  | .ringReplyReceive lane reply time => Sys2Proof.Machine.execRingReplyReceive lane reply time s
  | .stitchEventRaise p w => Sys2Proof.Machine.execStitchEventRaise p w s
  | .stitchEventReceive lane b => Sys2Proof.Machine.execStitchEventReceive lane b s
  | .stitchEventDeliver => Sys2Proof.Machine.execStitchEventDeliver s
  | .ptpAnnounce m => Sys2Proof.Machine.execPtpAnnounce m s
  | .ptpSync sender seq phase t1 corr => Sys2Proof.Machine.execPtpSync sender seq phase t1 corr s
  | .ptpFollowUp sender seq t1 corr => Sys2Proof.Machine.execPtpFollowUp sender seq t1 corr s
  | .ptpDelayReq => Sys2Proof.Machine.execPtpDelayReq s
  | .ptpDelayResp sender seq t4 corr interval => Sys2Proof.Machine.execPtpDelayResp sender seq t4 corr interval s
  | .ptpOtherMessage => Sys2Proof.Machine.execPtpOtherMessage s
  | .ptpPortRestart => Sys2Proof.Machine.execPtpPortRestart s
  | .compareCountWrite p w => Sys2Proof.Machine.execCompareCountWrite p w s
  | .compareArm p n w => Sys2Proof.Machine.execCompareArm p n w s
  | .compareDisarm p n w => Sys2Proof.Machine.execCompareDisarm p n w s
  | .compareFire n => Sys2Proof.Machine.execCompareFire n s
  | .tpoArm p k w => Sys2Proof.Machine.execTpoArm p k w s
  | .tpoDisarm p k w => Sys2Proof.Machine.execTpoDisarm p k w s
  | .tpoPulse k => Sys2Proof.Machine.execTpoPulse k s
  | .tciEdge k stable => Sys2Proof.Machine.execTciEdge k stable s
  | .alignmentMarker l b apart bip hdr track => Sys2Proof.Machine.execAlignmentMarker l b apart bip hdr track s
  | .cdrLock l step => Sys2Proof.Machine.execCdrLock l step s
  | .blockLock l hdr => Sys2Proof.Machine.execBlockLock l hdr s
  | .lockLoss l hdr => Sys2Proof.Machine.execLockLoss l hdr s
  | .rateHuntTimeout l => Sys2Proof.Machine.execRateHuntTimeout l s
  | .rateStepTimeout p => Sys2Proof.Machine.execRateStepTimeout p s
  | .idle l => Sys2Proof.Machine.execIdle l s
  | .ack p b => Sys2Proof.Machine.execAck p b s
  | .nak p b => Sys2Proof.Machine.execNak p b s
  | .credit p b => Sys2Proof.Machine.execCredit p b s
  | .xoff p b => Sys2Proof.Machine.execXoff p b s
  | .xon p b => Sys2Proof.Machine.execXon p b s
  | .neg p b => Sys2Proof.Machine.execNeg p b s
  | .lset p b => Sys2Proof.Machine.execLset p b s
  | .lreq p b => Sys2Proof.Machine.execLreq p b s
  | .rate p b => Sys2Proof.Machine.execRate p b s
  | .negSend p => Sys2Proof.Machine.execNegSend p s
  | .creditRepeat p => Sys2Proof.Machine.execCreditRepeat p s
  | .ackTimer p => Sys2Proof.Machine.execAckTimer p s
  | .replayTimeout p => Sys2Proof.Machine.execReplayTimeout p s
  | .regRd p seq k => Sys2Proof.Machine.execRegRd p seq k s
  | .regWr p seq k => Sys2Proof.Machine.execRegWr p seq k s
  | .memRd p seq k => Sys2Proof.Machine.execMemRd p seq k s
  | .memWr p seq k => Sys2Proof.Machine.execMemWr p seq k s
  | .strm p seq k => Sys2Proof.Machine.execStrm p seq k s
  | .dbell p seq k => Sys2Proof.Machine.execDbell p seq k s
  | .qrd p seq k => Sys2Proof.Machine.execQrd p seq k s
  | .msi p => Sys2Proof.Machine.execMsi p s
  | .msiHoldoffEnd p => Sys2Proof.Machine.execMsiHoldoffEnd p s
  | .irqstatWrite p w => Sys2Proof.Machine.execIrqstatWrite p w s
  | .eventWordEnter p => Sys2Proof.Machine.execEventWordEnter p s
  | .eventQueueRead p => Sys2Proof.Machine.execEventQueueRead p s
  | .commandPush p w => Sys2Proof.Machine.execCommandPush p w s
  | .commandPushEnd p w => Sys2Proof.Machine.execCommandPushEnd p w s
  | .evflush p w => Sys2Proof.Machine.execEvflush p w s
  | .cmdflush p w => Sys2Proof.Machine.execCmdflush p w s
  | .echo p busy => Sys2Proof.Machine.execEcho p busy s
  | .fwinfo p busy => Sys2Proof.Machine.execFwinfo p busy s
  | .ptpinfo p busy => Sys2Proof.Machine.execPtpinfo p busy s
  | .rasread p busy => Sys2Proof.Machine.execRasread p busy s
  | .logread p busy => Sys2Proof.Machine.execLogread p busy s
  | .serviceResponsePost p => Sys2Proof.Machine.execServiceResponsePost p s
  | .laneEnable p l w => Sys2Proof.Machine.execLaneEnable p l w s
  | .laneRetrain p l w => Sys2Proof.Machine.execLaneRetrain p l w s
  | .laneRateWrite p l rate => Sys2Proof.Machine.execLaneRateWrite p l rate s
  | .loopbackSet p l mode => Sys2Proof.Machine.execLoopbackSet p l mode s
  | .portMapWrite p ix w => Sys2Proof.Machine.execPortMapWrite p ix w s
  | .mailboxSelect p w => Sys2Proof.Machine.execMailboxSelect p w s
  | .mailboxLatchComplete p => Sys2Proof.Machine.execMailboxLatchComplete p s
  | .mailboxLastRead p => Sys2Proof.Machine.execMailboxLastRead p s
  | .clearOnRead p x => Sys2Proof.Machine.execClearOnRead p x s
  | .assignmentWrite p ix w => Sys2Proof.Machine.execAssignmentWrite p ix w s
  | .registerWrite p a w => Sys2Proof.Machine.execRegisterWrite p a w s
  | .calRun p w => Sys2Proof.Machine.execCalRun p w s
  | .calPassesBegin => Sys2Proof.Machine.execCalPassesBegin s
  | .calRunEnd pass => Sys2Proof.Machine.execCalRunEnd pass s
  | .calCommit p w => Sys2Proof.Machine.execCalCommit p w s
  | .calCommitApply => Sys2Proof.Machine.execCalCommitApply s
  | .calDiscard p w => Sys2Proof.Machine.execCalDiscard p w s
  | .vinSample vin pin rails cores => Sys2Proof.Machine.execVinSample vin pin rails cores s
  | .powerFail rail low => Sys2Proof.Machine.execPowerFail rail low s
  | .powerOnReset => Sys2Proof.Machine.execPowerOnReset s
  | .resetNAssert low => Sys2Proof.Machine.execResetNAssert low s
  | .cold p w => Sys2Proof.Machine.execCold p w s
  | .warm p w => Sys2Proof.Machine.execWarm p w s
  | .releasePoint profile flash => Sys2Proof.Machine.execReleasePoint profile flash s
  | .ready pkg passed => Sys2Proof.Machine.execReady pkg passed s
  | .watchdogExpiry => Sys2Proof.Machine.execWatchdogExpiry s
  | .kick p w => Sys2Proof.Machine.execKick p w s
  | .standby p w => Sys2Proof.Machine.execStandby p w s
  | .resume p w => Sys2Proof.Machine.execResume p w s
  | .wakeNFall high low => Sys2Proof.Machine.execWakeNFall high low s
  | .resumeDispatchRestart => Sys2Proof.Machine.execResumeDispatchRestart s
  | .lifecycleTransition p w cut => Sys2Proof.Machine.execLifecycleTransition p w cut s
  | .imageStart p w => Sys2Proof.Machine.execImageStart p w s
  | .imageData p w => Sys2Proof.Machine.execImageData p w s
  | .imageFinish p w => Sys2Proof.Machine.execImageFinish p w s
  | .imageAbort p w => Sys2Proof.Machine.execImageAbort p w s
  | .imageCheckEnd => Sys2Proof.Machine.execImageCheckEnd s
  | .svnWrite p w => Sys2Proof.Machine.execSvnWrite p w s
  | .logSelect p w => Sys2Proof.Machine.execLogSelect p w s
  | .quoteGo p w => Sys2Proof.Machine.execQuoteGo p w s
  | .quoteSigned => Sys2Proof.Machine.execQuoteSigned s
  | .sramError x corrected island addr => Sys2Proof.Machine.execSramError x corrected island addr s
  | .cuffPllLockLost k => Sys2Proof.Machine.execCuffPllLockLost k s
  | .sramScrubRead x outcome island addr => Sys2Proof.Machine.execSramScrubRead x outcome island addr s
  | .withdraw p w => Sys2Proof.Machine.execWithdraw p w s
  | .reinstate p w => Sys2Proof.Machine.execReinstate p w s
  | .marchTestEnd pass => Sys2Proof.Machine.execMarchTestEnd pass s
  | .rasLogSelect p w => Sys2Proof.Machine.execRasLogSelect p w s
  | .tapReset trst => Sys2Proof.Machine.execTapReset trst s
  | .bypass tdi => Sys2Proof.Machine.execBypass tdi s
  | .idcode => Sys2Proof.Machine.execIdcode s
  | .samplePreload sample preload => Sys2Proof.Machine.execSamplePreload sample preload s
  | .extest sample shifted => Sys2Proof.Machine.execExtest sample shifted s
  | .clamp tdi => Sys2Proof.Machine.execClamp tdi s
  | .highz tdi => Sys2Proof.Machine.execHighz tdi s
  | .extestPulse sample shifted => Sys2Proof.Machine.execExtestPulse sample shifted s
  | .extestTrain sample shifted => Sys2Proof.Machine.execExtestTrain sample shifted s
  | .timingSetCommit p site w => Sys2Proof.Machine.execTimingSetCommit p site w s
  | .timingSetInvalidate p site w => Sys2Proof.Machine.execTimingSetInvalidate p site w s
  | .timingSetValidationEnd site => Sys2Proof.Machine.execTimingSetValidationEnd site s
  | .cuffPllLock k => Sys2Proof.Machine.execCuffPllLock k s
  | .freqGateOpen u => Sys2Proof.Machine.execFreqGateOpen u s
  | .badCrc p => Sys2Proof.Machine.execBadCrc p s

end Sys2Proof.Machine
end

