-- ==== Sys2Proof/WellFormed.lean ====
section
/-! DEFINITION. WellFormed: what a command's operands must satisfy beside their types: the lengths and field widths of Tables 11.9
and 11.10 (11_lanes_and_host_link.md), of the messages of R355, and of the sampled vectors of R26, R450 and R506. -/
namespace Sys2Proof

/-- Table 11.9: LEN has eleven bits and is the number of data blocks. -/
def Packet.wf (k : Packet) : Bool := decide (k.blocks.length < 2048)

/-- A packet of one TYPE of Table 11.10. -/
def Packet.isOf (k : Packet) (type : BitVec 6) : Bool := k.wf && k.type == type

/-- The TYPEs of Table 11.10 that have a row of their own beside MEM_WR. -/
def Packet.rowTypes : List (BitVec 6) := [0x01, 0x02, 0x03, 0x05, 0x06, 0x07]

/-- The widths of the fields of an Announce message (R355). -/
def AnnounceMsg.wf (m : AnnounceMsg) : Bool :=
  decide (m.priority1 < 256) && decide (m.clockClass < 256) && decide (m.accuracy < 256) && decide (m.variance < 65536) &&
    decide (m.priority2 < 256) && decide (m.gmid < 2 ^ 64) && decide (m.steps < 65536) && decide (m.sender < 2 ^ 80) &&
    decide (m.domain < 256) && decide (-128 ≤ m.logSync ∧ m.logSync ≤ 127) &&
    decide (-128 ≤ m.logAnnounce ∧ m.logAnnounce ≤ 127)

/-- Whether a command is well formed. A packet of a TYPE with no row of its own arrives as a MEM_WR (DESIGN CHOICE, log 1). -/
def Instr.wf : Instr → Bool
  | .vec _ _ => true
  | .rpt _ => true
  | .loop _ => true
  | .endl _ => true
  | .call _ => true
  | .ret _ => true
  | .jmp _ => true
  | .jif _ => true
  | .jifSyncResolve _ _ => true
  | .matchStart _ => true
  | .matchEnd _ _ => true
  | .waitt _ => true
  | .waittTargetReached _ => true
  | .waittTimeout _ => true
  | .tset _ => true
  | .capon _ => true
  | .capoff _ => true
  | .trig _ => true
  | .wave _ => true
  | .mark _ => true
  | .stream _ => true
  | .uop _ _ => true
  | .halt _ => true
  | .twinTrap _ _ _ => true
  | .liningRedirect _ => true
  | .poisonTrap _ => true
  | .cstoreUncorrTrap _ _ _ _ => true
  | .cstoreFieldTrap _ => true
  | .hostAbortInterrupt _ => true
  | .armingRequestInterrupt _ => true
  | .serviceRequestInterrupt _ => true
  | .cstoreRepair _ _ => true
  | .ucodePackageLoad => true
  | .cstoreWordCommit _ _ _ => true
  | .engineDispatchReceived _ => true
  | .armingComplete _ => true
  | .vectorRelease _ => true
  | .driveEdge _ => true
  | .strobeOpen _ _ _ => true
  | .strobeClose _ _ => true
  | .compareResultReturn _ drained => drained.all fun x => decide (x.1 < 32)
  | .burstEnd _ => true
  | .mirrorCheck _ _ => true
  | .sscApply => true
  | .islandMonitorSample l => l.length == 41
  | .seamParityError _ => true
  | .siteDeclare _ _ _ => true
  | .declarationTakeEffect _ => true
  | .siteReset _ _ _ => true
  | .siteWipe _ => true
  | .siteWipeEnd _ => true
  | .siteTrig _ _ _ => true
  | .partitionLock _ _ => true
  | .registerGo _ _ => true
  | .registrationEnd _ => true
  | .loadableDrop _ _ => true
  | .submit _ _ => true
  | .heldSubmissionRetry => true
  | .schedulerTick => true
  | .delayListRelease => true
  | .readyQueueEntry _ => true
  | .dispatchCommit _ => true
  | .cancel _ _ => true
  | .startDeadlinePassed _ => true
  | .hostFlagWrite _ _ _ => true
  | .alloc _ _ => true
  | .free _ _ => true
  | .boltWipeEnd => true
  | .writeDrainStart _ => true
  | .writeDrainEnd _ => true
  | .dramReadReturn _ _ => true
  | .refreshDue _ _ => true
  | .refreshAnnounce _ _ => true
  | .refreshStart _ => true
  | .refreshEnd => true
  | .stackTempPoll _ => true
  | .dramScrubRead _ => true
  | .selfRefreshEnter _ _ => true
  | .selfRefreshEntryEnd => true
  | .selfRefreshExit _ _ => true
  | .selfRefreshExitEnd => true
  | .ringEnable _ _ _ => true
  | .resetpos _ _ _ => true
  | .unmark _ _ _ => true
  | .markSet _ _ _ => true
  | .captureEnable _ _ _ => true
  | .grantWrite _ _ _ _ => true
  | .acqArm _ _ _ => true
  | .acqDisarm _ _ _ => true
  | .acqForce _ _ _ => true
  | .envelopeLoadEnd _ => true
  | .captureSampleArrival _ _ drained => drained.all fun x => decide (x.1 < 32)
  | .acqDrainEnd _ => true
  | .ledgerAck _ _ => true
  | .sealSpan _ _ => true
  | .sealSigned => true
  | .srcStreamEnable _ _ _ => true
  | .srcStreamDisable _ _ _ => true
  | .sourceSlot _ _ _ => true
  | .srcStart _ _ _ => true
  | .srcRedirect _ _ _ => true
  | .srcStop _ _ _ => true
  | .srcHalt _ _ _ => true
  | .stampInputEdge _ _ _ _ _ => true
  | .stampDequeue _ drained => drained.all fun x => decide (x.1 < 32)
  | .tdcLoopMeasure _ _ _ => true
  | .stampLineTimeout _ drained => drained.all fun x => decide (x.1 < 32)
  | .stamperEnable _ _ _ => true
  | .stampRegionEnable _ _ _ => true
  | .stampRegionClear _ _ _ => true
  | .intervalArm _ _ _ => true
  | .intervalDisarm _ _ _ => true
  | .freqArm _ _ _ => true
  | .freqDisarm _ _ _ => true
  | .freqGateClose _ => true
  | .freqFitComplete _ => true
  | .timeSet _ _ => true
  | .stepApply => true
  | .xtalTempRead _ => true
  | .ageingAdd => true
  | .rateSet _ _ => true
  | .servoSourceApply => true
  | .servoMeasurement => true
  | .servoHoldover => true
  | .ringRequestSend => true
  | .ringRequestReceive _ _ _ => true
  | .ringReplyReceive _ _ _ => true
  | .stitchEventRaise _ _ => true
  | .stitchEventReceive _ _ => true
  | .stitchEventDeliver => true
  | .ptpAnnounce m => m.wf
  | .ptpSync _ seq phase _ _ => decide (seq < 65536) && decide (phase < 4294967296)
  | .ptpFollowUp _ seq _ _ => decide (seq < 65536)
  | .ptpDelayReq => true
  | .ptpDelayResp _ seq _ _ interval => decide (seq < 65536) && decide (-128 ≤ interval ∧ interval ≤ 127)
  | .ptpOtherMessage => true
  | .ptpPortRestart => true
  | .compareCountWrite _ _ => true
  | .compareArm _ _ _ => true
  | .compareDisarm _ _ _ => true
  | .compareFire _ => true
  | .tpoArm _ _ _ => true
  | .tpoDisarm _ _ _ => true
  | .tpoPulse _ => true
  | .tciEdge _ _ => true
  | .alignmentMarker _ _ _ _ _ _ => true
  | .cdrLock _ _ => true
  | .blockLock _ _ => true
  | .lockLoss _ _ => true
  | .rateHuntTimeout _ => true
  | .rateStepTimeout _ => true
  | .idle _ => true
  | .ack _ _ => true
  | .nak _ _ => true
  | .credit _ _ => true
  | .xoff _ _ => true
  | .xon _ _ => true
  | .neg _ _ => true
  | .lset _ _ => true
  | .lreq _ _ => true
  | .rate _ _ => true
  | .negSend _ => true
  | .creditRepeat _ => true
  | .ackTimer _ => true
  | .replayTimeout _ => true
  | .regRd _ _ k => k.isOf 0x01
  | .regWr _ _ k => k.isOf 0x02
  | .memRd _ _ k => k.isOf 0x03
  | .memWr _ _ k => k.wf && !Packet.rowTypes.contains k.type
  | .strm _ _ k => k.isOf 0x05
  | .dbell _ _ k => k.isOf 0x06
  | .qrd _ _ k => k.isOf 0x07
  | .msi _ => true
  | .msiHoldoffEnd _ => true
  | .irqstatWrite _ _ => true
  | .eventWordEnter _ => true
  | .eventQueueRead _ => true
  | .commandPush _ _ => true
  | .commandPushEnd _ _ => true
  | .evflush _ _ => true
  | .cmdflush _ _ => true
  | .echo _ _ => true
  | .fwinfo _ _ => true
  | .ptpinfo _ _ => true
  | .rasread _ _ => true
  | .logread _ _ => true
  | .serviceResponsePost _ => true
  | .laneEnable _ _ _ => true
  | .laneRetrain _ _ _ => true
  | .laneRateWrite _ _ _ => true
  | .loopbackSet _ _ _ => true
  | .portMapWrite _ _ _ => true
  | .mailboxSelect _ _ => true
  | .mailboxLatchComplete _ => true
  | .mailboxLastRead _ => true
  | .clearOnRead _ _ => true
  | .assignmentWrite _ _ _ => true
  | .registerWrite _ _ _ => true
  | .calRun _ _ => true
  | .calPassesBegin => true
  | .calRunEnd _ => true
  | .calCommit _ _ => true
  | .calCommitApply => true
  | .calDiscard _ _ => true
  | .vinSample _ _ rails cores => rails.length == 8 && cores.length == 41
  | .powerFail _ _ => true
  | .powerOnReset => true
  | .resetNAssert _ => true
  | .cold _ _ => true
  | .warm _ _ => true
  | .releasePoint _ _ => true
  | .ready _ _ => true
  | .watchdogExpiry => true
  | .kick _ _ => true
  | .standby _ _ => true
  | .resume _ _ => true
  | .wakeNFall _ _ => true
  | .resumeDispatchRestart => true
  | .lifecycleTransition _ _ _ => true
  | .imageStart _ _ => true
  | .imageData _ _ => true
  | .imageFinish _ _ => true
  | .imageAbort _ _ => true
  | .imageCheckEnd => true
  | .svnWrite _ _ => true
  | .logSelect _ _ => true
  | .quoteGo _ _ => true
  | .quoteSigned => true
  | .sramError _ _ _ _ => true
  | .cuffPllLockLost _ => true
  | .sramScrubRead _ _ _ _ => true
  | .withdraw _ _ => true
  | .reinstate _ _ => true
  | .marchTestEnd _ => true
  | .rasLogSelect _ _ => true
  | .tapReset _ => true
  | .bypass _ => true
  | .idcode => true
  | .samplePreload sample preload => sample.length == preload.length
  | .extest sample shifted => sample.length == shifted.length
  | .clamp _ => true
  | .highz _ => true
  | .extestPulse sample shifted => sample.length == shifted.length
  | .extestTrain sample shifted => sample.length == shifted.length
  | .timingSetCommit _ _ _ => true
  | .timingSetInvalidate _ _ _ => true
  | .timingSetValidationEnd _ => true
  | .cuffPllLock _ => true
  | .freqGateOpen _ => true
  | .badCrc _ => true

end Sys2Proof
end

