-- ==== Sys2Proof/Certificates/Slice0/Obligations.lean ====
section
/-! DEFINITION. The statements for the provers: what each command does when the spec lets it act, what it leaves alone, and what
every step keeps. -/
namespace Sys2Proof.Claims
open Sys2Proof.Machine

/-! ### Words used by the statements -/

/-- On a device that no power fail holds (14_power_reset_and_trust.md R450), the command completes and changes the device alone, to `d`: the clock and
the queue stay. -/
def Becomes (i : Instr) (s : State) (d : Dev) : Prop := s.dev.trust.failed = false → exec i s = .next { s with dev := d }

/-- On a device that no power fail holds, the command completes in a state that `P` holds of. -/
def Yields (i : Instr) (s : State) (P : State → Prop) : Prop := s.dev.trust.failed = false → ∃ t, exec i s = .next t ∧ P t

/-- Table 12.2: a port's write of a register passes the access checks: the port is up (R421), no submission of it is held and no write of it waits
(R170, R402, R403), the device is READY or the block may be written before (R452), the port owns the register, and no fenced seam cuts the write
off (R20). -/
def Admits (s : State) (p : Nat) (r : Reg) (w : Word) : Prop :=
  s.dev.accepts p = true ∧ (s.dev.ready = true ∨ earlyBlock r.addr = true) ∧ s.mirror.mayWrite p r w = true ∧
    s.mirror.writeCut r.addr = false

/-! ### Asell instructions -/

/-- Engine `e` is ready to execute the instruction whose header is `h` and whose opcode is `op`: its burst is `b`, the opcode has a
routine, which does not need the redirect of R95 first, and no field of the header is reserved (R35). -/
def Dispatches (s : State) (e : Fin 16) (op : Nat) (b : Burst) (h : Word64) : Prop :=
  readyBurst s.mirror e = some b ∧ fetchWord s.mirror b b.pc = .ok h ∧ hOpc h = op ∧ s.mirror.present e op = true ∧
    (runsLining s.mirror e op = false ∨ b.redirected = true) ∧ ∃ row, opRow op = some row ∧ headerField row h = false

/-- The same, and no word that the routine of the opcode can come to is other than the package loaded it (R110). -/
def Executes (s : State) (e : Fin 16) (op : Nat) (b : Burst) (h : Word64) : Prop :=
  Dispatches s e op b h ∧ rewritten s.mirror e op = false

/-- The instruction leaves burst `b'`: engine `e` goes on with it (a mask stop pending for the word takes its place, R83). -/
def Leaves (i : Instr) (s : State) (e : Fin 16) (b : Burst) (h : Word64) (b' : Burst) : Prop :=
  Becomes i s (finishInstr s.mirror e b h (.ok b'))

/-- The vector an instruction may carry, read after its header, and the address after it; the set it uses is valid. -/
def Carries (s : State) (b : Burst) (h : Word64) (v : Option (BitVec 512)) (next : Nat) : Prop :=
  readOne s.mirror b h (b.pc + 1) = .ok (v, next) ∧ (v = none ∨ s.mirror.tsValid b.site (headerTs b h) = true)

/-- The one vector an instruction's payload holds at `pc`, and the address after it; the set it uses is valid. -/
def Holds (s : State) (b : Burst) (h : Word64) (pc : Nat) (v : BitVec 512) (next : Nat) : Prop :=
  readRun s.mirror b (hForm h) 1 0 pc b.image [] = .ok ([v], next) ∧ s.mirror.tsValid b.site (headerTs b h) = true

/-- A burst with the vector an instruction carries emitted under the next number. -/
def withOwn (b : Burst) (h : Word64) : Option (BitVec 512) → Burst
  | none => b
  | some v => emitNumbered b v (headerTs b h) 1 (capOf b h)

/-- R60: a burst with the pad of its WAITT emitted, unnumbered. -/
def padded (b : Burst) (h : Word64) (v : BitVec 512) : Burst :=
  emitUnnumbered b { kind := .waitPad, syms := v, ts := headerTs b h, count := 1, ongoing := true }

/-- R56: the settle copies that stand when a synchronised JIF resolves with `extra` of them emitted: as many at least as have passed the yoke. -/
def settleCopies (b : Burst) (extra : Nat) : Nat := max (min extra (copiesLeft b.queue)) (copiesLeft b.queue - b.engineSide)

/-- R56: a burst whose synchronised JIF has resolved with `x` settle copies left to release; the others are taken back. -/
def jifSettled (b : Burst) (x : Nat) : Burst :=
  { b.takeBack (copiesLeft b.queue - x) with
    wait := none, settles := 0
    queue := editRun .settle (fun r => if x = 0 then none else some { r with count := x, ongoing := false }) b.queue }

/-- R59: a burst whose MATCH has ended with `k` of its at most `t` repetitions, numbered from `first`; the others are taken back. -/
def matchOver (b : Burst) (first t k : Nat) (hit : Option Nat) : Burst :=
  let left := k - (t - matchLeft b.queue)
  { b.takeBack (matchLeft b.queue - left) with
    wait := none, matchHit := none, matched := hit.isSome, next := first + k, queue := cutMatch left b.queue
    reps := b.reps ++ [(first, k)], repEvents := [] }

/-- R59, Table 7.8: the entry of a MATCH that asks for one: a matching repetition, or the last one with bit 63 set, and the count. -/
def matchEntry (d : Dev) (b : Burst) (h : Word64) (first k : Nat) (hit : Option Nat) : Dev :=
  if hFlag h 2 then
    ledger d 0x06 ucEvent b.site 0 d.now 0 ((if hit.isSome then 0 else 2 ^ 63) + (hit.getD (first + k - 1)) % 2 ^ 48) (k % 2 ^ 40)
  else d

/-- Vectors emitted one by one, each with its set. -/
def withVectors (capture : Bool) : List (BitVec 512 × Nat) → Burst → Burst
  | [], b => b
  | x :: xs, b => withVectors capture xs (emitNumbered b x.1 x.2 1 capture)

/-! ### Traps -/

/-- R95: a trap counted in ENG_TRAP with its code. -/
def trapped (d : Dev) (e code : Nat) : Dev :=
  (d.set (.ENG_TRAP e) 15 0 (min (d.get (.ENG_TRAP e) 15 0 + 1) 65535)).set (.ENG_TRAP e) 23 16 code

/-- The micro-state at a trap: that of the routine in progress word by word, or of a standard routine, whose words the spec does not give
(log 7). -/
def microNow (d : Dev) (b : Burst) (at_ : Option (Bool × Nat)) : Micro × Dev :=
  match b.micro with
  | some m => (m, d)
  | none => stdMicro d b at_

/-- R95: the micro-state saved in the engine's frame, and the trap counted. -/
def trappedFrame (d : Dev) (e : Nat) (b : Burst) (code : Nat) (at_ : Option (Bool × Nat)) : Dev :=
  trapped ((microNow d b at_).2.modEngine e fun x => { x with frame := frameOf b (microNow d b at_).1 }) e code

/-- The burst of an engine ends with a device fault; what it has emitted stands. -/
def faulted (d : Dev) (e : Nat) (b : Burst) (code : Nat) : Dev :=
  if b.fin.isSome then d
  else setBurst d e { b.issuedOnly with wait := none, micro := none, fin := some (.fault code 0 false) }


/-! ### Packets of a host -/

/-- A packet of the expected number arrives on a port that is up, of which nothing waits and no submission is held, whose inbound buffer is empty and has room. -/
def Arrives (s : State) (p : Fin 8) (seq : Fin 4096) (k : Packet) : Prop :=
  s.mirror.portUp p = true ∧ seq.val = (s.dev.port p).rxSeq ∧ (s.dev.port p).inbound = [] ∧ (s.dev.schPort p).held = none ∧
    (s.dev.port p).waitWrite = none ∧ noRoom s.mirror p k = false

/-- R393: the packet has been accepted and numbered, an ACK sent where 32 packets have come since the last, credits brought up to date, and
the packet taken from the buffer to act. -/
def numbered (s : State) (p : Nat) (k : Packet) : Dev :=
  let d := s.mirror.modPort p fun x =>
    { x with rxSeq := (x.rxSeq + 1) % 4096, nakOut := false, sinceAck := x.sinceAck + 1, usedReqH := x.usedReqH + (isRequest k).toNat,
             inbound := [k] }
  (settle (if 32 ≤ (d.port p).sinceAck then sendAck d p else d) p).modPort p fun x => { x with inbound := [] }

/-- The packet has acted: its credits return, unless it has begun a reset. -/
def settled (d : Dev) (p : Nat) (k : Packet) : Dev := if d.trust.held then d else packetLeft d p k

/-- The command by which a packet arrives, by its TYPE. -/
def packetOf (t : Nat) (p : Fin 8) (seq : Fin 4096) (k : Packet) : Option Instr :=
  match t with
  | 1 => some (.regRd p seq k)
  | 2 => some (.regWr p seq k)
  | 3 => some (.memRd p seq k)
  | 4 => some (.memWr p seq k)
  | 5 => some (.strm p seq k)
  | 6 => some (.dbell p seq k)
  | 7 => some (.qrd p seq k)
  | _ => none


/-! ### Register accesses -/

/-- The commands that are a port's write of one register: the port, the register and the word written. -/
def portWrite (d : Dev) : Instr → Option (Nat × Reg × Word)
  | .captureEnable p site w => some (p, .ACQ_CAPCFG site, setBit w 31 true)
  | .acqArm p u w => some (p, .ACQ_CTL u, setBit w 31 true)
  | .acqDisarm p u w => some (p, .ACQ_CTL u, setBit (setBit w 31 false) 30 true)
  | .acqForce p u w => some (p, .ACQ_CTL u, setBit w 29 true)
  | .ledgerAck p w => some (p, .GLB_LGACKHI, w)
  | .sealSpan p w => some (p, .GLB_LGCTL, setBit w 31 true)
  | .alloc p w => some (p, .DRC_BCMD, setBit w 31 true)
  | .free p w => some (p, .DRC_BCMD, setBit (setBit w 31 false) 30 true)
  | .ringEnable p site w => some (p, .DRC_SRCFG site, setBit w 31 true)
  | .resetpos p site w => some (p, .DRC_SRCFG site, setBit w 30 true)
  | .unmark p site w => some (p, .DRC_SRCFG site, setBit w 29 true)
  | .markSet p site w => some (p, .DRC_SRMARKHI site, w)
  | .calRun p w => some (p, .CAL_CMD, setBit (setBit w 29 false) 31 true)
  | .calCommit p w => some (p, .CAL_CMD, setBit (setBit (setBit w 29 false) 31 false) 30 true)
  | .calDiscard p w => some (p, .CAL_CMD, setBit w 29 true)
  | .withdraw p w => some (p, .RAS_ENGCMD, setBit w 31 true)
  | .reinstate p w => some (p, .RAS_ENGCMD, setBit (setBit w 31 false) 30 true)
  | .rasLogSelect p w => some (p, .RAS_LOGSEL, w)
  | .selfRefreshEnter p w => some (p, .DRC_PWR, setBit w 31 true)
  | .selfRefreshExit p w => some (p, .DRC_PWR, setBit (setBit w 31 false) 30 true)
  | .stitchEventRaise p w => some (p, .TIM_SEV, setBit w 31 true)
  | .compareCountWrite p w => some (p, .TIM_CMPMODE, w)
  | .compareArm p n w => some (p, .TIM_CMPCTL n, setBit w 31 true)
  | .compareDisarm p n w => some (p, .TIM_CMPCTL n, setBit (setBit w 31 false) 30 true)
  | .tpoArm p k w => some (p, .TIM_TPOCTL k, setBit w 31 true)
  | .tpoDisarm p k w => some (p, .TIM_TPOCTL k, setBit w 30 true)
  | .rateSet p w => some (p, .TIM_RSET, w)
  | .laneEnable p l w => some (p, .LAN_CTL l, w)
  | .laneRetrain p l w => some (p, .LAN_CTL l, setBit w 21 true)
  | .laneRateWrite p l rate => some (p, .LAN_CTL l, setBits (d.rd (.LAN_CTL l)) 27 26 rate)
  | .loopbackSet p l mode => some (p, .LAN_CTL l, setBits (d.rd (.LAN_CTL l)) 30 28 mode)
  | .portMapWrite p i w => some (p, .LNK_PMAP i, w)
  | .irqstatWrite p w => some (p, .LNK_IRQSTAT p, w)
  | .mailboxSelect p w => some (p, .MBX_SEL p, w)
  | .registerGo p w => some (p, .SCH_LDCTL p, setBit w 31 true)
  | .loadableDrop p w => some (p, .SCH_LDCTL p, setBit (setBit w 31 false) 30 true)
  | .timingSetCommit p site w => some (p, .CUF_TSCOMMIT site, setBit w 31 true)
  | .timingSetInvalidate p site w => some (p, .CUF_TSCOMMIT site, setBit (setBit w 31 false) 30 true)
  | .standby p w => some (p, .GLB_PWR, setBit w 31 true)
  | .resume p w => some (p, .GLB_PWR, setBit (setBit w 31 false) 30 true)
  | .commandPush p w => some (p, .LNK_CMDQHI p, w)
  | .commandPushEnd p w => some (p, .LNK_CMDQHIE p, w)
  | .evflush p w => some (p, .LNK_QCTL p, setBit w 31 true)
  | .cold p w => some (p, .GLB_RST, setBit w 31 true)
  | .warm p w => some (p, .GLB_RST, setBit (setBit w 31 false) 30 true)
  | .submit p w => some (p, .SCH_SUBMIT p 7, w)
  | .cancel p w => some (p, .SCH_CANCEL p, w)
  | .siteDeclare p site w => some (p, .SCH_SITECMD site, setBit w 31 true)
  | .siteReset p site w => some (p, .SCH_SITECMD site, setBit w 30 true)
  | .siteTrig p site w => some (p, .SCH_SITECMD site, setBit w 29 true)
  | .partitionLock p w => some (p, .SCH_PLOCK, setBit w 0 true)
  | .hostFlagWrite p site w => some (p, .SCH_HFLAG site, w)
  | .srcStart p n w => some (p, .SRC_CTL n, setBit w 31 true)
  | .srcRedirect p n w => some (p, .SRC_CTL n, setBit w 30 true)
  | .srcStop p n w => some (p, .SRC_CTL n, setBit w 29 true)
  | .srcHalt p n w => some (p, .SRC_CTL n, setBit w 28 true)
  | .srcStreamEnable p n w => some (p, .SRC_SPER n, setBit w 31 true)
  | .srcStreamDisable p n w => some (p, .SRC_SPER n, setBit w 31 false)
  | .intervalArm p u w => some (p, .TDC_IVCTL u, setBit w 31 true)
  | .intervalDisarm p u w => some (p, .TDC_IVCTL u, setBit (setBit w 31 false) 30 true)
  | .freqArm p u w => some (p, .TDC_FQCTL u, setBit w 31 true)
  | .freqDisarm p u w => some (p, .TDC_FQCTL u, setBit (setBit w 31 false) 30 true)
  | .stamperEnable p i w => some (p, .TDC_IN i, setBit w 31 true)
  | .stampRegionEnable p site w => some (p, .TDC_RCTL site, setBit w 31 true)
  | .stampRegionClear p site w => some (p, .TDC_RCTL site, setBit w 29 true)
  | .timeSet p w => some (p, .TIM_SET 2, w)
  | .imageStart p w => some (p, .TRU_IMGCTL, setBit (setBit w 29 false) 31 true)
  | .imageData p w => some (p, .TRU_IMGDATA, w)
  | .imageFinish p w => some (p, .TRU_IMGCTL, setBit (setBit w 29 false) 30 true)
  | .imageAbort p w => some (p, .TRU_IMGCTL, setBit w 29 true)
  | .svnWrite p w => some (p, .TRU_SVN, w)
  | .logSelect p w => some (p, .TRU_LOGSEL, w)
  | .lifecycleTransition p w _ => some (p, .TRU_LCREQ, setBit w 31 true)
  | .quoteGo p w => some (p, .TRU_QCTL p, setBit w 31 true)
  | .grantWrite p capture n w => some (p, if capture then .ACQ_CAPGRANT n else .ACQ_GRANT n, w)
  | .assignmentWrite p i w => some (p, if i = 2 then .GLB_SRCSITE else .GLB_ACQSITE i, w)
  | _ => none

/-- R132: a snapshot is its site's active copy, on every channel of it, and the commit is over. -/
def Applied (d : Dev) (site : Nat) (x : Commit) : Prop :=
  (d.site site).commit = none ∧ d.tsValid site x.set = true ∧ d.period site x.set = x.period ∧
    (∀ c v, (c, v) ∈ x.chans → d.chanSet c x.set = v) ∧ d.flag (.CUF_TSSTAT site) 30 = true ∧ d.flag (.CUF_TSSTAT site) 31 = false

/-- A snapshot of a site: one of its 64 sets, with one entry a channel. -/
def snapshotOf (d : Dev) (site : Nat) (x : Commit) : Prop :=
  (d.site site).commit = some x ∧ x.set < 64 ∧ (x.chans.map (·.1)).Nodup

/-- R206, Table 6.2: a range request fails with a code at a bolt, and changes nothing of the memory. -/
def RangeFails (s t : State) (code bolt : Nat) : Prop :=
  t.dev.dram = s.dev.dram ∧ t.dev.flag .DRC_BSTAT 29 = true ∧ t.dev.flag .DRC_BSTAT 30 = false ∧ t.dev.get .DRC_BSTAT 26 24 = code % 8 ∧
    t.dev.get .DRC_BSTAT 14 0 = bolt % 2 ^ 15 ∧ t.clock = s.clock

/-- R258, R268: the pace of a unit's record buffer goes on from now, and where no burst runs that of the capture buffer of its memory. -/
def paced (d : Dev) (u : Nat) : Dev := paceAcq (if d.siteEngine u = none then paceCap d u else d) u

/-- Table 15.1, R480: an access or the scrub finds an uncorrectable word of an item, the device being `d` by then. -/
def Uncorrectable (s : State) (x : SramItem) (island : Fin 41) (addr : BitVec 64) (i : Instr) (d : Dev) : Prop :=
  (i = .sramError x false island addr ∧ d = s.mirror) ∨
    (i = .sramScrubRead x 2 island addr ∧ d = scrubTurn s.mirror x addr.toNat ∧ s.mirror.flag .RAS_SCRUB 31 = true ∧
      s.dev.ras.scrubbed.contains (x, addr.toNat) = false)

/-- The burst of an engine has ended with a device fault, its vectors not released discarded. -/
def CutWith (d : Dev) (e code : Nat) : Prop := (d.burst e).any (fun b => b.fin = some (.fault code 0 false) && b.stopped && b.queue = []) = true

/-- R468: a host's load has ended with a code of Table 14.7, and left nothing else. -/
def LoadFails (s t : State) (kind code : Nat) : Prop :=
  t.dev.trust.image = none ∧ t.dev.flag .TRU_IMGSTAT 29 = true ∧ t.dev.flag .TRU_IMGSTAT 30 = false ∧ t.dev.flag .TRU_IMGSTAT 31 = false ∧
    t.dev.get .TRU_IMGSTAT 3 0 = code ∧ (kind = kPackage → t.dev.flag .GLB_STAT 30 = true) ∧ t.dev.trust.otp = s.dev.trust.otp ∧
    t.dev.dram = s.dev.dram ∧ t.clock = s.clock

/-- Table 14.9: byte `o` of the quote that stands in a port's TRU_QBODY. -/
def quoteByte (d : Dev) (p o : Nat) : Byte := BitVec.ofNat 8 ((d.rd (.TRU_QBODY p (o / 4))).toNat / 256 ^ (o % 4))

/-- R453: how many descriptors of a port the reset ends. -/
def endedOf (d : Dev) (p : Nat) : Nat := (d.descs.filter fun x => x.2.port = p).length

/-- A calibration operation is the current one. -/
def operation (s : State) (o : CalOp) : Prop := s.dev.cal.op = some o

/-- R434, R436: what the two passes of a run measured: of XTAL, the cubics fitted to its samples where those determine them. -/
def measured (s : State) (o : CalOp) (pass : List PassItem) : List PassItem := if o.qty = 5 then xtalPasses s.dev.cal pass else pass

/-- R434: the mean of two passes in steps of the value's register, ties upward. -/
def meanOf (v : CalVal) (a b : Int) : Int := (a + b + v.step) / (2 * v.step : Nat)

/-- R434: a value's shadow holds the mean of its passes. -/
def ShadowMean (t : State) (v : CalVal) (a b : Int) : Prop :=
  match v.home with
  | .reg shadow _ hi => t.dev.get shadow hi 0 = unsigned (hi + 1) (meanOf v a b)
  | .lin i k => t.dev.linShadow (2048 * i + k) = (meanOf v a b).toNat

/-- R437: the active value is what the shadow held in `d`, the device at the snapshot. -/
def ActiveFrom (t : State) (d : Dev) (v : CalVal) : Prop :=
  match v.home with
  | .reg shadow active hi => t.dev.get active hi 0 = d.get shadow hi 0
  | .lin i k => (t.dev.cal.linActive.get none (2048 * i + k)).getD (10 * k) = d.linShadow (2048 * i + k)

/-- R434: every item of a run before `x` is accepted, and the passes measured `l` of its values. -/
def FirstItem (o : CalOp) (pass : List PassItem) (x : CalItem) (l : List (Int × Int)) : Prop :=
  ∃ pre post as bs, calItems o.qty o.target = pre ++ x :: post ∧ pass = as ++ some l :: bs ∧ as.length = pre.length ∧
    (∀ y ∈ pre.zip as, itemVerdict y.1 y.2 = none) ∧ x.vals.length ≤ l.length

/-- The registers that hold active calibration values (13_calibration.md Table 13.5, Table 4.20). -/
def activeCal (r : Reg) : Bool :=
  match r with
  | .CAL_DRV 1 _ | .CAL_STB 1 _ | .CAL_SKEW 1 _ | .CAL_BOARD 1 _ | .CAL_BASET 1 _ | .CAL_LTX 1 _ | .CAL_LRX 1 _ | .CAL_LEXT0 1 _ | .CAL_LEXT1 1 _
  | .CAL_XC 1 _ | .CUF_PLL _ => true
  | _ => false
end Sys2Proof.Claims

open Sys2Proof Sys2Proof.Machine Sys2Proof.Claims

/-! ### Steps, the clock and reset -/

/-- A step takes the command at the front of the queue and is that command's effect with the queue's rest (log 1). -/
def Obligations.StepRunsFrontCommand : Prop :=
  ∀ (c : Instr) (cs : List Instr) (s : State), s.pending = c :: cs → step s = exec c { s with pending := cs }

/-- On an empty queue one base-clock cycle passes, which the block's own tick is (log 1): the counter goes up by one and local time does not go back.
While a power fail holds the device (R450) only the parking of its outputs runs down (R493). -/
def Obligations.EmptyQueueIsOneCycle : Prop :=
  ∀ s : State, s.pending = [] →
    ∃ t, step s = .next t ∧ t.pending = [] ∧
      (s.dev.trust.failed = true → t = { s with dev := s.dev.modTrust fun x => { x with parked := x.parked - 1 } }) ∧
      (s.dev.trust.failed = false → t.clock = s.clock.cycle ∧ t.clock.raw = s.clock.raw + 1 ∧ s.clock.now ≤ t.clock.now)

/-- No command stops the block, and none touches the commands that wait behind it. While a power fail holds the device in power-on reset (R450), no
command but a power-on reset changes anything.
What goes beyond the spec's words here is the model's choice (log 3). -/
def Obligations.EveryCommandCompletes : Prop :=
  ∀ (c : Instr) (s : State), (∃ t, exec c s = .next t ∧ t.pending = s.pending) ∧ (s.dev.trust.failed = true → c ≠ .powerOnReset → exec c s = .next s)

/-- R335: TIM_RAW never goes back in any step but a power fail, a power-on reset, or a life-cycle transition that one cuts off; local time never goes back but in those, in the release that ends
a reset (R339) and in the application of a step of local time (R343).
What goes beyond the spec's words here is the model's choice (log 2). -/
def Obligations.ClockNeverGoesBack : Prop :=
  ∀ s t : State, step s = .next t →
    ((∀ r low, s.pending.head? ≠ some (.powerFail r low)) → s.pending.head? ≠ some .powerOnReset →
      (∀ p w, s.pending.head? ≠ some (.lifecycleTransition p w true)) → s.clock.raw ≤ t.clock.raw) ∧
    ((∀ r low, s.pending.head? ≠ some (.powerFail r low)) → s.pending.head? ≠ some .powerOnReset →
      (∀ p w, s.pending.head? ≠ some (.lifecycleTransition p w true)) → s.pending.head? ≠ some .stepApply →
      (∀ a b, s.pending.head? ≠ some (.releasePoint a b)) → s.clock.now ≤ t.clock.now)

/-- The anchor of local time never lies ahead of the counter: every step keeps it (R336, R343). -/
def Obligations.AnchorNotAheadOfCounter : Prop :=
  ∀ s t : State, s.clock.cb ≤ s.clock.raw → step s = .next t → t.clock.cb ≤ t.clock.raw

/-- What the reset state holds: READY is 0, local time and the counter are 0, no descriptor, burst, command or packet is held, every timing set is
invalid, memory lists nothing and reads 0 in canonical form, and the identity words are those of R428. Dispatch, the engines, their repair, the
lanes, both scrubs and the watchdog are enabled, with two causes of ALERT_N; sites, captures, streams, sources, stampers, stamp regions, rings, the
PTP port, the input stamps of TCI and the interrupts are not.
What goes beyond the spec's words here is the model's choice (log 8, 11). -/
def Obligations.ResetState : Prop :=
  State.reset.pending = [] ∧ State.reset.clock.raw = 0 ∧ State.reset.clock.now = 0 ∧ State.reset.clock.cb ≤ State.reset.clock.raw ∧
  State.reset.dev.ready = false ∧ State.reset.dev.descs = [] ∧ (∀ e, State.reset.dev.burst e = none) ∧
  (∀ s t, State.reset.dev.tsValid s t = false) ∧
  Memory.wf State.reset.dev.dram.mem = true ∧ (∀ a, State.reset.dev.dram.byte a = 0) ∧
  State.reset.dev.rd .GLB_ID = 0x0A1A9128 ∧ State.reset.dev.trust.otp.lc = 0 ∧
  (∀ s, (State.reset.dev.site s).decl.en = false) ∧ (∀ p, (State.reset.dev.port p).chain = []) ∧
  (State.reset.dev.flag .SCH_CTL 31 = true ∧ State.reset.dev.get .SCH_ENGEN 15 0 = 0xFFFF ∧ (∀ e : Fin 16, State.reset.dev.flag (.ENG_CTL e) 0 = true) ∧
    (∀ l : Fin 28, State.reset.dev.flag (.LAN_CTL l) 31 = true) ∧ State.reset.dev.flag .DRC_SCRUB 31 = true ∧
    State.reset.dev.flag .RAS_SCRUB 31 = true ∧ State.reset.dev.flag .GLB_WDOG 31 = true ∧ State.reset.dev.get .RAS_ALERTEN 3 0 = 0xC) ∧
  ((∀ s : Fin 16, State.reset.dev.flag (.ACQ_CAPCFG s) 31 = false ∧ State.reset.dev.flag (.TDC_RCTL s) 31 = false ∧
      State.reset.dev.flag (.DRC_SRCFG s) 31 = false) ∧
    (∀ k : Fin 8, State.reset.dev.flag (.ACQ_SPER k) 31 = false ∧ State.reset.dev.flag (.SRC_SPER k) 31 = false ∧
      State.reset.dev.flag (.TIM_TCICTL k) 31 = false ∧ State.reset.dev.get (.LNK_IRQEN k) 3 0 = 0) ∧
    (∀ i : Fin 136, State.reset.dev.flag (.TDC_IN i) 31 = false) ∧ State.reset.dev.flag .TIM_PTP 31 = false) ∧
  State.reset.dev.srcs.cells = [] ∧ State.reset.dev.acqs.cells = []

/-! ### Asell instructions -/

/-- R47, R48: VEC emits IMM[15:0] + 1 payload vectors in order, each under its own number with its set, the header's or its PTS byte; RPT emits one
payload vector IMM + 1 times, every repetition numbered.

R49, R50, R235: LOOP opens a loop of IMM + 1 iterations at the next instruction; ENDL goes back to it while its counter is not 0, taking one off, and
closes it at 0. A rewind of a streamed loop longer than the pleat cache needs a valid mark.
What goes beyond the spec's words here is the model's choice (log 5, 22). -/
def Obligations.VectorAndLoopInstructions : Prop :=
  ((∀ (s : State) (e : Fin 16) b h vs next, Executes s e 0x01 b h → hFlag h 0 = false → s.mirror.tsValid b.site (headerTs b h) = true →
    readRun s.mirror b (hForm h) (hImm h % 65536 + 1) 0 (b.pc + 1) b.image [] = .ok (vs, next) →
    Leaves (.vec e none) s e b h { withVectors (capOf b h) (vs.map fun v => (v, headerTs b h)) b with pc := next }) ∧
  (∀ (s : State) (e : Fin 16) b h sets vs next, Executes s e 0x01 b h → hFlag h 0 = true →
    ptsSets s.mirror b (b.pc + 1) (hImm h % 65536 + 1) = .ok sets → (∀ t ∈ sets, s.mirror.tsValid b.site t = true) →
    readRun s.mirror b (hForm h) (hImm h % 65536 + 1) 0 (b.pc + 1 + (hImm h % 65536 + 1 + 7) / 8) b.image [] = .ok (vs, next) →
    Leaves (.vec e none) s e b h { withVectors (capOf b h) (vs.zip sets) b with pc := next }) ∧
  (∀ (s : State) (e : Fin 16) b h v next, Executes s e 0x02 b h → Holds s b h (b.pc + 1) v next →
    Leaves (.rpt e) s e b h { emitNumbered b v (headerTs b h) (hImm h + 1) (capOf b h) with pc := next })) ∧
  ((∀ (s : State) (e : Fin 16) b h v next, Executes s e 0x04 b h → Carries s b h v next → b.loops.length < 16 →
    Leaves (.loop e) s e b h { withOwn b h v with pc := next, loops := ⟨next, b.inStream, hImm h⟩ :: b.loops }) ∧
  (∀ (s : State) (e : Fin 16) b h v next l ls, Executes s e 0x05 b h → Carries s b h v next → b.loops = l :: ls → l.ctr = 0 →
    Leaves (.endl e) s e b h { withOwn b h v with pc := next, loops := ls }) ∧
  (∀ (s : State) (e : Fin 16) b h v next l ls, Executes s e 0x05 b h → Carries s b h v next → b.loops = l :: ls → l.ctr ≠ 0 →
    (l.stream = true → b.inStream = true → longBody l next = true →
      s.mirror.markValid b.site = true ∧ (s.mirror.ring b.site).m ≤ 8 * l.start) →
    Leaves (.endl e) s e b h
      { withOwn b h v with pc := l.start, inStream := l.stream, loops := { l with ctr := l.ctr - 1 } :: ls }))

/-- R50 to R52, R67: CALL pushes the next address and goes to its target in the code section; RET returns to the frame's address and closes the loops
opened since; JMP closes POP loops and goes to its target; STREAM pushes a frame and goes on at the ring's read position.
What goes beyond the spec's words here is the model's choice (log 21). -/
def Obligations.TransferInstructions : Prop :=
  (∀ (s : State) (e : Fin 16) b h v next t, Executes s e 0x06 b h → Carries s b h v next → (b.inStream = false ∨ hFlag h 0 = true) → b.calls.length < 32 →
    (if hFlag h 0 then absTarget b (hImm h) else relTarget b b.pc (hImm h)) = .ok t →
    Leaves (.call e) s e b h
      { withOwn b h v with pc := t, inStream := false, calls := ⟨next, b.inStream, b.loops.length⟩ :: b.calls }) ∧
  (∀ (s : State) (e : Fin 16) b h v next f fs, Executes s e 0x07 b h → Carries s b h v next → b.calls = f :: fs →
    Leaves (.ret e) s e b h
      { withOwn b h v with
        pc := f.ret, inStream := f.stream, calls := fs, loops := b.loops.drop (b.loops.length - f.loops) }) ∧
  (∀ (s : State) (e : Fin 16) b h v next t, Executes s e 0x08 b h → Carries s b h v next → b.inStream = false → hFlags h % 4 ≤ b.loops.length →
    relTarget b b.pc (hImm h) = .ok t →
    Leaves (.jmp e) s e b h { withOwn b h v with pc := t, loops := b.loops.drop (hFlags h % 4) }) ∧
  (∀ (s : State) (e : Fin 16) b h, Executes s e 0x12 b h → b.inStream = false → s.mirror.ringOn b.site = true → b.calls.length < 32 →
    Leaves (.stream e) s e b h
      { b with pc := (s.mirror.ring b.site).rd / 8, inStream := true, calls := ⟨b.pc + 1, false, b.loops.length⟩ :: b.calls })

/-- R63, R64: TSET sets the site's default timing set to IMM[5:0], whatever set it names; CAPON turns the capture state on with the record mode of
IMM[1:0]; CAPOFF turns it off and keeps the mode. The vector the instruction carries is the first to see the change. -/
def Obligations.SetAndCaptureInstructions : Prop :=
  (∀ (s : State) (e : Fin 16) b h v next, Executes s e 0x0C b h → readOne s.mirror b h (b.pc + 1) = .ok (v, next) →
    (v = none ∨ s.mirror.tsValid b.site (if hTsv h then hTs h else hImm h % 64) = true) →
    Leaves (.tset e) s e b h { withOwn { b with dts := hImm h % 64 } h v with pc := next }) ∧
  (∀ (s : State) (e : Fin 16) b h v next, Executes s e 0x0D b h → Carries s b h v next →
    Leaves (.capon e) s e b h { withOwn { b with capOn := true, capMode := hImm h % 4 } h v with pc := next }) ∧
  (∀ (s : State) (e : Fin 16) b h v next, Executes s e 0x0E b h → Carries s b h v next →
    Leaves (.capoff e) s e b h { withOwn { b with capOn := false } h v with pc := next })

/-- R65, R66, R70: TRIG, WAVE and MARK act at the next vector emitted, their own where they carry one: TRIG arms or disarms a unit that the burst's
port owns, WAVE sends a request with its entry to a source that it owns, MARK writes its value; HALT emits its vector as the last one and ends the
burst with its exit code.

R69: UOP starts a declared user routine whose words are loaded, at its first word; with a routine in progress, the next microword issues, and the
routine goes on with the rest.
What goes beyond the spec's words here is the model's choice (log 29, 38, 39, 184, 193). -/
def Obligations.ActionAndUserInstructions : Prop :=
  ((∀ (s : State) (e : Fin 16) b h v next, Executes s e 0x0F b h → Carries s b h v next → unitOwned s.mirror b (hImm h % 16) = true →
    Leaves (.trig e) s e b h
      { withOwn { b with acts := b.acts ++ [if hFlag h 0 then .disarm (hImm h % 16) else .arm (hImm h % 16)] } h v with pc := next }) ∧
  (∀ (s : State) (e : Fin 16) b h v next, Executes s e 0x10 b h → Carries s b h v next → sourceOwned s.mirror b (hImm h % 8) = true →
    Leaves (.wave e) s e b h
      { withOwn { b with acts := b.acts ++ [.wave (hFlags h % 4) (hImm h / 65536) (hImm h % 8)] } h v with pc := next }) ∧
  (∀ (s : State) (e : Fin 16) b h v next, Executes s e 0x11 b h → Carries s b h v next →
    Leaves (.mark e) s e b h { withOwn { b with acts := b.acts ++ [.mark (hImm h)] } h v with pc := next }) ∧
  (∀ (s : State) (e : Fin 16) b h v next, Executes s e 0x3F b h → Carries s b h v next →
    Leaves (.halt e) s e b h { withOwn b h v with pc := next, fin := some (.halt (hImm h % 65536)) })) ∧
  ((∀ (s : State) (e : Fin 16) b h u, Executes s e 0x13 b h → s.mirror.present e (64 + hImm h % 256) = true →
    (s.mirror.engine e).user.find? (·.number = hImm h % 256) = some u →
    Yields (.uop e 0) s fun t =>
      (t.dev.burst e).bind (·.micro) = some
        { routine := 64 + hImm h % 256, lining := (startMicro s.mirror e (64 + hImm h % 256)).1,
          upc := (startMicro s.mirror e (64 + hImm h % 256)).2, ts := headerTs b h, hdr := h, extWords := u.extWords,
          next0 := b.next, image0 := b.image } ∧
      t.clock = s.clock ∧ t.dev.dram.mem = s.dev.dram.mem) ∧
  (∀ (s : State) (e : Fin 16) n b m b', s.mirror.burst e = some b → b.micro = some m → b.fin = none →
    bits (nextWord s.mirror e m) 131 129 ≤ b.room (s.mirror.yokeFenced b.site) → wordsStop s.mirror e b m = false →
    takesService s.mirror e m = false →
    reservedWord m.lining (nextWord s.mirror e m) = false → (b.stopEvent = none ∨ bit (nextWord s.mirror e m) 57 = false) →
    issueWord s.mirror e b m (nextWord s.mirror e m) (Config.freeNat s.dev.freeIdx % 2 ^ 64) = .ok b' →
    (b'.micro.isSome = true →
      exec (.uop e (n + 1)) s = exec (.uop e n) { s with dev := wordDone s.mirror e b m (nextWord s.mirror e m) b' }) ∧
    (b'.micro = none → Becomes (.uop e (n + 1)) s (wordDone s.mirror e b m (nextWord s.mirror e m) b'))))

/-- R53 to R57: a JIF whose condition is no flag of the compare class, or that tests the results of the vectors 1,025 and more below its own, goes to
its target when the condition holds and to the next instruction when it does not; with a taken branch POP loops close, and with CLEAR the tested
flag's clear point moves. A synchronised JIF waits for the results below its vector.

R56, R57: a synchronised JIF whose results below vector j have returned resolves: it tests the condition over them, writes its ledger entry, and goes
to its target or to the next instruction.
What goes beyond the spec's words here is the model's choice (log 5, 6, 206). -/
def Obligations.JumpInstructions : Prop :=
  ((∀ (s : State) (e : Fin 16) b h v next t, Executes s e 0x09 b h → Carries s b h v next → b.inStream = false → condCheck s.mirror b false h = .ok () →
    isCompare (hCond h) = false → hFlags h % 4 ≤ b.loops.length → relTarget b b.pc (hImm h) = .ok t →
    Leaves (.jif e) s e b h
      (if condHolds s.mirror b ((b.next : Int) - 1025) h = true then { withOwn b h v with pc := t, loops := b.loops.drop (hFlags h % 4) }
       else { withOwn b h v with pc := next })) ∧
  (∀ (s : State) (e : Fin 16) b h v next t, Executes s e 0x09 b h → Carries s b h v next → b.inStream = false → condCheck s.mirror b false h = .ok () →
    isCompare (hCond h) = true → hFlag h 2 = false → b.next ≤ b.returned + 1024 →
    hFlags h % 4 ≤ b.loops.length → relTarget b b.pc (hImm h) = .ok t →
    Leaves (.jif e) s e b h
      (let hi := (b.next : Int) - 1025
       let b1 := if hFlag h 3 then moveClear (withOwn b h v) hi h else withOwn b h v
       if condHolds s.mirror b hi h = true then { b1 with pc := t, loops := b.loops.drop (hFlags h % 4) } else { b1 with pc := next })) ∧
  (∀ (s : State) (e : Fin 16) b h v next, Executes s e 0x09 b h → Carries s b h v next → b.inStream = false → condCheck s.mirror b false h = .ok () →
    isCompare (hCond h) = true → hFlag h 2 = true →
    Leaves (.jif e) s e b h
      (let b1 := withOwn b h v
       { b1 with
         pc := next, wait := some (.jif b.next h b.pc next (decide (b.returned < b.next))), settles := 0
         queue := if b.returned < b.next then
             b1.queue ++ [{ kind := .settle, syms := b1.image, ts := headerTs b h, count := 0, ongoing := true }] else b1.queue }))) ∧
  (∀ (s : State) (e : Fin 16) extra b j h at_ next copies t, s.mirror.burst e = some b → b.wait = some (.jif j h at_ next copies) →
    j ≤ b.returned → b.fin = none → hFlags h % 4 ≤ b.loops.length → relTarget b at_ (hImm h) = .ok t →
    Becomes (.jifSyncResolve e extra) s
      (let x := if copies then settleCopies b extra else 0
       let b0 := jifSettled b x
       let d := ledger s.mirror 0x0B ucEvent b.site 0 s.clock.now 0 j (b.settles + x)
       let b1 := if hFlag h 3 = true ∧ isCompare (hCond h) = true then moveClear b0 ((j : Int) - 1) h else b0
       setBurst d e (if condHolds d b0 ((j : Int) - 1) h = true then { b1 with pc := t, loops := b.loops.drop (hFlags h % 4) }
         else { b1 with pc := next })))

/-- R58, R59: MATCH emits numbered repetitions of its vector, up to T + 1 of them as its extension word gives, and waits; it ends on its first
matching repetition, or on its last without one, sets MATCHED, gives the numbers not emitted back, and transfers as Table 2.7 states.

R60 to R62: WAITT emits its vector as a pad until a time, absolute or counted from the start, or a stitch event with its timeout; when the pads have
been released up to the end of the wait, the engine goes on; a timeout that elapses first writes its entry and ends the wait.
What goes beyond the spec's words here is the model's choice (log 5, 6, 23, 32, 188, 207). -/
def Obligations.MatchAndWaitInstructions : Prop :=
  ((∀ (s : State) (e : Fin 16) b h x v next, Executes s e 0x0A b h → condCheck s.mirror b true h = .ok () → fetchWord s.mirror b (b.pc + 1) = .ok x →
    bits x 63 40 = 0 → Holds s b h (b.pc + 2) v next →
    Leaves (.matchStart e) s e b h
      { b with
        pc := next, image := v, acts := [], matchHit := none, wait := some (.matching b.next (bits x 39 0 + 1) h b.pc next)
        unissued := b.unissued + (bits x 39 0 + 1)
        queue := b.queue ++ [{ kind := .matchRep, syms := v, ts := headerTs b h, count := bits x 39 0 + 1, first := b.next,
                               capture := capOf b h, capMode := b.capMode, acts := b.acts }] }) ∧
  (∀ (s : State) (e : Fin 16) k b first t h at_ next, s.mirror.burst e = some b → b.wait = some (.matching first t h at_ next) → b.fin = none →
    b.matchHit = none → first + t ≤ b.returned →
    (matchJumps h false = false →
      Becomes (.matchEnd e k) s
        (setBurst (matchEntry s.mirror b h first t none) e { matchOver b first t t none with pc := next })) ∧
    (∀ a, matchJumps h false = true → relTarget b at_ (hImm h) = .ok a →
      Becomes (.matchEnd e k) s
        (setBurst (matchEntry s.mirror b h first t none) e { matchOver b first t t none with pc := a }))) ∧
  (∀ (s : State) (e : Fin 16) k b first t h at_ next v n, s.mirror.burst e = some b → b.wait = some (.matching first t h at_ next) →
    b.fin = none → b.matchHit = some v → 
    n = min (t - b.unissued) (max k (max (v - first + 1) (t - min (matchLeft b.queue) b.engineSide))) →
    (matchJumps h true = false →
      Becomes (.matchEnd e k) s
        (setBurst (matchEntry s.mirror b h first n (some v)) e { matchOver b first t n (some v) with pc := next })) ∧
    (∀ a, matchJumps h true = true → relTarget b at_ (hImm h) = .ok a →
      Becomes (.matchEnd e k) s
        (setBurst (matchEntry s.mirror b h first n (some v)) e { matchOver b first t n (some v) with pc := a })))) ∧
  ((∀ (s : State) (e : Fin 16) b h e0 e1 v next, Executes s e 0x0B b h → hFlags h % 4 ≠ 2 → fetchWord s.mirror b (b.pc + 1) = .ok e0 →
    fetchWord s.mirror b (b.pc + 2) = .ok e1 → bits e1 63 32 = 0 → Holds s b h (b.pc + 3) v next →
    Leaves (.waitt e) s e b h
      { padded b h v with pc := next, waitFirst := none, wait := some (.time (hFlags h % 4 = 1) (waitTarget e0 e1)) }) ∧
  (∀ (s : State) (e : Fin 16) b h v next, Executes s e 0x0B b h → hFlags h % 4 = 2 → Holds s b h (b.pc + 1) v next →
    Leaves (.waitt e) s e b h
      (let got := b.gotEvents.find? (·.1 = hImm h % 16)
       { padded b h v with
         pc := next, waitFirst := none, gotEvents := b.gotEvents.erase (got.getD (16, 0))
         wait := some (.event (hImm h % 16) (if hImm h / 256 = 0 then none else some (s.clock.now + hImm h / 256 * micro1))
           (got.map (·.2))) })) ∧
  (∀ (s : State) (e : Fin 16) b, s.dev.burst e = some b → waitOver b = true → b.nextT0 * halfPs ≤ s.clock.now →
    Becomes (.waittTargetReached e) s
      (setBurst (if waitLate b = true then ledger s.mirror 0x0C ucExact b.site 0 (b.nextT0 * halfPs) 0 (b.next % 2 ^ 48) 0 else s.mirror) e
        { b.popQuad with wait := none, waitFirst := none, queue := editRun .waitPad (fun _ => none) b.queue })) ∧
  (∀ (s : State) (e : Fin 16) b n dl, s.dev.burst e = some b → b.wait = some (.event n (some dl) none) → dl ≤ s.clock.now →
    Becomes (.waittTimeout e) s
      (setBurst (ledger s.mirror 0x0D ucEvent b.site 0 dl n (b.next % 2 ^ 48) 0) e
        { b with wait := some (.event n (some dl) (some dl)) })))

/-- R71, Table 2.8: an instruction that cannot execute ends the burst with its fault code at its own address: a fetch beyond the code section, an
opcode with no routine, and a reserved header field. What was emitted before it stands.

R80, R110: an instruction whose routine a host has rewritten is what the words of that routine make of it.
What goes beyond the spec's words here is the model's choice (log 24, 28, 186). -/
def Obligations.ProgramFaults : Prop :=
  (∀ (i : Instr) (op : Nat) (e : Fin 16) (s : State) b, (i, op) ∈ [(Instr.rpt e, 0x02), (.loop e, 0x04), (.endl e, 0x05), (.call e, 0x06), (.ret e, 0x07), (.jmp e, 0x08),
      (.jif e, 0x09), (.matchStart e, 0x0A), (.waitt e, 0x0B), (.tset e, 0x0C), (.capon e, 0x0D), (.capoff e, 0x0E), (.trig e, 0x0F),
      (.wave e, 0x10), (.mark e, 0x11), (.stream e, 0x12), (.halt e, 0x3F), (.vec e none, 0x01)] →
    readyBurst s.mirror e = some b →
    (b.inStream = false → b.codeWords ≤ b.pc →
      Becomes i s (setBurst s.mirror e { b with wait := none, fin := some (.fault 0x10 b.pc false) })) ∧
    (∀ h, fetchWord s.mirror b b.pc = .ok h →
      (opcodeAbsent s.mirror e (hOpc h) = true →
        Becomes i s (setBurst s.mirror e
          { b with wait := none, fin := some (.fault 0x01 (faultAddr s.mirror b b.pc b.inStream) b.inStream) })) ∧
      (opcodeAbsent s.mirror e (hOpc h) = false → hOpc h = op → (runsLining s.mirror e op = false ∨ b.redirected = true) →
        (∀ row, opRow op = some row → headerField row h = true) →
        Becomes i s (setBurst s.mirror e
          { b with wait := none, fin := some (.fault 0x02 (faultAddr s.mirror b b.pc b.inStream) b.inStream) })) ∧
      (Dispatches s e op b h → rewritten s.mirror e op = true →
        Becomes i s (runWords (setBurst s.mirror e (beginMicro s.mirror e op b h (extWords h))) e 1024))))

/-- The frame of the Asell instructions, where no mask stop is pending and no word of a standard routine has been rewritten: the clock, the queue,
every byte of memory, every other engine, every other site's ring, every register but the engine's ENG_STAT, sites, channels, the scheduler and the
ledger stay as they are. What the engine's prefetcher reads beside it may pass over queued writes (R210), and a poisoned line that it reads is counted
and reported (R222); of DRAM nothing else changes.
What goes beyond the spec's words here is the model's choice (log 5, 20, 21). -/
def Obligations.AsellFrame : Prop :=
  ∀ (i : Instr) (e : Fin 16) (s t : State) b, i ∈ [Instr.vec e none, .rpt e, .loop e, .endl e, .call e, .ret e, .jmp e, .jif e, .matchStart e, .waitt e, .tset e,
      .capon e, .capoff e, .trig e, .wave e, .mark e, .stream e, .halt e] →
    s.dev.burst e = some b → b.stopEvent = none → (∀ op, rewritten s.mirror e op = false) → exec i s = .next t →
    t.clock = s.clock ∧ t.pending = s.pending ∧ (∀ a, t.dev.dram.byte a = s.dev.dram.byte a) ∧
    t.dev.dram = { s.dev.dram with wqs := t.dev.dram.wqs, ueCount := t.dev.dram.ueCount } ∧
    (∀ k, k ≠ e.val → t.dev.engine k = s.dev.engine k) ∧ (∀ k, k ≠ b.site → t.dev.ring k = s.dev.ring k) ∧
    (∀ r : Reg, r.addr ≠ (Reg.ENG_STAT e).addr → r.addr ≠ Reg.RAS_STAT.addr → t.dev.rd r = s.dev.rd r) ∧
    ((∀ a, s.dev.dram.poisoned a = false) → t.dev.ras = s.dev.ras ∧ t.dev.rd .RAS_STAT = s.dev.rd .RAS_STAT ∧
      t.dev.dram.ueCount = s.dev.dram.ueCount) ∧
    t.dev.sites = s.dev.sites ∧ t.dev.chans = s.dev.chans ∧ t.dev.sched = s.dev.sched ∧ t.dev.ledger = s.dev.ledger ∧
    t.dev.ports = s.dev.ports ∧ t.dev.tbase = s.dev.tbase ∧ t.dev.srcs = s.dev.srcs ∧ t.dev.acqs = s.dev.acqs

/-! ### Engines -/

/-- R94 to R96, R100, R80: the traps save the frame of Table 3.7, count in ENG_TRAP with their code, and end the burst with DRAM_UNCORR, CSTORE_UNCORR
or CSTORE_FIELD, but for the twin trap, after which the routine goes on in the lining; a redirect to the lining saves no frame. A poisoned line that no
buffer holds is counted and reported as it is read (R222).

R94, R97 to R99: the engine takes a host abort at a safe point and not before (its burst emits nothing more and ends as aborted), an arming request
(it begins arming, unless a host abort waits) and a service request while idle, in a service routine, or at the next word of a user routine with
SERVICE 1, whose service routine begins; each is counted in ENG_TRAP under its code. Behind a fenced seam 32 no abort reaches it (R20), and elsewhere
it keeps a service request.
What goes beyond the spec's words here is the model's choice (log 5, 7, 27, 45, 67). -/
def Obligations.EngineTrapsAndInterrupts : Prop :=
  ((∀ (s : State) (e : Fin 16) b, consumesPoison s.mirror e = true → s.dev.burst e = some b →
    Becomes (.poisonTrap e) s
      (let d := trappedFrame (s.mirror.each (poisonLine s.mirror b).toList poisonRead) e b 0x03 none
       if b.micro.isSome = true then faulted d e b 0x20
       else setBurst d e { beforePoison d b with wait := none, fin := some (.fault 0x20 0 false) })) ∧
  (∀ (s : State) (e : Fin 16) b, reservedNow s.mirror e = true → s.dev.burst e = some b →
    Becomes (.cstoreFieldTrap e) s (faulted (trappedFrame s.mirror e b 0x05 none) e b 0x22)) ∧
  (∀ (s : State) (e : Fin 16) b (store : Fin 4) (addr : Fin 8192) k, routineNow s.mirror e = some k → s.dev.burst e = some b →
    (store = 0 → bit (s.mirror.dirEntry e k) 28 = false) →
    Becomes (.cstoreUncorrTrap e store addr none) s
      (withdrawCheck (needRepair (cstoreUncorrected
        (faulted (trappedFrame s.mirror e b 0x04 (storePos store addr)) e b 0x21) e store addr) e store addr k) e)) ∧
  (∀ (s : State) (e : Fin 16) b (addr : Fin 4096) k, routineNow s.mirror e = some k → runsLining s.mirror e k = false →
    bit (s.mirror.dirEntry e k) 28 = true → s.dev.burst e = some b →
    Becomes (.twinTrap e addr none) s
      (let d0 := needRepair (cstoreUncorrected (trappedFrame s.mirror e b 0x01 (some (false, addr.val))) e 0 addr) e 0 addr k
       let d := d0.set (.ENG_STAT e) 27 27 1
       withdrawCheck (d.modBurst e fun b => match b.micro with
         | some m => { b with micro := some { toTwin d e m with cycles := m.cycles + 4 } }
         | none => if (boundaryBurst d0 e).isSome then { b with redirected := true } else b) e)) ∧
  (∀ (s : State) (e : Fin 16) b h, readyBurst s.mirror e = some b → fetchWord s.mirror b b.pc = .ok h →
    runsLining s.mirror e (hOpc h) = true → b.redirected = false →
    Becomes (.liningRedirect e) s
      ((trapped (setBurst s.mirror e { b with redirected := true }) e 0x02).set (.ENG_STAT e) 27 27 1))) ∧
  ((∀ (s : State) (e : Fin 16), s.mirror.seamFenced 32 = true → Becomes (.hostAbortInterrupt e) s s.mirror) ∧
  (∀ (s : State) (e : Fin 16), (s.dev.engine e).hostAbort = true → s.mirror.seamFenced 32 = false →
    let d := trapped ((pauseService s.mirror e).modEngine e fun x => { x with hostAbort := false, armReq := false }) e 0x06
    let d := if s.dev.engState e = 1 ∨ s.dev.engState e = 2 then d.set (.ENG_STAT e) 31 28 5 else d
    (s.dev.burst e = none → Becomes (.hostAbortInterrupt e) s d) ∧
    (∀ b, s.dev.burst e = some b → b.fin.isSome = true → Becomes (.hostAbortInterrupt e) s d) ∧
    (∀ b, s.dev.burst e = some b → b.fin = none → atSafePoint s.mirror e b = true →
      Becomes (.hostAbortInterrupt e) s (setBurst d e { b.issuedOnly with wait := none, micro := none, fin := some .abort })) ∧
    (∀ b, s.dev.burst e = some b → b.fin = none → atSafePoint s.mirror e b = false → Becomes (.hostAbortInterrupt e) s s.mirror)) ∧
  (∀ (s : State) (e : Fin 16), (s.dev.engine e).armReq = true → (s.dev.engine e).hostAbort = false →
    Becomes (.armingRequestInterrupt e) s
      (prefetch ((trapped ((pauseService s.mirror e).modEngine e fun x => { x with armReq := false }) e 0x07).set (.ENG_STAT e) 31 28 2) e)) ∧
  (∀ (s : State) (e : Fin 16), (s.dev.engState e = 0 ∨ s.dev.engState e = 7) → (s.dev.engine e).armReq = false →
    (s.dev.engine e).hostAbort = false → (s.dev.burst e).bind (·.micro) = none →
    Yields (.serviceRequestInterrupt e) s fun t =>
      t.dev.engState e = 7 ∧ (t.dev.engine e).serviceReq = (s.dev.engine e).serviceReq ∧
      (t.dev.engine e).service.head? = some { words := Config.freeNat s.dev.freeIdx, since := some s.clock.now } ∧
      t.dev.rd (.ENG_TRAP e) = (trapped s.mirror e 0x08).rd (.ENG_TRAP e) ∧ t.dev.burst e = s.dev.burst e ∧ t.dev.dram = s.dev.dram ∧
      t.clock = s.clock) ∧
  (∀ (s : State) (e : Fin 16) m, (s.dev.engine e).armReq = false → (s.dev.engine e).hostAbort = false →
    (s.dev.burst e).bind (·.micro) = some m → bit (s.mirror.dirEntry e m.routine) 29 = true →
    Yields (.serviceRequestInterrupt e) s fun t =>
      t.dev.engState e = s.dev.engState e ∧ (t.dev.engine e).serviceReq = (s.dev.engine e).serviceReq ∧
      (t.dev.engine e).service.head? = some { words := Config.freeNat s.dev.freeIdx, since := some s.clock.now } ∧
      t.dev.rd (.ENG_TRAP e) = (trapped s.mirror e 0x08).rd (.ENG_TRAP e) ∧ t.dev.burst e = s.dev.burst e ∧ t.dev.dram = s.dev.dram ∧
      t.clock = s.clock) ∧
  (∀ (s : State) (e : Fin 16), ((s.dev.engine e).armReq = true ∨ (s.dev.engine e).hostAbort = true ∨
      ((s.dev.burst e).bind (·.micro) = none ∧ s.dev.engState e ≠ 0 ∧ s.dev.engState e ≠ 7) ∨
      (∃ m, (s.dev.burst e).bind (·.micro) = some m ∧ bit (s.mirror.dirEntry e m.routine) 29 = false)) →
    Becomes (.serviceRequestInterrupt e) s (s.mirror.modEngine e fun x => { x with serviceReq := x.serviceReq + 1 })))

/-- R86 to R88, R110: a repair rewrites the oldest waiting word from the retained image, and its routine leaves the lining when no other of its words
waits; a package that waits loads once the firmware has processed the one it carries and no engine is dispatched, with its version, and its words take the
place of those in the standard regions of every engine and of the nano-store, while the user regions stay; a
write of 32-bit word 5 of a window commits the staged microword, of an engine's store or of the nano-store.
What goes beyond the spec's words here is the model's choice (log 10, 60). -/
def Obligations.ControlStoreWrites : Prop :=
  (∀ (s : State) (e : Fin 16) r, s.dev.flag (.ENG_CTL e) 0 = true →
    (s.dev.engine e).repairs.find? (fun r => standardWord r.1 r.2.1) = some r →
    ((s.dev.engine e).repairs.erase r).any (fun q => q.2.2 = r.2.2) = false →
    Becomes (.cstoreRepair e true) s
      (((restoreWord s.mirror e r.1 r.2.1).modEngine e fun x => { x with repairs := x.repairs.erase r }).modEngine e fun x =>
        { x with liningOnly := x.liningOnly.filter (· ≠ r.2.2) })) ∧
  (∀ (s : State) p, s.dev.trust.package = some p → s.dev.trust.bootPkg = true →
    (∀ e, e < 16 → s.dev.dispatched e = false ∧ s.dev.burst e = none) →
    Yields .ucodePackageLoad s fun t =>
      (∀ e, e < 16 →
        (∀ a, t.dev.hWord e a = if a < 3072 then withCheck (BitVec.ofNat 176 (Config.stdHorizontal p.2.2 a)) else s.dev.hWord e a) ∧
        (∀ a, t.dev.mpWord e a = if a < 6144 then BitVec.ofNat 24 (Config.stdPointer p.2.2 a % 2 ^ 21) else s.dev.mpWord e a) ∧
        (∀ k, t.dev.dirEntry e k = if k < 64 then t.dev.stdDir k else s.dev.dirEntry e k)) ∧
      (∀ a, t.dev.nWord a = if a < 6144 then withCheck (BitVec.ofNat 176 (Config.stdNano p.2.2 a)) else s.dev.nWord a) ∧
      t.dev.ready = true ∧
      t.dev.trust.package = none ∧ t.dev.trust.pkgVersion = p.1 ∧ t.dev.trust.pkgSvn = p.2.1 ∧ t.dev.trust.pkgDigest = p.2.2 ∧
      t.dev.sched.ucodeHold = false ∧ t.dev.dram = s.dev.dram ∧ t.clock = s.clock) ∧
  (∀ (s : State) (k : Fin 73728) w, k.val < 65536 → k.val % 4096 < 3072 → s.dev.accepts 0 = true →
    s.dev.ready = true → s.mirror.seamFenced 32 = false →
    Becomes (.cstoreWordCommit 0 k w) s
      (s.mirror.modEngine (k.val / 4096) fun x =>
        { x with hstore := x.hstore.put none (k.val % 4096) (some (committedWord x.staged w)) })) ∧
  (∀ (s : State) (k : Fin 73728) w, 65536 ≤ k.val → k.val < 65536 + 6144 → s.dev.accepts 0 = true →
    s.dev.ready = true → s.mirror.seamFenced 32 = false →
    Becomes (.cstoreWordCommit 0 k w) s
      { s.mirror with nano := s.dev.nano.put none (k.val - 65536) (some (committedWord s.dev.nanoStaged w)) })

/-- R75, R160: a dispatch command reaches its engine where seam 32 and the stack let it (R20, R226), and waits otherwise: a burst that passes the checks starts at its entry's address with the loadable's default set, X
in every slot of its image, capture off and nothing emitted, and the engine loads; a failed check ends the burst with its code.

R14, R177, R515: arming completes once the prefetch buffer and the cuffs hold what arming asks for; with an immediate start the burst's start is the
local time of that by the engine cluster's mirror, plus 40 ns; with a timed start not missed it is the descriptor's time.
What goes beyond the spec's words here is the model's choice (log 5, 21, 67, 68, 85, 88). -/
def Obligations.DispatchAndArming : Prop :=
  ((∀ (s : State) (e : Fin 16) slot x, committedTo s.mirror e = some (slot, x) →
    (s.mirror.seamFenced 32 = true ∨ (s.mirror.engineReads = false ∧ x.abort = none)) → Becomes (.engineDispatchReceived e) s s.mirror) ∧
  (∀ (s : State) (e : Fin 16) slot x l pc, committedTo s.mirror e = some (slot, x) → s.mirror.seamFenced 32 = false →
    s.mirror.engineReads = true → s.dev.sched.registry.get none x.load = some l →
    dispatchCheck s.mirror x l = .ok pc → loadPoison s.mirror l = false →
    Yields (.engineDispatchReceived e) s fun t => ∃ b, t.dev.burst e = some b ∧
      (b.slot, b.site, b.load, b.entry) = (slot, x.site, x.load, x.entry) ∧ b.pc = pc ∧ b.dts = l.defaultTs ∧
      b.image = allX (card 128 (s.dev.site x.site).decl.chans) ∧ b.capOn = false ∧ b.next = 0 ∧ b.queue = [] ∧ b.fin = none ∧
      (t.dev.engine e).armReq = true ∧ t.dev.engState e = 1 ∧ t.clock = s.clock) ∧
  (∀ (s : State) (e : Fin 16) slot x l code faddr, committedTo s.mirror e = some (slot, x) → s.mirror.seamFenced 32 = false →
    s.mirror.engineReads = true → s.dev.sched.registry.get none x.load = some l → dispatchCheck s.mirror x l = .error (code, faddr) →
    Yields (.engineDispatchReceived e) s fun t => ∃ b, t.dev.burst e = some b ∧
      (b.slot, b.site, b.load, b.entry) = (slot, x.site, x.load, x.entry) ∧ b.fin = some (.fault code faddr false) ∧ b.next = 0 ∧
      (t.dev.engine e).armReq = false ∧ t.dev.engState e = 5 ∧ t.clock = s.clock) ∧
  (∀ (s : State) (e : Fin 16) slot x l pc, committedTo s.mirror e = some (slot, x) → s.mirror.seamFenced 32 = false →
    s.mirror.engineReads = true → s.dev.sched.registry.get none x.load = some l → dispatchCheck s.mirror x l = .ok pc → loadPoison s.mirror l = true →
    Yields (.engineDispatchReceived e) s fun t => ∃ b, t.dev.burst e = some b ∧
      (b.slot, b.site, b.load, b.entry) = (slot, x.site, x.load, x.entry) ∧ b.fin = some (.fault 0x20 0 false) ∧
      t.dev.engState e = 5 ∧ t.clock = s.clock)) ∧
  ((∀ (s : State) (e : Fin 16) b x, s.dev.burstDesc e = some (b, x) → s.dev.engState e = 2 → b.armed = none → b.fin ≠ some .abort →
    armingMet s.mirror e b = true → x.start = 0 →
    Becomes (.armingComplete e) s
      (((s.mirror.modBurst e fun _ => { packed s.mirror e b with armed := some (s.mirror.nowOn 8) }).set (.ENG_STAT e) 31 28 3).modBurst e fun b =>
        { b with start := some (toHalf (s.mirror.nowOn 8 + 40 * nano1)), nextT0 := toHalf (s.mirror.nowOn 8 + 40 * nano1) })) ∧
  (∀ (s : State) (e : Fin 16) b x, s.dev.burstDesc e = some (b, x) → s.dev.engState e = 2 → b.armed = none → b.fin ≠ some .abort →
    armingMet s.mirror e b = true → x.start = 1 → s.mirror.nowOn 8 + 40 * nano1 ≤ x.startT →
    Becomes (.armingComplete e) s
      (((s.mirror.modBurst e fun _ => { packed s.mirror e b with armed := some (s.mirror.nowOn 8) }).set (.ENG_STAT e) 31 28 3).modBurst e fun b =>
        { b with start := some (toHalf x.startT), nextT0 := toHalf x.startT })))

/-- R112, R134: at the next T0 the cuffs release the front vector of the burst's queue in its set, and the next T0 is that set's period later; a
vector with a number counts as released. Its windows are in flight until they have closed.

R116, R120, R121, R135, Tables 4.1 and 4.2: the next drive edge of a channel acts on its driver, unless it is suppressed; a strobe window opens with
the comparator inputs, whose compare kind they pass or fail, and on its close passes if no tested input moved; an observe passes.

R136, R137: a strobe window that opens too close after the last one is suppressed: it is done at once and fails, the channel's status and count record
it, and the first suppression of a burst writes a COLLISION entry.
What goes beyond the spec's words here is the model's choice (log 2, 33, 34, 35, 36, 187, 198). -/
def Obligations.VectorsEdgesAndStrobes : Prop :=
  (∀ (s : State) (site : Fin 16) e b x r q, releaseDue s.mirror site = some (e, b) → s.dev.desc b.slot = some x →
    b.start.isSome = true → b.stop = none → b.wait = none → b.entryBuf ≠ [] → b.padding = 0 → b.queue = r :: q →
    b.lastEnd.isSome = true → (s.dev.site b.site).commit = none → r.acts = [] → b.padMarks = [] → r.kind = .numbered →
    b.site = site.val → s.dev.dueOn (s.dev.firstCuff site) (b.nextT0 * halfPs) ≤ s.clock.now →
    Yields (.vectorRelease site) s fun t =>
      t.dev.burst e = some (Burst.flow (s.mirror.yokeFenced b.site) { b.popQuad with
        queue := popRun b.queue, released := b.released + 1, nextT0 := b.nextT0 + s.dev.period b.site r.ts
        lastEnd := some (b.nextT0 + s.dev.period b.site r.ts), lastPeriod := s.dev.period b.site r.ts, lastTs := r.ts
        lastTv := s.mirror.timeValid }) ∧
      (t.dev.site site).flight.length = (s.dev.site site).flight.length + 1 ∧
      ((t.dev.site site).flight.getLast?.map fun f => (f.t0, f.num)) = some (b.nextT0, some r.first) ∧
      t.clock = s.clock ∧ t.dev.dram = s.dev.dram) ∧
  ((∀ (s : State) (c : Fin 128) x es, (s.dev.chan c).edges = x :: es →
    s.dev.dueOn (c.val / 16) (s.dev.phased false c x.time * halfPs) ≤ s.clock.now →
    afterEnd s.mirror c x.time = false → noEdge (s.dev.chan c) x = false → edgeCollides (s.dev.chan c) x = false →
    Becomes (.driveEdge c) s
      ((s.mirror.modChan c fun y => { y with edges := es }).modChan c fun y =>
        { y with
          en := x.en.getD y.en, data := x.data.getD y.data, cur := if x.cur then x.data.getD y.cur else y.cur
          last := some (x.time, x.t0) })) ∧
  (∀ (s : State) (c : Fin 128) ch cl site i w, nextWin s.mirror c .waiting = some (site, i, w) →
    s.dev.dueOn (c.val / 16) (s.dev.phased true c w.opens * halfPs) ≤ s.clock.now →
    w.suppressed = false →
    Becomes (.strobeOpen c ch cl) s
      (putWin s.mirror site i { w with
        ch, cl, stage := .opened
        pass := match w.cmp with | 1 => cl | 2 => ch | 3 => !ch && !cl | 4 => ch != cl | _ => true })) ∧
  (∀ (s : State) (c : Fin 128) moved site i w, nextWin s.mirror c .opened = some (site, i, w) →
    s.dev.dueOn (c.val / 16) (s.dev.phased true c w.closes * halfPs) ≤ s.clock.now →
    Becomes (.strobeClose c moved) s
      (putWin s.mirror site i { w with stage := .done, pass := w.cmp = 5 || (w.pass && !moved) }))) ∧
  (∀ (s : State) (c : Fin 128) ch cl site i w f e b, nextWin s.mirror c .waiting = some (site, i, w) →
    s.dev.dueOn (c.val / 16) (s.dev.phased true c w.opens * halfPs) ≤ s.clock.now →
    w.suppressed = true → (s.dev.site site).flight[i]? = some f → s.dev.siteEngine site = some e → s.dev.burst e = some b →
    b.collided = false →
    Becomes (.strobeOpen c ch cl) s
      (let d := (putWin s.mirror site i { w with ch, cl, stage := .done, pass := false }).raise (.CUF_CHSTAT c) 31
       let d := (d.raise (.CUF_CHSTAT c) 30).countUp (.CUF_COLLCNT c) 31 16 1
       (ledger d 0x0E ucEvent site 0 s.clock.now c (f.num.getD f.after % 2 ^ 48) 0).modBurst e fun b =>
         { b with collided := true, flags := b.flags ||| 2 ^ 7 }))

/-- R79, R252 to R254: once every window of a site's oldest vector has closed its results return: a numbered vector's failing slots count as a fail,
set flag 0 of the completion and join the fail block; the number of the vector after it is the first whose results are out.

R70, R160, R183: a burst ends once nothing is left to emit, to release or to return: its descriptor leaves the table, and its engine is free,
disconnected and remembers its last burst unless it is withdrawn (R483).
What goes beyond the spec's words here is the model's choice (log 84, 189, 190). -/
def Obligations.ResultsAndBurstEnd : Prop :=
  (∀ (s : State) (site : Fin 16) f fs e v, (s.dev.site site).flight = f :: fs → s.dev.siteEngine site = some e →
    (f.wins.any fun w => w.stage ≠ .done) = false → s.mirror.resultsFenced site = false → f.acts = [] → f.num = some v →
    f.matchRep = false → f.capture = false → (∀ u, u < 16 → s.dev.acqSite u = site.val → (s.dev.acq u).cfg.stream = true) → (v + 1) % 65536 ≠ 0 →
    Becomes (.compareResultReturn site []) s
      (let d := s.mirror.modSite site fun x => { x with flight := fs }
       let fails := slotsWhere f fun w => !w.pass
       (if fails = 0 then d else d.modBurst e fun b => countFail b v f.t0 f.tv fails).modBurst e fun b => { b with returned := v + 1 })) ∧
  (∀ (s : State) (site : Fin 16), s.dev.siteEngine site = none ∨ s.mirror.resultsFenced site = true →
    Becomes (.compareResultReturn site []) s s.mirror) ∧
  (∀ (s : State) (e : Fin 16) b x, s.dev.burstDesc e = some (b, x) → burstDone s.mirror b = true →
    (∀ t, endDue s.dev e = some t → t ≤ s.clock.now) →
    Yields (.burstEnd e) s fun t =>
      t.dev.burst e = none ∧ t.dev.desc b.slot = none ∧ (t.dev.engine e).armReq = false ∧ (t.dev.engine e).hostAbort = false ∧
      (t.dev.engine e).affinity.isSome = !s.dev.flag .SCH_ENGEN (16 + e) ∧ t.clock = s.clock ∧ t.pending = s.pending)

/-! ### Sites and dispatch -/

/-- R155, R156: DECLARE checks the staged declaration: the first failing check stands in SITESTAT with FAIL, and a declaration that passes waits to
take effect; a site that is disabled or gets another owner releases what it holds. A site in reset, a channel that another enabled site holds, a split
pair and an enabled site with no channel each fail with their code.

R156: a passed declaration takes effect once the site holds nothing to release: its timing sets are invalid, its host flags are 0, and its loadables
are dropped.
What goes beyond the spec's words here is the model's choice (log 69). -/
def Obligations.SiteDeclaration : Prop :=
  ((∀ (s : State) (p : Fin 8) (site : Fin 16) w, Admits s p (.SCH_SITECMD site) (setBit w 31 true) → s.mirror.locked = false →
    bit w 30 = false → bit w 29 = false →
    (let x := staged s.mirror site
     let c := declCheck s.mirror site x
     let ok := (s.mirror.clear (.SCH_SITESTAT site) 19).set (.SCH_SITESTAT site) 18 16 0
     (c ≠ 0 → Becomes (.siteDeclare p site w) s ((s.mirror.raise (.SCH_SITESTAT site) 19).set (.SCH_SITESTAT site) 18 16 c)) ∧
     (c = 0 → releases (s.dev.site site).decl x = false →
       Becomes (.siteDeclare p site w) s
         ((if (s.dev.site site).commit.isSome then
             ((ok.modSite site fun y => { y with commit := none }).raise (.CUF_TSSTAT site) 28).clear (.CUF_TSSTAT site) 31
           else ok).modSite site fun y => { y with next := some x })) ∧
     (c = 0 → releases (s.dev.site site).decl x = true →
       Yields (.siteDeclare p site w) s fun t =>
         (t.dev.site site).next = some x ∧ (t.dev.site site).releasing = true ∧ t.dev.flag (.ACQ_CAPCFG site) 31 = false ∧
         t.dev.flag (.TDC_RCTL site) 31 = false ∧ t.clock = s.clock))) ∧
  (∀ (d : Dev) k x, (d.site k).resetting = true → declCheck d k x = 1) ∧
  (∀ (d : Dev) k x t c, (∀ y ∈ d.descs, y.2.site ≠ k) → (d.site k).resetting = false → (d.site k).releasing = false →
    t < 16 → t ≠ k → (d.site t).decl.en = true → inSet (d.site t).decl.chans c = true → inSet x.chans c = true → declCheck d k x = 2) ∧
  (∀ (d : Dev) k x j, (∀ y ∈ d.descs, y.2.site ≠ k) → (d.site k).resetting = false → (d.site k).releasing = false → claimed d k &&& x.chans = 0 →
    x.paired = true → j < 64 → inSet x.chans (2 * j) = true → inSet x.chans (2 * j + 1) = false → declCheck d k x = 3) ∧
  (∀ (d : Dev) k x, (∀ y ∈ d.descs, y.2.site ≠ k) → (d.site k).resetting = false → (d.site k).releasing = false → x.en = true → x.chans = 0 →
    declCheck d k x = 4)) ∧
  (∀ (s : State) (site : Fin 16) x, (s.dev.site site).next = some x →
    ((s.dev.site site).releasing = false ∨ s.dev.siteBolts site = []) →
    Yields (.declarationTakeEffect site) s fun t =>
      (t.dev.site site).decl = x ∧ (t.dev.site site).next = none ∧ (t.dev.site site).releasing = false ∧
      (∀ set, set < 64 → t.dev.tsValid site set = false) ∧ t.dev.rd (.SCH_HFLAG site) = 0 ∧
      (∀ i l, t.dev.sched.registry.get none i = some l → l.site ≠ site) ∧ t.dev.dram = s.dev.dram ∧ t.clock = s.clock)

/-- R158, R455: RESET makes the site resetting, ends every descriptor of it that no engine has, and drops its loadables; the wipe, once no burst is
dispatched to it and its buffers have drained, makes its bolts read zero and returns its ring's positions to 0, those of its capture and its stamps
staying; until then it waits; its end clears the host flags.
What goes beyond the spec's words here is the model's choice (log 82, 86). -/
def Obligations.SiteResetAndWipe : Prop :=
  (∀ (s : State) (p : Fin 8) (site : Fin 16) w, Admits s p (.SCH_SITECMD site) (setBit w 30 true) → bit w 31 = false → bit w 29 = false →
    (s.dev.site site).resetting = false →
    Yields (.siteReset p site w) s fun t =>
      (t.dev.site site).resetting = true ∧ t.clock = s.clock ∧
      (∀ k x, t.dev.desc k = some x → x.site = site → x.dispatched = true) ∧
      (∀ i l, t.dev.sched.registry.get none i = some l → l.site ≠ site)) ∧
  (∀ (s : State) (site : Fin 16), (s.dev.site site).resetting = true → (s.dev.site site).wiping = false →
    s.dev.siteDispatched site = false → s.dev.dramActive = true → siteDrainAt (closeSite s.mirror site) site ≤ s.clock.now →
    siteDrained (drainSite (closeSite s.mirror site) site) site = true →
    Yields (.siteWipe site) s fun t =>
      t.dev.site site = { (drainSite (closeSite s.mirror site) site).site site with wiping := true } ∧
      (t.dev.ring site).w = 0 ∧ (t.dev.ring site).f = 0 ∧ t.dev.markValid site = false ∧ t.dev.ringOn site = false ∧
      (∀ b ∈ s.dev.siteBolts site, ∀ o, o < boltBytes → t.dev.dram.byte (b * boltBytes + o) = 0) ∧ t.clock = s.clock) ∧
  (∀ (s : State) (site : Fin 16), mayWipe s.mirror site = false → Becomes (.siteWipe site) s s.mirror) ∧
  (∀ (s : State) (site : Fin 16), (s.dev.site site).wiping = true →
    Becomes (.siteWipeEnd site) s
      ((s.mirror.modSite site fun x => { x with resetting := false, wiping := false }).wr (.SCH_HFLAG site) 0))

/-- R177, R187, R201, R159: TRIG is the site's software start event, and fixes the start of an armed burst that waits for it; a write of SCH_PLOCK
locks the partition, and another one is ignored and flagged; a host-flag write changes the flags that its mask names.

R162, R163: GO records the registration with the site's check; its end checks the header and the bolts, takes the lowest free index, measures the
object and reports the index, or reports the failing check's code; DROP frees an entry that no descriptor uses.
What goes beyond the spec's words here is the model's choice (log 15, 80, 81). -/
def Obligations.SiteCommandsAndRegistration : Prop :=
  ((∀ (s : State) (p : Fin 8) (site : Fin 16) w slot x e b a, Admits s p (.SCH_SITECMD site) (setBit w 29 true) → bit w 31 = false →
    bit w 30 = false → s.dev.descs.filter (fun y => y.2.start = 2 && y.2.event = 0x20 && y.2.dispatched && y.2.site = site.val) = [(slot, x)] →
    x.start = 2 → x.got = none → x.place = .engine e → s.dev.burst e = some b → b.armed = some a → a ≤ s.clock.now →
    b.startOpen s.mirror e = true →
    Becomes (.siteTrig p site w) s
      (((s.mirror.modSched fun y => { y with
          heard := (cycleOf s.clock.now, (if y.heard.1 = cycleOf s.clock.now then y.heard.2 else []) ++ [(0x20, some site.val, s.clock.now)]) }).modDesc slot fun y => { y with got := some s.clock.now }).modBurst e fun b =>
        { b with start := some (toHalf (s.clock.now + 40 * nano1)), nextT0 := toHalf (s.clock.now + 40 * nano1) })) ∧
  (∀ (s : State) (p : Fin 8) w, Admits s p .SCH_PLOCK (setBit w 0 true) →
    (s.mirror.locked = false → Becomes (.partitionLock p w) s (s.mirror.store .SCH_PLOCK (setBit w 0 true))) ∧
    (s.mirror.locked = true → Becomes (.partitionLock p w) s (s.mirror.raise (.LNK_PERR p) 30))) ∧
  (∀ (s : State) (p : Fin 8) (site : Fin 16) w, Admits s p (.SCH_HFLAG site) w →
    Becomes (.hostFlagWrite p site w) s
      (s.mirror.set (.SCH_HFLAG site) 7 0
        ((s.mirror.get (.SCH_HFLAG site) 7 0 &&& (255 - bits w 23 16)) ||| (bits w 7 0 &&& bits w 23 16))))) ∧
  ((∀ (s : State) (p : Fin 8) w, Admits s p (.SCH_LDCTL p) (setBit w 31 true) → (s.dev.schPort p).reg = none →
    Becomes (.registerGo p w) s
      (let d := s.mirror.store (.SCH_LDCTL p) (setBit w 31 true)
       let k := d.get (.SCH_LDCTL p) 19 16
       (d.modSchPort p fun x => { x with
         reg := some (k, d.get (.SCH_LDBOLT p) 14 0, if d.siteOpen k = false then 9 else if d.siteOwner k ≠ p then 8 else 0) }).raise
         (.SCH_LDSTAT p) 31)) ∧
  (∀ (s : State) (p : Fin 8) site bolt i, (s.dev.schPort p).reg = some (site, bolt, 0) → s.mirror.hostReads = true →
    headerCheck s.mirror (readHeader s.mirror site (bolt * boltBytes)) = 0 →
    objectBolts s.mirror (readHeader s.mirror site (bolt * boltBytes)) = true → freeIndex s.mirror = some i →
    Yields (.registrationEnd p) s fun t =>
      t.dev.sched.registry.get none i = some (measured s.mirror (readHeader s.mirror site (bolt * boltBytes))) ∧
      (∀ j, j ≠ i → t.dev.sched.registry.get none j = s.dev.sched.registry.get none j) ∧ (t.dev.schPort p).reg = none ∧
      t.dev.get (.SCH_LDSTAT p) 9 0 = i ∧ t.dev.flag (.SCH_LDSTAT p) 31 = false ∧ t.dev.flag (.SCH_LDSTAT p) 30 = true ∧
      t.dev.flag (.SCH_LDSTAT p) 29 = false ∧ t.dev.dram = { s.dev.dram with ueCount := t.dev.dram.ueCount } ∧
      ((∀ k ∈ linesOf (bolt * boltBytes) (measured s.mirror (readHeader s.mirror site (bolt * boltBytes))).total, s.dev.dram.poisoned k = false) →
        t.dev.dram = s.dev.dram) ∧ t.clock = s.clock) ∧
  (∀ (s : State) (p : Fin 8) x, (s.dev.schPort p).reg = some x → s.mirror.hostReads = false →
    Becomes (.registrationEnd p) s s.mirror) ∧
  (∀ (s : State) (p : Fin 8) site bolt c, (s.dev.schPort p).reg = some (site, bolt, c) →
    (let l := readHeader s.mirror site (bolt * boltBytes)
     let d := s.mirror.modSchPort p fun x => { x with reg := none }
     (c ≠ 0 → Becomes (.registrationEnd p) s (regFail d p c)) ∧
     (c = 0 → headerCheck s.mirror l ≠ 0 → Becomes (.registrationEnd p) s (regFail d p (headerCheck s.mirror l))) ∧
     (c = 0 → headerCheck s.mirror l = 0 → objectBolts s.mirror l = false → Becomes (.registrationEnd p) s (regFail d p 5)))) ∧
  (∀ (s : State) (p : Fin 8) w i l, Admits s p (.SCH_LDCTL p) (setBit (setBit w 31 false) 30 true) → (s.dev.schPort p).reg = none →
    i = bits w 9 0 → s.dev.sched.registry.get none i = some l → s.dev.siteOwner l.site = p → (∀ y ∈ s.dev.descs, y.2.load ≠ i) →
    Yields (.loadableDrop p w) s fun t =>
      t.dev.sched.registry.get none i = none ∧ (∀ j, j ≠ i → t.dev.sched.registry.get none j = s.dev.sched.registry.get none j) ∧
      t.dev.flag (.SCH_LDSTAT p) 30 = true ∧ t.dev.flag (.SCH_LDSTAT p) 29 = false ∧ t.dev.dram = s.dev.dram ∧ t.clock = s.clock))

/-- R165 to R169: a write of word 7 submits the window: a valid submission that nothing blocks gets the lowest free slot, a handle and the next
acceptance number, and waits in its site's pending set or on the delay list; an invalid one is answered with its reason; a blocked one is refused on
version 3 and held otherwise. R402: while the port's area has no room for the response the write waits.

R170, R171: the oldest held submission that nothing blocks any more is checked again: a valid one is accepted in the lowest free slot, and its port is
held no more.
What goes beyond the spec's words here is the model's choice (log 169). -/
def Obligations.Submissions : Prop :=
  (∀ (s : State) (p : Fin 8) w, Admits s p (.SCH_SUBMIT p 7) w → s.mirror.outRoom p < 8 →
    Becomes (.submit p w) s (s.mirror.modPort p fun x => { x with waitWrite := some ((Reg.SCH_SUBMIT p 7).addr, w) })) ∧
  (∀ (s : State) (p : Fin 8) w d ws, Admits s p (.SCH_SUBMIT p 7) w → 8 ≤ s.mirror.outRoom p →
    d = (s.mirror.store (.SCH_SUBMIT p 7) w).modSchPort p (fun x => { x with seq := ((s.dev.schPort p).seq + 1) % 65536 }) →
    ws = submitWords d p →
    (∀ slot, invalidReason d p ws = 0 → blocked d p = false → (List.range 4096).find? (fun i => (s.dev.desc i).isNone) = some slot →
      Yields (.submit p w) s fun t => ∃ x, t.dev.desc slot = some x ∧ (∀ k, k ≠ slot → t.dev.desc k = s.dev.desc k) ∧
        x.handle = s.dev.sched.accepts % 2 ^ 20 * 4096 + slot ∧ x.port = p ∧ x.accept = s.dev.sched.accepts ∧
        x.load = bits (ws.getD 0 0) 63 54 ∧ x.entry = bits (ws.getD 0 0) 53 46 ∧ x.site = bits (ws.getD 0 0) 45 42 ∧
        x.prio = bits (ws.getD 0 0) 41 38 ∧ x.start = bits (ws.getD 0 0) 37 36 ∧ x.user = ws.getD 3 0 ∧
        (x.place = .pending ∨ x.place = .delay ∧ x.release = x.startT - d.leadTime ∧ s.clock.now ≤ x.release) ∧
        t.dev.sched.accepts = s.dev.sched.accepts + 1 ∧ (t.dev.schPort p).accepted = ((s.dev.schPort p).accepted + 1) % 2 ^ 64 ∧
        t.dev.dram = s.dev.dram ∧ t.clock = s.clock) ∧
    (invalidReason d p ws ≠ 0 → Becomes (.submit p w) s (answerInvalid d p (s.dev.schPort p).seq (invalidReason d p ws))) ∧
    (invalidReason d p ws = 0 → blocked d p = true → d.version p = 3 → Becomes (.submit p w) s (answerRefused d p (s.dev.schPort p).seq)) ∧
    (invalidReason d p ws = 0 → blocked d p = true → d.version p ≠ 3 →
      Yields (.submit p w) s fun t =>
        (t.dev.schPort p).held = some ((s.dev.schPort p).seq,
          (match s.dev.sched.lastHeld with
            | some (c, o) => if c = cycleOf s.clock.now then o else s.dev.sched.orders
            | none => s.dev.sched.orders), ws) ∧ t.dev.sched.descs = s.dev.sched.descs ∧ t.clock = s.clock)) ∧
  (∀ (s : State) p seq o ws slot, nextHeld s.dev = some (p, seq, o, ws) → 8 ≤ s.dev.outRoom p →
    invalidReason (s.mirror.modSchPort p fun x => { x with held := none }) p ws = 0 →
    (List.range 4096).find? (fun i => (s.dev.desc i).isNone) = some slot → (s.dev.port p).inbound = [] →
    (s.dev.port p).waitWrite = none →
    Yields .heldSubmissionRetry s fun t =>
      (∃ x, t.dev.desc slot = some x ∧ x.port = p ∧ x.handle = s.dev.sched.accepts % 2 ^ 20 * 4096 + slot ∧ x.user = ws.getD 3 0) ∧
      (t.dev.schPort p).held = none ∧ t.clock = s.clock)

/-- R172 to R174, R336: a tick boundary records the anchor and takes the rate, and arms the comparators of the releases before the next tick; an armed
release joins its site's pending set at its time; an idle site's best pending descriptor enters the ready queue.

R174: where the highest priority among a site's pending descriptors is held by one alone, it is the one that enters the ready queue.

R175: a scheduler cycle that nothing holds commits the first ready descriptor in order of priority and entry that has a free engine: the engine's
status names the site, and the descriptor carries the time. R177: an event heard earlier in that cycle starts it.
What goes beyond the spec's words here is the model's choice (log 2, 61, 62, 63). -/
def Obligations.SchedulerQueues : Prop :=
  ((∀ (s : State), s.dev.sched.tickAt ≤ s.clock.now →
    Yields .schedulerTick s fun t =>
      t.clock = { s.clock with cb := s.clock.raw, tb := s.clock.localAt s.clock.raw, rate := s.dev.rate } ∧
      t.dev.sched.tickAt = s.dev.sched.tickAt + s.dev.tickTime ∧ t.dev.regs = s.dev.regs ∧ t.dev.dram = s.dev.dram ∧
      (∀ k x, s.dev.desc k = some x → x.place = .delay → x.release < s.dev.sched.tickAt + s.dev.tickTime →
        (t.dev.desc k).any (·.armed) = true)) ∧
  (∀ (s : State) slot x, nextRelease s.dev = some (slot, x) → s.dev.dueOn 10 (max x.release s.dev.sched.nextLeave) ≤ s.clock.now →
    s.dev.desc slot = some x →
    Yields .delayListRelease s fun t =>
      t.dev.desc slot = some { x with place := .pending, armed := false, order := s.dev.sched.orders } ∧
      t.dev.sched.nextLeave = (cycleOf s.clock.now + 1) * nano1 ∧
      (∀ k, k ≠ slot → t.dev.desc k = s.dev.desc k) ∧ t.dev.sched.orders = s.dev.sched.orders + 1 ∧ t.dev.regs = s.dev.regs ∧
      t.dev.dram = s.dev.dram ∧ t.clock = s.clock) ∧
  (∀ (s : State) (site : Fin 16) slot x, s.dev.siteIdle site = true →
    firstDesc pendingBefore (s.dev.descs.filter fun y => y.2.place = .pending && y.2.site = site.val) = some (slot, x) →
    s.dev.desc slot = some x →
    Yields (.readyQueueEntry site) s fun t =>
      t.dev.desc slot = some { x with place := .ready, order := s.dev.sched.orders, readyAt := s.clock.now } ∧
      (∀ k, k ≠ slot → t.dev.desc k = s.dev.desc k) ∧ t.dev.regs = s.dev.regs ∧ t.dev.dram = s.dev.dram ∧ t.clock = s.clock)) ∧
  (∀ (l : List (Nat × Desc)) slot x, firstDesc pendingBefore l = some (slot, x) → (slot, x) ∈ l ∧ ∀ y ∈ l, y.2.prio ≤ x.prio) ∧
  (∀ (s : State) (skip : BitVec 16) slot x e, s.dev.dispatchHeld = false →
    (∀ t, dispatchDue s.mirror = some t → t ≤ s.clock.now) → chooseDesc s.mirror (considered s.mirror skip.toNat) = some (slot, x, e) →
    (s.dev.sched.heard.1 ≠ cycleOf s.clock.now ∨ x.start ≠ 2) →
    Becomes (.dispatchCommit skip) s
      (((((s.mirror.modDesc slot fun y => { y with place := .engine e, commitAt := s.clock.now }).raise (.ENG_STAT e) 26)).set
        (.ENG_STAT e) 19 16 x.site).modSched fun y => { y with nextCommit := (cycleOf s.clock.now + 1) * nano1 })) ∧
  (∀ (s : State) (skip : BitVec 16) slot x e v, s.dev.dispatchHeld = false →
    (∀ t, dispatchDue s.mirror = some t → t ≤ s.clock.now) → chooseDesc s.mirror (considered s.mirror skip.toNat) = some (slot, x, e) →
    s.dev.sched.heard.1 = cycleOf s.clock.now → x.start = 2 → x.miss = false → x.got = none → s.dev.desc slot = some x → s.dev.burst e = none →
    (s.dev.sched.heard.2.find? fun v => v.1 = x.event && v.2.1.all (· = x.site)) = some v →
    Yields (.dispatchCommit skip) s fun t =>
      t.dev.desc slot = some { x with place := .engine e, commitAt := s.clock.now, got := some v.2.2 } ∧
      (∀ k, k ≠ slot → t.dev.desc k = s.dev.desc k) ∧ t.dev.flag (.ENG_STAT e) 26 = true ∧ t.dev.engines = s.dev.engines ∧ t.clock = s.clock)

/-- R179, R180, R98: a cancel of an uncommitted descriptor ends it CANCELLED and frees its slot; one of a running burst stops its releases 100 ns on
and interrupts its engine; one with no descriptor of the port sets NO_HANDLE. A passed deadline of a MISS descriptor ends it MISSED_START.

R166, R183, R185: a completion is one record at the end of its port's output, counted, and its slot is free; nothing else changes.
What goes beyond the spec's words here is the model's choice (log 85, 88, 89, 191, 192). -/
def Obligations.CancelAndCompletion : Prop :=
  ((∀ (s : State) (p : Fin 8) w slot x, Admits s p (.SCH_CANCEL p) w →
    s.dev.descs.find? (fun y => y.2.handle = w.toNat && y.2.port = p.val) = some (slot, x) → (∀ e, x.place ≠ .engine e) →
    Becomes (.cancel p w) s
      (postCompletion (s.mirror.modDesc slot fun y => { y with cancelAt := some (cycleOf s.clock.now) }) slot x { status := 4 })) ∧
  (∀ (s : State) (p : Fin 8) w slot x e b, Admits s p (.SCH_CANCEL p) w →
    s.dev.descs.find? (fun y => y.2.handle = w.toNat && y.2.port = p.val) = some (slot, x) → x.place = .engine e → s.dev.burst e = some b →
    s.dev.desc slot = some x → burstOver b = false → b.fin ≠ some .skip → b.stop = none →
    Yields (.cancel p w) s fun t =>
      t.dev.burst e = some { b with stop := some ((s.clock.now + 100 * nano1 + halfPs - 1) / halfPs) } ∧ (t.dev.engine e).hostAbort = true ∧
      t.dev.desc slot = some { x with cancelAt := some (cycleOf s.clock.now) } ∧ (∀ k, k ≠ slot → t.dev.desc k = s.dev.desc k) ∧
      (∀ k, k ≠ e → t.dev.engine k = s.dev.engine k) ∧ t.dev.regs = s.dev.regs ∧ t.dev.dram = s.dev.dram ∧ t.clock = s.clock) ∧
  (∀ (s : State) (p : Fin 8) w, Admits s p (.SCH_CANCEL p) w → (∀ y ∈ s.dev.descs, ¬ (y.2.handle = w.toNat ∧ y.2.port = p)) →
    Becomes (.cancel p w) s (s.mirror.raise (.SCH_PSTAT p) 31)) ∧
  (∀ (s : State) (slot : Fin 4096) x, s.dev.desc slot = some x → x.start = 1 → x.miss = true → (∀ e, x.place ≠ .engine e) →
    (cycleOf (x.startT - 40 * nano1 + 1) + 1) * nano1 ≤ s.clock.now →
    Becomes (.startDeadlinePassed slot) s
      (postCompletion (ledger s.mirror 0x0F ucEvent x.site 0 s.clock.now 0 (2 ^ 63) 0) slot x { status := 5, flags := 8 })) ∧
  (∀ (s : State) (slot : Fin 4096) x e b, s.dev.desc slot = some x → x.start = 1 → x.miss = true → x.place = .engine e →
    s.dev.burst e = some b → b.slot = slot → b.armed = none → b.startOpen s.mirror e = true → b.stop = none → x.cancelAt = none →
    x.startT - 40 * nano1 + 1 ≤ s.clock.now →
    Yields (.startDeadlinePassed slot) s fun t =>
      (t.dev.burst e).any (fun c => c.fin = some .skip && decide (c.flags = (b.flags ||| 8) ∧ c.queue = [])) = true ∧
      t.dev.engState e = 5 ∧ (t.dev.engine e).armReq = false ∧ t.dev.desc slot = some x ∧ t.clock = s.clock)) ∧
  (∀ (d : Dev) slot x r t, t = postCompletion d slot x r →
    t.desc slot = none ∧ (∀ k, k ≠ slot → t.desc k = d.desc k) ∧ (t.port x.port).area = (d.port x.port).area ++ marked (completionWords x r) ∧
    (∀ q, q ≠ x.port → t.port q = d.port q ∧ t.schPort q = d.schPort q) ∧
    (t.schPort x.port).completed = ((d.schPort x.port).completed + 1) % 2 ^ 64 ∧ t.regs = d.regs ∧ t.dram = d.dram ∧ t.engines = d.engines ∧
    t.ledger = d.ledger ∧ t.sites = d.sites)

/-! ### Timing sets, cuffs and islands -/

/-- R130 to R133: GO takes a snapshot of the staged set; a validation that passes makes it the active copy of every channel, at once where no burst is
dispatched to the site or the set was invalid, and else at the first T0 from the apply point 100 ns on, or at the burst's end; INVAL makes a set
invalid unless a burst is dispatched to the site.

R478: a cuff that loses lock says so, is reported as a contained error of its sites, and its sites are held until lock returns.
What goes beyond the spec's words here is the model's choice (log 65, 87). -/
def Obligations.TimingSetsAndCuffLock : Prop :=
  ((∀ (s : State) (p : Fin 8) (site : Fin 16) w, Admits s p (.CUF_TSCOMMIT site) (setBit w 31 true) →
    (s.mirror.flag (.CUF_TSSTAT site) 31 = false →
      Yields (.timingSetCommit p site w) s fun t =>
        (t.dev.site site).commit = some (snapshot s.mirror site (bits w 5 0)) ∧ t.dev.flag (.CUF_TSSTAT site) 31 = true ∧
        t.dev.get (.CUF_TSSTAT site) 27 22 = bits w 5 0 ∧ t.dev.periods = s.dev.periods ∧ t.dev.chanSets = s.dev.chanSets ∧ t.clock = s.clock) ∧
    (s.mirror.flag (.CUF_TSSTAT site) 31 = true →
      Becomes (.timingSetCommit p site w) s
        ((s.mirror.store (.CUF_TSCOMMIT site) (setBit w 31 true)).raise (.CUF_TSSTAT site) 28))) ∧
  (∀ (s : State) (p : Fin 8) (site : Fin 16) w, Admits s p (.CUF_TSCOMMIT site) (setBit (setBit w 31 false) 30 true) →
    s.dev.siteDispatched site = false →
    Yields (.timingSetInvalidate p site w) s fun t =>
      t.dev.tsValid site (bits w 5 0) = false ∧ (∀ k, k < 64 → k ≠ bits w 5 0 → t.dev.tsValid site k = s.dev.tsValid site k) ∧
      t.dev.sites = s.dev.sites ∧ t.clock = s.clock) ∧
  (∀ (s : State) (site : Fin 16) x, snapshotOf s.dev site x → x.applyAt = none →
    validate (s.dev.site site).decl.paired x.period x.chans = none → (s.dev.siteDispatched site = false ∨ s.dev.tsValid site x.set = false) →
    Yields (.timingSetValidationEnd site) s fun t => Applied t.dev site x ∧ t.clock = s.clock) ∧
  (∀ (s : State) (site : Fin 16) e b y r q x a, releaseDue s.mirror site = some (e, b) → s.dev.desc b.slot = some y →
    b.start.isSome = true → b.stop = none → b.wait = none → b.entryBuf ≠ [] → b.padding = 0 → b.queue = r :: q →
    b.lastEnd.isSome = true → r.acts = [] → b.padMarks = [] → r.kind = .numbered → b.site = site.val →
    s.dev.dueOn (s.dev.firstCuff site) (b.nextT0 * halfPs) ≤ s.clock.now → snapshotOf s.dev site x → x.applyAt = some a →
    Yields (.vectorRelease site) s fun t =>
      (a ≤ b.nextT0 * halfPs → Applied t.dev site x ∧ (t.dev.burst e).map (·.lastPeriod) = some (if r.ts = x.set then x.period else s.dev.period site r.ts)) ∧
      (b.nextT0 * halfPs < a → (t.dev.site site).commit = some x ∧ t.dev.periods = s.dev.periods ∧ t.dev.chanSets = s.dev.chanSets) ∧
      t.clock = s.clock) ∧
  (∀ (s : State) (e : Fin 16) b y x, s.dev.burstDesc e = some (b, y) → burstDone s.mirror b = true → (∀ t, endDue s.dev e = some t → t ≤ s.clock.now) →
    b.site < 16 → snapshotOf s.dev b.site x → x.applyAt.isSome = true →
    Yields (.burstEnd e) s fun t => Applied t.dev b.site x ∧ t.clock = s.clock) ∧
  (∀ (s : State) (site : Fin 16) x, (s.dev.site site).commit = some x → x.applyAt = none →
    validate (s.dev.site site).decl.paired x.period x.chans = none → s.dev.tsValid site x.set = true → s.dev.siteDispatched site = true →
    Yields (.timingSetValidationEnd site) s fun t =>
      (t.dev.site site).commit = some { x with applyAt := some (s.clock.now + 100 * nano1) } ∧ t.dev.periods = s.dev.periods ∧
      t.dev.chanSets = s.dev.chanSets ∧ t.clock = s.clock)) ∧
  ((∀ (s : State) (k : Fin 8), s.dev.cuffSites k = 0 →
    Becomes (.cuffPllLockLost k) s
      (rasReport (((s.mirror.clear (.CUF_PLL k) 31).raise (.CUF_PLL k) 30).modSched fun x => { x with pllLost := x.pllLost ||| 2 ^ k.val })
        0x0C sevContained k 0 0 none none)) ∧
  (∀ (s : State) (k : Fin 8) (site : Fin 16) e b, members 16 (s.dev.cuffSites k) = [site.val] → s.dev.siteEngine site = some e →
    s.dev.burst e = some b → b.fin = none → b.stop = none → b.stopped = false →
    Yields (.cuffPllLockLost k) s fun t =>
      (t.dev.burst e).any (fun c => c.fin = some (.fault 0x28 0 false)) = true ∧ inSet t.dev.sched.pllLost k = true ∧ t.clock = s.clock) ∧
  (∀ (s : State) (k : Fin 8),
    Yields (.cuffPllLock k) s fun t => t.dev.flag (.CUF_PLL k) 31 = true ∧ inSet t.dev.sched.pllLost k = false ∧
      (∀ j, j ≠ k.val → inSet t.dev.sched.pllLost j = inSet s.dev.sched.pllLost j) ∧ t.dev.dram = s.dev.dram ∧ t.clock = s.clock))

/-- R131: a validation that fails reports the set, the code of Table 4.5, the channel and the edge index, sets REJECTED and ends the commit; the
active copies and the valid bits stay. -/
def Obligations.RejectedTimingSet : Prop :=
  ∀ (s : State) (site : Fin 16) x f, (s.dev.site site).commit = some x → x.applyAt = none → s.dev.get (.CUF_TSSTAT site) 27 22 = x.set →
    validate (s.dev.site site).decl.paired x.period x.chans = some f → f.code < 16 → f.chan < 256 → f.edge < 16 →
    Yields (.timingSetValidationEnd site) s fun t =>
      t.dev.get (.CUF_TSSTAT site) 27 22 = x.set ∧ t.dev.get (.CUF_TSSTAT site) 3 0 = f.code ∧ t.dev.get (.CUF_TSSTAT site) 15 8 = f.chan ∧
      t.dev.get (.CUF_TSSTAT site) 7 4 = f.edge ∧ t.dev.flag (.CUF_TSSTAT site) 29 = true ∧ t.dev.flag (.CUF_TSSTAT site) 31 = false ∧
      (t.dev.site site).commit = none ∧ t.dev.periods = s.dev.periods ∧ t.dev.chanSets = s.dev.chanSets ∧
      (∀ j k, j < 16 → k < 64 → t.dev.tsValid j k = s.dev.tsValid j k) ∧ t.dev.dram = s.dev.dram ∧ t.clock = s.clock

/-- R22, R26, R27, R15: at a modulation cycle the spread enables take effect; a sample of the islands stands in their registers, and LIMIT is set
while a neighbour pair differs too much; a mirror that agrees changes nothing, and one of a cuff that does not is reported.

R20, R477: a parity error of a seam that is not fenced fences it and is reported at the island that receives its items; further errors of a fenced
seam change nothing.
What goes beyond the spec's words here is the model's choice (log 77, 141, 146, 203, 205). -/
def Obligations.IslandsAndSeams : Prop :=
  ((∀ (s : State), Becomes .sscApply s (s.mirror.set .GLB_SSC 3 2 (s.mirror.get .GLB_SSC 1 0))) ∧
  (∀ (s : State) l, l.length = 41 →
    (∀ t, s.dev.polls.get none 0 = some t → t + 100 * micro1 ≤ s.clock.now) →
    Yields (.islandMonitorSample l) s fun t =>
      (∀ i x, l[i]? = some x → t.dev.rd (.GLB_ISLE i) = x.1 ++ x.2) ∧
      ((∃ x ∈ neighbours, overLimit t.dev x = true) → t.dev.flag .GLB_GRAD 31 = true) ∧ t.clock = s.clock) ∧
  (∀ (s : State) (i : Fin 41) diff, diff = 0 ∨ hasMirror i = false → Becomes (.mirrorCheck i diff) s s.mirror) ∧
  (∀ (s : State) (i : Fin 41) diff, diff ≠ 0 → i.val < 8 → s.dev.cuffSites i = 0 →
    Becomes (.mirrorCheck i diff) s
      (rasReport { s.mirror with mirrors := s.dev.mirrors.put 0 i diff } 0x0D sevContained i 0 0 none none)) ∧
  (∀ (s : State) (i : Fin 41) diff, diff ≠ 0 → i.val = 8 ∨ i.val = 10 → s.dev.ras.resetDue = false → s.mirror.flag .RAS_CTL 31 = false →
    Becomes (.mirrorCheck i diff) s
      (rasReport { s.mirror with mirrors := s.dev.mirrors.put 0 i diff } 0x0D sevFatal i 0 0 none none))) ∧
  ((∀ (s : State) (n : Fin 98), s.dev.seamFenced n = false → seamCuff n = none → seamLane n = none → seamFatal n = false →
    s.dev.ras.resetDue = false →
    Becomes (.seamParityError n) s
      (rasReport (s.mirror.raise (.RAS_SEAMFENCE (n.val / 32)) (n.val % 32)) 0x09 sevContained (seamIsland n) n 0 none none)) ∧
  (∀ (s : State) (n : Fin 98), s.dev.seamFenced n = true → Becomes (.seamParityError n) s s.mirror) ∧
  (∀ n : Fin 98, seamFatal n = true ↔ n.val ∈ [32, 33, 50, 51, 52, 53, 80, 81]))

/-! ### Pattern memory -/

/-- R206, R207: ALLOC gives a free range to an open site, and FREE queues the wipe of a range that nothing uses, which ends bolt by bolt with every
byte 0, after what the buffers of a releasing site hold has landed; a request that fails changes no bolt, and reports its code and bolt.
What goes beyond the spec's words here is the model's choice (log 82). -/
def Obligations.BoltAllocation : Prop :=
  (∀ (s : State) (p : Fin 8) w first count, Admits s p .DRC_BCMD (setBit w 31 true) → s.dev.allocBusy = false →
    first = s.dev.get .DRC_BRANGE 14 0 → count = s.dev.get .DRC_BRANGE 30 16 + 1 →
    (s.dev.siteOpen (bits w 3 0) = true → firstBad s.mirror true first count = none →
      Yields (.alloc p w) s fun t =>
        (∀ b, first ≤ b → b < first + count → t.dev.dram.bolt b = { alloc := true, site := bits w 3 0 }) ∧
        (∀ b, b < first ∨ first + count ≤ b → t.dev.dram.bolt b = s.dev.dram.bolt b) ∧ t.dev.flag .DRC_BSTAT 30 = true ∧
        t.dev.flag .DRC_BSTAT 29 = false ∧ t.dev.dram.mem = s.dev.dram.mem ∧ t.clock = s.clock) ∧
    (∀ b c, s.dev.siteOpen (bits w 3 0) = true → firstBad s.mirror true first count = some (b, c) →
      Yields (.alloc p w) s fun t => RangeFails s t c b) ∧
    (s.dev.siteOpen (bits w 3 0) = false → Yields (.alloc p w) s fun t => RangeFails s t 5 first)) ∧
  (∀ (s : State) (p : Fin 8) w first count b c, Admits s p .DRC_BCMD (setBit (setBit w 31 false) 30 true) → s.dev.allocBusy = false →
    first = s.dev.get .DRC_BRANGE 14 0 → count = s.dev.get .DRC_BRANGE 30 16 + 1 → firstBad s.mirror false first count = some (b, c) →
    Yields (.free p w) s fun t => RangeFails s t c b) ∧
  (∀ (s : State) (p : Fin 8) w first count, Admits s p .DRC_BCMD (setBit (setBit w 31 false) 30 true) → s.dev.allocBusy = false →
    first = s.dev.get .DRC_BRANGE 14 0 → count = s.dev.get .DRC_BRANGE 30 16 + 1 → firstBad s.mirror false first count = none →
    Becomes (.free p w) s
      ((s.mirror.store .DRC_BCMD (setBit (setBit w 31 false) 30 true)).modDram fun m => { m with wipes := m.wipes ++ [(first, count, true)] })) ∧
  (∀ (s : State) b n cmd ws x, s.dev.dram.wipes = (b, n, cmd) :: ws → s.dev.dramActive = true → releasingSite s.mirror = some x →
    siteDrainAt (closeSite s.mirror x) x ≤ s.clock.now → siteDrained (drainSite (closeSite s.mirror x) x) x = true →
    Yields .boltWipeEnd s fun t =>
      t.dev.dram.bolt b = {} ∧ (∀ o, o < boltBytes → t.dev.dram.byte (b * boltBytes + o) = 0) ∧
      t.dev.dram.wipes = (if n ≤ 1 then ws else (b + 1, n - 1, cmd) :: ws) ∧ t.clock = s.clock) ∧
  (∀ (s : State) b n cmd ws, s.dev.dram.wipes = (b, n, cmd) :: ws → s.dev.dramActive = true → releasingSite s.mirror = none →
    Yields .boltWipeEnd s fun t =>
      t.dev.dram.bolt b = {} ∧ (∀ k, k ≠ b → t.dev.dram.bolt k = s.dev.dram.bolt k) ∧
      (∀ o, o < boltBytes → t.dev.dram.byte (b * boltBytes + o) = 0) ∧
      (∀ a, a < b * boltBytes ∨ (b + 1) * boltBytes ≤ a → t.dev.dram.byte a = s.dev.dram.byte a) ∧
      t.dev.dram.wipes = (if n ≤ 1 then ws else (b + 1, n - 1, cmd) :: ws) ∧
      (cmd = true → n ≤ 1 → t.dev.flag .DRC_BSTAT 30 = true) ∧ t.clock = s.clock)

/-- R210, R213, R221 to R223: the lines of a write queue that have not issued drain from HIGH lines or a line of 1 µs down to LOW; a read's corrected error is counted and reported and
changes no byte, an uncorrectable one poisons its line; the scrub reads the lines in turn, and waits for a channel that is busy.
What goes beyond the spec's words here is the model's choice (log 20, 102, 199). -/
def Obligations.DrainsAndReads : Prop :=
  (∀ (s : State) (c : Fin 32) l ls, (s.mirror.wqIssued c).lines = l :: ls → (s.dev.wqHigh ≤ (l :: ls).length ∨ l.time + micro1 ≤ s.clock.now) →
    (s.dev.wq c).draining = false →
    Becomes (.writeDrainStart c) s (s.mirror.putWq c { lines := l :: ls, draining := true })) ∧
  (∀ (s : State) (c : Fin 32), (s.dev.wq c).draining = true →
    ((∀ r, s.dev.dram.inRefresh = some r → r.1 ≠ c.val % 4) →
      Becomes (.writeDrainEnd c) s
        (channelsFree (s.mirror.putWq c { lines := (s.dev.wq c).lines.drop ((s.dev.wq c).lines.length - s.dev.wqLow), draining := false })) ∧
      ((∀ e, s.dev.burst e = none) → s.dev.dram.held = [] →
        Becomes (.writeDrainEnd c) s
          (s.mirror.putWq c { lines := (s.dev.wq c).lines.drop ((s.dev.wq c).lines.length - s.dev.wqLow), draining := false }))) ∧
    (∀ r, s.dev.dram.inRefresh = some r → r.1 = c.val % 4 → Becomes (.writeDrainEnd c) s (channelsFree s.mirror))) ∧
  (∀ (s : State) (line : Fin 805306368) (o : Fin 3), s.mirror.lineHeld (64 * line) = true → Becomes (.dramReadReturn line o) s s.mirror) ∧
  (∀ (s : State) (line : Fin 805306368) (o : Fin 3), s.mirror.lineHeld (64 * line) = false →
    Yields (.dramReadReturn line o) s fun t =>
      t.dev.dram.mem = s.dev.dram.mem ∧ t.clock = s.clock ∧
      (s.dev.dram.poisoned (64 * line) = false → o = 0 → t.dev = s.mirror) ∧
      (s.dev.dram.poisoned (64 * line) = false → o = 1 →
        t.dev.dram.ceCount = (s.dev.dram.ceCount + 1) % 2 ^ 64 ∧ t.dev.ras.corrected = (s.dev.ras.corrected + 1) % 2 ^ 64 ∧
        t.dev.dram.poison = s.dev.dram.poison) ∧
      (s.dev.dram.poisoned (64 * line) = true ∨ o = 2 →
        t.dev.dram.ueCount = (s.dev.dram.ueCount + 1) % 2 ^ 64 ∧ t.dev.ras.contained = (s.dev.ras.contained + 1) % 2 ^ 64 ∧
        t.dev.dram.poisoned (64 * line) = true)) ∧
  (∀ (s : State) (o : Fin 3), s.mirror.flag .DRC_SCRUB 31 = false → Becomes (.dramScrubRead o) s s.mirror) ∧
  (∀ (s : State) (o : Fin 3), s.dev.dram.scrubAt ≤ s.clock.now → s.mirror.lineWaits (64 * scrubLine s.mirror) = true →
    Becomes (.dramScrubRead o) s s.mirror) ∧
  (∀ (s : State) (o : Fin 3), s.mirror.flag .DRC_SCRUB 31 = true → s.mirror.lineWaits (64 * s.dev.dram.scrubNext) = false →
    s.dev.dram.scrubAt ≤ s.clock.now → scrubbed s.dev (s.dev.dram.scrubNext / 32768) = true →
    Yields (.dramScrubRead o) s fun t =>
      t.dev.dram.scrubNext = (s.dev.dram.scrubNext + 1) % 805306368 ∧ s.dev.dram.scrubAt ≤ t.dev.dram.scrubAt ∧ t.dev.dram.mem = s.dev.dram.mem ∧
      (o = 2 → t.dev.dram.poisoned (64 * s.dev.dram.scrubNext) = true) ∧ t.clock = s.clock)

/-- R216 to R220: at its due point a group's debt grows, or its refresh is forced once it owes eight; a refresh is announced 500 ns ahead, starts when
no other group is in refresh and takes one off the debt, and ends after tRFC. The stack's temperature selects the rate.

R224 to R227: ENTER starts entry unless the memory is in use; entry ends with the queues empty; EXIT starts exit, which ends with the memory active,
no refresh owed, and every allocated bolt outside the retained part LOST.
What goes beyond the spec's words here is the model's choice (log 20, 100, 101, 103). -/
def Obligations.RefreshAndSelfRefresh : Prop :=
  ((∀ (s : State) (g : Fin 4) heavy, (s.dev.refGroup g).due ≤ s.clock.now → s.dev.dramActive = true →
    Yields (.refreshDue g heavy) s fun t =>
      t.dev.debt g = min 8 (s.dev.debt g + 1) + (s.dev.debt g - 8) ∧ (t.dev.refGroup g).forced = ((s.dev.refGroup g).forced || decide (8 ≤ s.dev.debt g)) ∧
      (t.dev.refGroup g).due = (s.dev.refGroup g).due + s.dev.refInterval s.dev.dram.doubledSel ∧
      (∀ h, h < 4 → h ≠ g.val → t.dev.debt h = s.dev.debt h ∧ t.dev.refGroup h = s.dev.refGroup h) ∧ t.dev.dram.mem = s.dev.dram.mem ∧
      t.clock = s.clock) ∧
  (∀ (s : State) (g : Fin 4) heavy d, d = s.mirror.modDram (fun m => { m with loadHigh := heavy }) → mayAnnounce d g = true →
    Becomes (.refreshAnnounce g heavy) s
      (prefetchAll (d.putRef g { s.dev.refGroup g with announced := some (s.clock.now + 500 * nano1) }))) ∧
  (∀ (s : State) (g : Fin 4) a, (s.dev.refGroup g).announced = some a → a ≤ s.clock.now → s.dev.dram.inRefresh = none → s.dev.dramActive = true →
    (∀ t, (s.dev.refGroup g).lastEnd = some t → t + 500 * nano1 ≤ s.clock.now) → (s.dev.refGroup g).forced = false → s.dev.debt g ≠ 0 →
    Yields (.refreshStart g) s fun t =>
      t.dev.dram.inRefresh = some (g.val, s.clock.now + s.dev.trfc) ∧ t.dev.debt g = s.dev.debt g - 1 ∧ (t.dev.refGroup g).announced = none ∧
      t.dev.get .DRC_STAT 29 28 = g ∧ t.dev.flag .DRC_STAT 27 = true ∧ t.dev.dram.mem = s.dev.dram.mem ∧ t.clock = s.clock) ∧
  (∀ (s : State) g a, s.dev.dram.inRefresh = some (g, a) → a ≤ s.clock.now →
    Becomes .refreshEnd s
      (channelsFree (((s.mirror.putRef g { s.dev.refGroup g with lastEnd := some a }).modDram fun m => { m with inRefresh := none }).clear
        .DRC_STAT 27))) ∧
  (∀ (s : State) x, (∀ t, s.dev.polls.get none 1 = some t → t + milli1 ≤ s.clock.now) →
    Yields (.stackTempPoll x) s fun t =>
      t.dev.rd .DRC_TEMP = x.setWidth 32 ∧ t.dev.dram.mem = s.dev.dram.mem ∧ t.clock = s.clock ∧
      t.dev.dram.doubledSel = (if 10880 ≤ x.toInt then true else if x.toInt ≤ 10496 then false else s.dev.dram.doubledSel))) ∧
  ((∀ (s : State) (p : Fin 8) w, Admits s p .DRC_PWR (setBit w 31 true) → s.dev.dramState = 0 → s.dev.dramBusy = false →
    Yields (.selfRefreshEnter p w) s fun t =>
      t.dev.dramState = 1 ∧ t.dev.dram.retain = bits w 1 0 ∧ t.dev.dram.mem = s.dev.dram.mem ∧ t.clock = s.clock) ∧
  (∀ (s : State) (p : Fin 8) w, Admits s p .DRC_PWR (setBit w 31 true) → s.dev.dramState = 0 → s.dev.dramBusy = true →
    Becomes (.selfRefreshEnter p w) s (s.mirror.raise .DRC_PWR 29)) ∧
  (∀ (s : State), s.dev.dramState = 1 → s.dev.dram.held.take s.dev.dram.heldAtEnter = [] → s.dev.pwrState ≠ 1 →
    Yields .selfRefreshEntryEnd s fun t =>
      t.dev.dramState = 2 ∧ (∀ c, t.dev.wq c = {}) ∧ t.dev.dram.inRefresh = none ∧ t.dev.dram.mem = s.dev.dram.mem ∧ t.clock = s.clock) ∧
  (∀ (s : State) (p : Fin 8) w, Admits s p .DRC_PWR (setBit (setBit w 31 false) 30 true) →
    (s.dev.dramState = 2 →
      Becomes (.selfRefreshExit p w) s ((s.mirror.store .DRC_PWR (setBit (setBit w 31 false) 30 true)).set .DRC_PWR 25 24 3)) ∧
    (s.dev.dramState = 1 →
      Becomes (.selfRefreshExit p w) s
        ((s.mirror.store .DRC_PWR (setBit (setBit w 31 false) 30 true)).modDram fun m => { m with exitKept := true }))) ∧
  (∀ (s : State), (s.dev.dramState = 3 ∨ s.dev.dramState = 2 ∧ s.dev.dram.exitKept = true) → s.dev.dram.held = [] → s.dev.pwrState ≠ 1 →
    Yields .selfRefreshExitEnd s fun t =>
      t.dev.dramState = 0 ∧ (∀ g, g < 4 → t.dev.debt g = 0) ∧ t.dev.dram.mem = s.dev.dram.mem ∧ t.clock = s.clock ∧
      (∀ b, (s.dev.dram.bolt b).alloc = true → retainEnd s.dev.dram.retain ≤ b → (t.dev.dram.bolt b).lost = true) ∧
      (∀ b, b < retainEnd s.dev.dram.retain → t.dev.dram.bolt b = s.dev.dram.bolt b)))

/-- R228, R230 to R233, R248, R249: a write of DRC_SRCFG enables the ring when its bolts are the site's, returns its positions to 0 with RESETPOS and
clears the mark with UNMARK; a mark above W is ignored, one that what has been granted may overwrite is lost, and another is valid.
What goes beyond the spec's words here is the model's choice (log 21, 83). -/
def Obligations.StreamRings : Prop :=
  (∀ (s : State) (p : Fin 8) (site : Fin 16) w, Admits s p (.DRC_SRCFG site) (setBit w 31 true) → s.dev.siteDispatched site = false →
    bit w 30 = false → bit w 29 = false →
    (s.dev.boltsOf site (s.dev.get (.DRC_SRBASE site) 14 0) (bits w 11 0 + 1) = true →
      Yields (.ringEnable p site w) s fun t =>
        t.dev.ringOn site = true ∧ t.dev.ringSize site = (bits w 11 0 + 1) * boltBytes ∧ t.dev.dram = s.dev.dram ∧ t.clock = s.clock) ∧
    (s.dev.boltsOf site (s.dev.get (.DRC_SRBASE site) 14 0) (bits w 11 0 + 1) = false →
      Yields (.ringEnable p site w) s fun t =>
        t.dev.ringOn site = false ∧ t.dev.flag (.DRC_SRSTAT site) 26 = true ∧ t.dev.dram = s.dev.dram ∧ t.clock = s.clock)) ∧
  (∀ (s : State) (p : Fin 8) (site : Fin 16) w, Admits s p (.DRC_SRCFG site) (setBit w 30 true) →
    (s.dev.siteDispatched site = true → Becomes (.resetpos p site w) s (s.mirror.raise (.DRC_SRSTAT site) 27)) ∧
    (s.dev.siteDispatched site = false →
      Yields (.resetpos p site w) s fun t =>
        (t.dev.ring site).w = 0 ∧ (t.dev.ring site).f = 0 ∧ (bit w 29 = false → (t.dev.ring site).g = (bits w 11 0 + 1) * boltBytes) ∧
        t.dev.markValid site = false ∧ t.dev.dram = s.dev.dram ∧ t.clock = s.clock)) ∧
  (∀ (s : State) (p : Fin 8) (site : Fin 16) w, Admits s p (.DRC_SRCFG site) (setBit w 29 true) → bit w 30 = false →
    bits w 11 0 = s.dev.get (.DRC_SRCFG site) 11 0 → bit w 31 = s.dev.ringOn site →
    (s.dev.ringOn site = true → s.dev.boltsOf site (s.dev.get (.DRC_SRBASE site) 14 0) (bits w 11 0 + 1) = true) →
    Yields (.unmark p site w) s fun t =>
      t.dev.markValid site = false ∧ (t.dev.ring site).g = s.dev.ringGrant site ∧ (t.dev.ring site).w = (s.dev.ring site).w ∧
      (t.dev.ring site).f = (s.dev.ring site).f ∧ t.dev.ringOn site = s.dev.ringOn site ∧ t.dev.dram = s.dev.dram ∧ t.clock = s.clock) ∧
  (∀ (s : State) (p : Fin 8) (site : Fin 16) w m, Admits s p (.DRC_SRMARKHI site) w →
    m = (w.toNat * 2 ^ 32 + (s.dev.rd (.DRC_SRMARKLO site)).toNat) / 64 * 64 →
    ((s.dev.ring site).w < m → Yields (.markSet p site w) s fun t =>
      t.dev.flag (.DRC_SRSTAT site) 29 = true ∧ (t.dev.ring site).m = (s.dev.ring site).m ∧ t.dev.markValid site = s.dev.markValid site) ∧
    (m ≤ (s.dev.ring site).w → s.dev.ringVersion site ≠ 1 → m + s.dev.ringSize site < s.dev.ringGrant site →
      Yields (.markSet p site w) s fun t =>
        (t.dev.ring site).m = m ∧ t.dev.markValid site = false ∧ t.dev.flag (.DRC_SRSTAT site) 30 = true) ∧
    (m ≤ (s.dev.ring site).w → s.dev.ringVersion site ≠ 1 → s.dev.ringGrant site ≤ m + s.dev.ringSize site →
      Yields (.markSet p site w) s fun t =>
        (t.dev.ring site).m = m ∧ t.dev.markValid site = true ∧ (t.dev.ring site).w = (s.dev.ring site).w ∧ t.dev.dram = s.dev.dram ∧
        t.clock = s.clock))

/-- R6, R207, R212: a write within a line that lands changes exactly its bytes, and the memory keeps its canonical form; a write to a LOST bolt, or in
part to a poisoned line, changes no byte.
What goes beyond the spec's words here is the model's choice (log 20). -/
def Obligations.MemoryWrites : Prop :=
  ∀ (d : Dev) cls a (bs : List Byte),
    ((d.dram.bolt (boltOf a)).lost = true → writeLine d cls a bs = (false, d)) ∧
    ((d.dram.bolt (boltOf a)).lost = false → bs.length < 64 → d.dram.poison.contains (a / 64) = true →
      (writeLine d cls a bs).1 = false ∧ (writeLine d cls a bs).2.dram.mem = d.dram.mem ∧
      (writeLine d cls a bs).2.dram.ueCount = (d.dram.ueCount + 1) % 2 ^ 64 ∧
      (writeLine d cls a bs).2.ras.contained = (d.ras.contained + 1) % 2 ^ 64) ∧
    ((d.dram.bolt (boltOf a)).lost = false → (64 ≤ bs.length ∨ d.dram.poison.contains (a / 64) = false) →
      (writeLine d cls a bs).1 = true ∧
      (∀ i, i < bs.length → (writeLine d cls a bs).2.dram.byte (a + i) = bs.getD i 0) ∧
      (∀ x, x < a ∨ a + bs.length ≤ x → (writeLine d cls a bs).2.dram.byte x = d.dram.byte x) ∧
      (writeLine d cls a bs).2.regs = d.regs) ∧
    (Memory.wf d.dram.mem = true → Memory.wf (writeLines d cls a bs).2.dram.mem = true)

/-! ### Acquisition and the ledger -/

/-- R256, R259: capture is enabled only on a region whose bolts are all the site's; a grant that would raise the sum above 1,000 is ignored and
flagged, and any other one takes effect from now.

R261 to R263, R270, R278: ARM checks the unit's settings in order and, where they pass, takes them and clears what it counts; a failing check is
reported and leaves it idle; DISARM stops its offered items, FORCE waits for the trigger, the envelope table's load makes it ready, and once its
buffer has drained it is done.

R260, R262, R263, R267: a sample is offered to the armed unit attached to its stream: it is counted, joins the sums, and while the pre-trigger part
fills it is kept; an item at which the trigger holds starts the span; a disabled stream's sample changes nothing.
What goes beyond the spec's words here is the model's choice (log 12, 16, 18, 46, 49, 54, 56, 104, 106). -/
def Obligations.CaptureAndAcquisition : Prop :=
  ((∀ (s : State) (p : Fin 8) (site : Fin 16) w, Admits s p (.ACQ_CAPCFG site) (setBit w 31 true) →
    (s.dev.boltsOf site (s.dev.get (.ACQ_CAPBASE site) 14 0) (s.dev.get (.ACQ_CAPBASE site) 30 16 + 1) = true →
      Becomes (.captureEnable p site w) s 
        (((s.mirror.set (.ACQ_CAPCFG site) 30 30 (bits w 30 30)).raise (.ACQ_CAPCFG site) 31).modSite site fun x =>
          { x with cap := { x.cap with region := s.dev.rd (.ACQ_CAPBASE site) } })) ∧
    (s.dev.boltsOf site (s.dev.get (.ACQ_CAPBASE site) 14 0) (s.dev.get (.ACQ_CAPBASE site) 30 16 + 1) = false →
      Becomes (.captureEnable p site w) s
        (((s.mirror.set (.ACQ_CAPCFG site) 30 30 (bits w 30 30)).clear (.ACQ_CAPCFG site) 31).raise (.ACQ_CAPSTAT site) 29))) ∧
  (∀ (s : State) (p : Fin 8) (n : Fin 16) w, Admits s p (.ACQ_GRANT n) w →
    (s.dev.grants - s.dev.get (.ACQ_GRANT n) 9 0 + bits w 9 0 ≤ 1000 →
      Becomes (.grantWrite p false n w) s
        ((s.mirror.store (.ACQ_GRANT n) w).modAcq n fun a => { a with drainT := max a.drainT s.clock.now })) ∧
    (1000 < s.dev.grants - s.dev.get (.ACQ_GRANT n) 9 0 + bits w 9 0 →
      Becomes (.grantWrite p false n w) s (s.mirror.raise (.ACQ_GRANT n) 31))) ∧
  (∀ (s : State) (p : Fin 8) (n : Fin 16) w, Admits s p (.ACQ_CAPGRANT n) w →
    s.dev.grants - s.dev.get (.ACQ_CAPGRANT n) 9 0 + bits w 9 0 ≤ 1000 →
    Becomes (.grantWrite p true n w) s
      ((s.mirror.store (.ACQ_CAPGRANT n) w).modSite n fun x => { x with cap := { x.cap with drainT := max x.cap.drainT s.clock.now } }))) ∧
  ((∀ (s : State) (p : Fin 8) (u : Fin 16) w, Admits s p (.ACQ_CTL u) (setBit w 31 true) → bit w 29 = false → s.dev.acqArmed u = false →
    (armCheck s.mirror u (s.mirror.acqCfg u) = 0 →
      Yields (.acqArm p u w) s fun t =>
        (t.dev.acq u).cfg = s.mirror.acqCfg u ∧ (t.dev.acq u).offered = 0 ∧ (t.dev.acq u).captured = 0 ∧ (t.dev.acq u).trigIdx = none ∧
        (t.dev.acq u).loading = (s.mirror.acqCfg u).usesEnv ∧ (t.dev.acq u).rearm = bits w 27 20 ∧
        t.dev.acqState u = (if (s.mirror.acqCfg u).pre = 0 then 2 else 1) ∧ t.dev.dram = s.dev.dram ∧ t.clock = s.clock) ∧
    (armCheck s.mirror u (s.mirror.acqCfg u) ≠ 0 →
      Becomes (.acqArm p u w) s
        (((((s.mirror.store (.ACQ_CTL u) (setBit w 31 true)).raise (.ACQ_STAT u) 24).set (.ACQ_STAT u) 23 20
          (armCheck s.mirror u (s.mirror.acqCfg u))).set (.ACQ_STAT u) 31 29 0).modAcq u fun a => { a with hostReq := some true }))) ∧
  (∀ (s : State) (p : Fin 8) (u : Fin 16) w, Admits s p (.ACQ_CTL u) (setBit (setBit w 31 false) 30 true) → bit w 29 = false →
    (s.dev.acqArmed u = true → Yields (.acqDisarm p u w) s fun t =>
      t.dev.acqState u = 4 ∧ (t.dev.acq u).loading = false ∧ (t.dev.acq u).pre = [] ∧ t.clock = s.clock) ∧
    (s.dev.acqArmed u = false →
      Becomes (.acqDisarm p u w) s
        ((s.mirror.store (.ACQ_CTL u) (setBit (setBit w 31 false) 30 true)).modAcq u fun a => { a with hostReq := some false }))) ∧
  (∀ (s : State) (p : Fin 8) (u : Fin 16) w, Admits s p (.ACQ_CTL u) (setBit w 29 true) → bit w 31 = false → bit w 30 = false →
    Becomes (.acqForce p u w) s ((s.mirror.store (.ACQ_CTL u) (setBit w 29 true)).modAcq u fun a => { a with force := true })) ∧
  (∀ (s : State) (u : Fin 16), s.mirror.engineReads = false → Becomes (.envelopeLoadEnd u) s s.mirror) ∧
  (∀ (s : State) (u : Fin 16) a, s.mirror.engineReads = true → a = s.dev.acq u → a.loading = true →
    Yields (.envelopeLoadEnd u) s fun t =>
      t.dev.acq u = { a with
        loading := false
        env := (List.range (bits a.cfg.envtab 31 16 + 1)).map fun k => s.dev.dram.num (bits a.cfg.envtab 14 0 * 0x200000 + 4 * k) 4 } ∧
      (∀ v, v ≠ u.val → t.dev.acq v = s.dev.acq v) ∧ t.dev.dram.mem = s.dev.dram.mem ∧ t.clock = s.clock ∧
      ((∀ k ∈ linesOf (bits a.cfg.envtab 14 0 * 0x200000) (4 * (bits a.cfg.envtab 31 16 + 1)), s.dev.dram.poisoned k = false) →
        t.dev.regs = s.dev.regs ∧ t.dev.ras = s.dev.ras)) ∧
  (∀ (s : State) (u : Fin 16) d c, s.dev.acqState u = 4 → d = paced s.mirror u → d.drainEndAt u ≤ s.clock.now →
    (0 < s.dev.get (.ACQ_GRANT u) 9 0 ∨ (s.dev.acq u).buf = []) →
    c = (if s.dev.siteEngine u = none then drainCapSince d u (d.site u).cap.drainT (d.site u).cap.buf.length else d) →
    (writeBuf c (s.dev.acqSite u) (s.dev.acq u).buf).1 = (s.dev.acq u).buf.length →
    Yields (.acqDrainEnd u) s fun t =>
      t.dev.acqState u = 5 ∧ (t.dev.acq u).buf = [] ∧
      (t.dev.acq u).rwpos = (s.dev.acq u).rwpos + 64 * ((s.dev.acq u).buf.filter (·.counted)).length ∧ t.clock = s.clock)) ∧
  ((∀ (s : State) (n : Fin 8) x, (s.mirror.flag (.ACQ_SPER n) 31 = false ∨ (captureSlot s.mirror n).1 = false) →
    Becomes (.captureSampleArrival n x []) s (captureSlot s.mirror n).2) ∧
  (∀ (s : State) (n : Fin 8) x (u : Fin 16) a, s.mirror.flag (.ACQ_SPER n) 31 = true → (captureSlot s.mirror n).1 = true → a = s.dev.acq u → a.cfg.stream = true → a.cfg.strm = n →
    (∀ v, v < 16 → v ≠ u.val → ¬ ((s.dev.acq v).cfg.stream = true ∧ (s.dev.acq v).cfg.strm = n)) → a.loading = false → a.full = false →
    a.pos < regionBytes a.cfg.rbase → bit a.cfg.dec 30 = false → bit a.cfg.dec 31 = false → a.trigIdx = none →
    (s.dev.acqState u = 1 → a.preCount + 1 < a.cfg.pre →
      Yields (.captureSampleArrival n x []) s fun t =>
        (t.dev.acq u).offered = a.offered + 1 ∧ (t.dev.acq u).sum = a.sum + x.toInt ∧ (t.dev.acq u).preCount = a.preCount + 1 ∧
        t.dev.acqState u = 1 ∧ (t.dev.acq u).captured = a.captured ∧ t.dev.dram = s.dev.dram ∧ t.clock = s.clock) ∧
    (s.dev.acqState u = 2 → bits a.cfg.trig 31 28 = 0 → bit a.cfg.trig 25 = false → a.pre = [] → a.cfg.post ≠ 0 → bit a.cfg.maskctl 31 = false →
      s.dev.siteEngine (s.dev.acqSite u) = none →
      Yields (.captureSampleArrival n x []) s fun t =>
        (t.dev.acq u).offered = a.offered + 1 ∧ (t.dev.acq u).trigIdx = some a.offered ∧ (t.dev.acq u).captured = a.captured + 1 ∧
        (t.dev.acq u).postLeft = a.cfg.post ∧ t.dev.acqState u = 3 ∧ t.dev.dram = s.dev.dram ∧ t.clock = s.clock)))

/-- R272, R273: an entry is written as 32 bytes at the write position, which moves on; with no room it is dropped, counted and flagged, and the next
entry after room returns has a GAP entry before it. R20: behind the fenced seam 33 no entry of the engine cluster comes.

R273, R276, R277, R282: an acknowledgement within [acknowledged, write position] is taken, and another one is ignored; SEAL writes its entries over
the open span and asks for the signature, or is flagged while one is pending; without a key or over a poisoned span the seal fails.
What goes beyond the spec's words here is the model's choice (log 105). -/
def Obligations.LedgerAndSeals : Prop :=
  (∀ (d : Dev) kind uclass site unit time aux w2 w3, d.seamFenced 33 = true → engineKind kind = true → d.ledger.gap = 0 →
    ledger d kind uclass site unit time aux w2 w3 = d) ∧
  (∀ (d : Dev) kind uclass site unit time aux w2 w3, (d.seamFenced 33 && engineKind kind) = false →
    (d.ledger.room = false → ledger d kind uclass site unit time aux w2 w3 =
      (d.modLedger fun l => { l with drop := (l.drop + 1) % 2 ^ 64, gap := l.gap + 1 }).raise .GLB_LGSTAT 30) ∧
    (d.ledger.room = true → d.ledger.gap = 0 → d.dram.held = [] →
      (d.dramActive = false ∨ d.seamFenced 52 = true ∨ (d.wqIssued (pseudoChannel (32 * (d.ledger.wpos % 2 ^ 25)))).fits clsRealTime 1 = false) →
      (ledger d kind uclass site unit time aux w2 w3).ledger = { d.ledger with wpos := d.ledger.wpos + 1 } ∧
      (ledger d kind uclass site unit time aux w2 w3).dram = { d.dram with
        held := [.write clsRealTime (32 * (d.ledger.wpos % 2 ^ 25)) (ledgerBytes kind uclass d.timeValid site unit time aux w2 w3)] }) ∧
    (d.ledger.room = true → d.ledger.gap = 0 → d.dram.held = [] → d.dramActive = true → d.seamFenced 52 = false →
      (d.wqIssued (pseudoChannel (32 * (d.ledger.wpos % 2 ^ 25)))).fits clsRealTime 1 = true → d.dram.poison = [] →
      (d.dram.bolt (32 * (d.ledger.wpos % 2 ^ 25) / 0x200000)).lost = false →
      (ledger d kind uclass site unit time aux w2 w3).ledger = { d.ledger with wpos := d.ledger.wpos + 1 } ∧
      (ledger d kind uclass site unit time aux w2 w3).dram.bytes (32 * (d.ledger.wpos % 2 ^ 25)) 32 =
        ledgerBytes kind uclass d.timeValid site unit time aux w2 w3 ∧
      (∀ a, a < 32 * (d.ledger.wpos % 2 ^ 25) ∨ 32 * (d.ledger.wpos % 2 ^ 25) + 32 ≤ a →
        (ledger d kind uclass site unit time aux w2 w3).dram.byte a = d.dram.byte a) ∧
      (ledger d kind uclass site unit time aux w2 w3).regs = d.regs) ∧
    (0 < d.ledger.gap → d.ledger.unacked + 2 ≤ 2 ^ 25 →
      (ledger d kind uclass site unit time aux w2 w3).ledger.wpos = d.ledger.wpos + 2 ∧
      (ledger d kind uclass site unit time aux w2 w3).ledger.gap = 0)) ∧
  ((∀ (s : State) (p : Fin 8) w n, Admits s p .GLB_LGACKHI w → n = w.toNat * 2 ^ 32 + (s.dev.rd .GLB_LGACKLO).toNat →
    (s.dev.ledger.ack ≤ n → n ≤ s.dev.ledger.wpos →
      Becomes (.ledgerAck p w) s ((s.mirror.store .GLB_LGACKHI w).modLedger fun l => { l with ack := n })) ∧
    ((n < s.dev.ledger.ack ∨ s.dev.ledger.wpos < n) → Becomes (.ledgerAck p w) s (s.mirror.store .GLB_LGACKHI w))) ∧
  (∀ (s : State) (p : Fin 8) w, Admits s p .GLB_LGCTL (setBit w 31 true) →
    (s.dev.ledger.sealing.isSome = true → Becomes (.sealSpan p w) s (s.mirror.raise .GLB_LGSTAT 26)) ∧
    (s.dev.ledger.sealing = none → s.dev.ledger.gap = 0 → s.dev.ledger.unacked + 3 ≤ 2 ^ 25 →
      Yields (.sealSpan p w) s fun t =>
        t.dev.ledger.sealing = some { first := max s.dev.ledger.span (s.dev.ledger.wpos - 2 ^ 25), stop := s.dev.ledger.wpos,
                                      sealPos := s.dev.ledger.wpos } ∧
        t.dev.ledger.wpos = s.dev.ledger.wpos + 3 ∧ t.dev.ledger.span = s.dev.ledger.wpos + 3 ∧
        t.dev.trust.signing = s.dev.trust.signing ++ [.span] ∧ t.clock = s.clock)) ∧
  (∀ (s : State), s.mirror.hostReads = false → Becomes .sealSigned s s.mirror) ∧
  (∀ (s : State) x rest, s.dev.ledger.sealing = some x → s.dev.trust.signing = .span :: rest → s.mirror.hostReads = true →
    (s.dev.trust.otp.key = none →
      Becomes .sealSigned s
        (((s.mirror.modLedger fun l => { l with sealing := none }).modTrust fun t => { t with signing := rest }).raise .GLB_LGSTAT 27)) ∧
    (s.dev.trust.otp.key.isSome = true → spanPoisoned s.dev x = true →
      Yields .sealSigned s fun t =>
        t.dev.ledger.sealing = none ∧ t.dev.ledger.wpos = s.dev.ledger.wpos ∧ t.dev.trust.signing = rest ∧ t.dev.flag .GLB_LGSTAT 27 = true ∧
        t.dev.dram.mem = s.dev.dram.mem ∧ t.clock = s.clock)) ∧
  (∀ (s : State) x rest k, s.dev.ledger.sealing = some x → s.dev.trust.signing = .span :: rest → s.mirror.hostReads = true →
    s.dev.trust.otp.key = some k → spanPoisoned s.dev x = false → s.dev.ledger.gap = 0 → s.dev.ledger.unacked + 4 ≤ 2 ^ 25 →
    Yields .sealSigned s fun t =>
      t.dev.ledger.sealing = none ∧ t.dev.ledger.wpos = s.dev.ledger.wpos + 4 ∧ t.dev.trust.signing = rest ∧
      t.dev.flag .GLB_LGSTAT 28 = true ∧ t.clock = s.clock))

/-! ### Waveform sources -/

/-- R285, R286, R298, R303: a stream is enabled while its lane is up, with a period that the lane's rate allows, and starts its slots at the next
whole microsecond; disabling it, or HALT, makes the unit idle at once and drops its requests.

R294 to R296, R304: START, REDIRECT and STOP deliver a host's request to a unit whose stream is on, at the present time; a unit whose stream is off,
and a write with more than one of them, are flagged. A timed START carries SRC_TSTART, and one that comes less than 160 ns ahead of it is flagged and
starts untimed.

R286, R287, R291, R301: a slot of an idle unit with no request due sends IDLE; one that plays, within a pass and with its sample at hand, sends that
sample and moves the oscillator by the segment's increment; one whose sample is late repeats the one before and counts it.
What goes beyond the spec's words here is the model's choice (log 57, 58, 200). -/
def Obligations.WaveformSources : Prop :=
  ((∀ (s : State) (p n : Fin 8) w, Admits s p (.SRC_SPER n) (setBit w 31 true) → s.dev.srcOn n = false → s.dev.srcState n = 0 →
    s.dev.laneUp (16 + n) = true → minPeriod (s.dev.get (.LAN_CTL (16 + n)) 27 26) ≤ bits w 30 0 →
    Yields (.srcStreamEnable p n w) s fun t =>
      t.dev.srcOn n = true ∧ t.dev.get (.SRC_SPER n) 30 0 = bits w 30 0 ∧ (t.dev.src n).slot = 0 ∧ (t.dev.src n).played = 0 ∧
      (t.dev.src n).anchor = ((s.clock.now + micro1 - 1) / micro1 * micro1 : Nat) ∧ t.dev.dram = s.dev.dram ∧ t.clock = s.clock) ∧
  (∀ (s : State) (p n : Fin 8) w, Admits s p (.SRC_SPER n) (setBit w 31 true) → s.dev.srcOn n = false →
    (s.dev.laneUp (16 + n) = false ∨ bits w 30 0 < minPeriod (s.dev.get (.LAN_CTL (16 + n)) 27 26)) →
    Becomes (.srcStreamEnable p n w) s ((s.mirror.set (.SRC_SPER n) 30 0 (bits w 30 0)).raise (.SRC_STAT n) 22)) ∧
  (∀ (s : State) (p n : Fin 8) w, Admits s p (.SRC_SPER n) (setBit w 31 false) → s.dev.srcOn n = true →
    Yields (.srcStreamDisable p n w) s fun t =>
      t.dev.srcOn n = false ∧ t.dev.srcState n = 0 ∧ (t.dev.src n).play = none ∧ (t.dev.src n).reqs = [] ∧ (t.dev.src n).pend = none ∧
      t.dev.dram = s.dev.dram ∧ t.clock = s.clock) ∧
  (∀ (s : State) (p n : Fin 8) w, Admits s p (.SRC_CTL n) (setBit w 28 true) →
    Yields (.srcHalt p n w) s fun t =>
      t.dev.srcState n = 0 ∧ (t.dev.src n).play = none ∧ (t.dev.src n).starting = none ∧ (t.dev.src n).reqs = [] ∧ (t.dev.src n).pend = none ∧
      (t.dev.src n).pend2 = none ∧ (∀ m, m ≠ n.val → t.dev.src m = s.dev.src m) ∧ t.dev.dram = s.dev.dram ∧ t.clock = s.clock)) ∧
  (∀ (i : Instr) (a : SrcAct) (k : Nat) (s : State) (p n : Fin 8) w,
    (i, a, k) ∈ [(Instr.srcStart p n w, SrcAct.start, 31), (.srcRedirect p n w, .redirect, 30), (.srcStop p n w, .stop, 29)] →
    Admits s p (.SRC_CTL n) (setBit w k true) → bit w 28 = false → (∀ j, j ∈ [29, 30, 31] → j ≠ k → bit w j = false) → (a = .start → bit w 27 = false) →
    (s.dev.srcOn n = true →
      Becomes i s ((s.mirror.store (.SRC_CTL n) (setBit w k true)).modSrc n fun x =>
        { x with reqs := x.reqs ++ [{ act := a, entry := bits w 15 0, time := toHalf s.clock.now, host := true }] })) ∧
    (s.dev.srcOn n = false → Becomes i s ((s.mirror.store (.SRC_CTL n) (setBit w k true)).raise (.SRC_STAT n) 24))) ∧
  (∀ (i : Instr) (k j : Nat) (s : State) (p n : Fin 8) w,
    (i, k) ∈ [(Instr.srcStart p n w, 31), (.srcRedirect p n w, 30), (.srcStop p n w, 29)] →
    Admits s p (.SRC_CTL n) (setBit w k true) → bit w 28 = false → j ∈ [29, 30, 31] → j ≠ k → bit w j = true →
    Becomes i s (s.mirror.raise (.SRC_STAT n) 24)) ∧
  (∀ (s : State) (p n : Fin 8) w d, Admits s p (.SRC_CTL n) (setBit w 31 true) → (∀ j, j ∈ [28, 29, 30] → bit w j = false) → bit w 27 = true →
    d = s.mirror.store (.SRC_CTL n) (setBit w 31 true) →
    (s.dev.srcOn n = false → s.clock.now + 160 * nano1 ≤ (s.dev.src n).tstart → Becomes (.srcStart p n w) s (d.raise (.SRC_STAT n) 24)) ∧
    (s.dev.srcOn n = true → s.clock.now + 160 * nano1 ≤ (s.dev.src n).tstart →
      Becomes (.srcStart p n w) s (d.modSrc n fun x => { x with
        reqs := x.reqs ++ [{ act := .start, entry := bits w 15 0, time := toHalf s.clock.now, host := true
                             timed := some (toHalf (s.dev.src n).tstart) }] })) ∧
    (s.dev.srcOn n = true → (s.dev.src n).tstart < s.clock.now + 160 * nano1 →
      Becomes (.srcStart p n w) s ((d.modSrc n fun x => { x with
        reqs := x.reqs ++ [{ act := .start, entry := bits w 15 0, time := toHalf s.clock.now, host := true }] }).raise (.SRC_STAT n) 25))) ∧
  ((∀ (s : State) (n : Fin 8) beyond, s.dev.srcOn n = true → slotTime s.dev n (s.dev.src n).slot * halfPs ≤ s.clock.now → s.dev.laneUp (16 + n) = true →
    (s.dev.src n).play = none → (s.dev.src n).reqs = [] → (s.dev.src n).starting = none →
    Yields (.sourceSlot n 0 beyond) s fun t =>
      (t.dev.src n).slot = (s.dev.src n).slot + 1 ∧ (t.dev.src n).idleSlots = (s.dev.src n).idleSlots + 1 ∧
      (t.dev.src n).block.getLast? = some (s.dev.get (.SRC_CFG n) 15 0) ∧ (t.dev.src n).play = none ∧ t.dev.dram = s.dev.dram ∧ t.clock = s.clock) ∧
  (∀ (s : State) (n : Fin 8) p v, s.dev.srcOn n = true → slotTime s.dev n (s.dev.src n).slot * halfPs ≤ s.clock.now → s.dev.laneUp (16 + n) = true →
    (s.dev.src n).play = some p → p.pos < p.seg.len * 2 ^ 32 → (s.dev.src n).reqs = [] → (s.dev.src n).starting = none → (s.dev.src n).pend = none →
    (s.dev.flag (.SRC_CFG n) 31 = false ∨ p.pos / 2 ^ 32 + 1 < p.seg.len) →
    (∀ q ∈ neededSamples s.mirror n p, (heldSample s.mirror n q).isSome = true) → playedSample s.mirror n p = some v →
    Yields (.sourceSlot n 0 false) s fun t =>
      (t.dev.src n).slot = (s.dev.src n).slot + 1 ∧ (t.dev.src n).played = (s.dev.src n).played + 1 ∧ (t.dev.src n).block.getLast? = some v ∧
      (t.dev.src n).play.map (fun q => (q.entry, q.seg, q.pos, q.left)) = some (p.entry, p.seg, p.pos + srcInc p.seg.rate, p.left) ∧
      t.dev.dram = s.dev.dram ∧ t.clock = s.clock) ∧
  (∀ (s : State) (n : Fin 8) p j, s.dev.srcOn n = true → slotTime s.dev n (s.dev.src n).slot * halfPs ≤ s.clock.now → s.dev.laneUp (16 + n) = true →
    (s.dev.src n).play = some p → p.pos < p.seg.len * 2 ^ 32 → (s.dev.src n).reqs = [] → (s.dev.src n).starting = none → (s.dev.src n).pend = none →
    s.dev.flag (.SRC_CFG n) 31 = false → j = p.pos / 2 ^ 32 → p.lines = [] → p.urgent = false →
    s.dev.dram.poisoned (sampleAddr s.dev n p.seg j / 64 * 64) = false → s.mirror.engineReads = true →
    Yields (.sourceSlot n 0 false) s fun t =>
      (t.dev.src n).played = (s.dev.src n).played + 1 ∧
      (t.dev.src n).block.getLast? = some (s.dev.dram.line (sampleAddr s.dev n p.seg j / 64 * 64) / 2 ^ (16 * (j % 32)) % 2 ^ 16) ∧
      t.dev.dram.mem = s.dev.dram.mem ∧ t.clock = s.clock) ∧
  (∀ (s : State) (n : Fin 8) p v, s.dev.srcOn n = true → slotTime s.dev n (s.dev.src n).slot * halfPs ≤ s.clock.now → s.dev.laneUp (16 + n) = true →
    (s.dev.src n).play = some p → p.pos < p.seg.len * 2 ^ 32 → (s.dev.src n).reqs = [] → (s.dev.src n).starting = none → (s.dev.src n).pend = none →
    (s.dev.flag (.SRC_CFG n) 31 = false ∨ p.pos / 2 ^ 32 + 1 < p.seg.len) →
    (∃ q ∈ neededSamples s.mirror n p, heldSample s.mirror n q = none) → (s.dev.src n).last = some v →
    Yields (.sourceSlot n 0 true) s fun t =>
      (t.dev.src n).underSamp = (s.dev.src n).underSamp + 1 ∧ (t.dev.src n).block.getLast? = some v ∧ t.dev.flag (.SRC_STAT n) 28 = true ∧
      (t.dev.src n).play.map (fun q => (q.entry, q.seg, q.pos, q.left)) = some (p.entry, p.seg, p.pos + srcInc p.seg.rate, p.left) ∧
      t.dev.dram = s.dev.dram ∧ t.clock = s.clock))

/-! ### Time measurement -/

/-- R311 to R320: an accepted edge enters the queue of the one input that selects its signal, with the time of the next base-clock edge by its cuff's
mirror less the interpolator's, and deskewed; one inside the hold-off is counted only, and one of a signal that no input selects does nothing; enabling a stamper
restarts its index and counters; the loop locks after 1,024 good measurements,
64 cycles of the counter apart.

R310, R321 to R323, R332: the oldest stamp leaves its queue, but for one behind a fenced seam (R20): recorded in its site's open line where the region
is on, and counted otherwise; an unfilled line closes after 1 µs; a region is enabled on bolts of its site only, and CLEAR returns its write position.
What goes beyond the spec's words here is the model's choice (log 90, 92, 93, 94, 95, 146, 203). -/
def Obligations.TimeStamps : Prop :=
  ((∀ (s : State) (c : Fin 136) low rising (code pcode : Fin 2048) i k, (i, k) ∈ [(c.val, code.val), (c.val ^^^ 1, pcode.val)] →
    s.dev.watches i c low = true → (∀ j, j ≠ i → s.dev.watches j c low = false) → (c.val < 128 → edgePass s.dev (c / 16) = false) →
    s.dev.inputOn i = true → s.dev.detects i rising = true → s.dev.inputBlind i = false →
    (s.dev.stampIn i).holdEnd ≤ s.clock.raw → (s.dev.stampIn i).deadEnd ≤ s.clock.raw → (s.dev.stampIn i).queue.length < 64 →
    Yields (.stampInputEdge c low rising code pcode) s fun t =>
      (t.dev.stampIn i).edges = (s.dev.stampIn i).edges + 1 ∧ (t.dev.stampIn i).stamps = (s.dev.stampIn i).stamps + 1 ∧
      (t.dev.stampIn i).queue = (s.dev.stampIn i).queue ++ [{
        time := ((toFrac16 ((s.clock.localAt (s.clock.raw + 1) : Int) + s.dev.mirrors.get 0 (inputCuff i)).toNat : Int) - s.dev.lin i k +
          s.dev.deskew i).toNat
        eidx := (s.dev.stampIn i).edges,
        rising, lk := s.dev.flag (.TDC_ISTAT i) 31, tv := s.dev.timeValid, mrg := (s.dev.stampIn i).mrg }] ∧
      (t.dev.stampIn i).deadEnd = s.clock.raw + 8 ∧ (∀ j, j ≠ i → t.dev.stampIn j = s.dev.stampIn j) ∧ t.clock = s.clock) ∧
  (∀ (s : State) (c : Fin 136) low rising code pcode, (∀ j, s.dev.watches j c low = false) →
    Becomes (.stampInputEdge c low rising code pcode) s s.mirror) ∧
  (∀ (s : State) (c : Fin 136) low rising code pcode, s.dev.watches c c low = true → (∀ j, j ≠ c.val → s.dev.watches j c low = false) →
    (c.val < 128 → edgePass s.dev (c / 16) = false) → s.dev.inputOn c = true → s.dev.detects c rising = true → s.dev.inputBlind c = false →
    s.clock.raw < (s.dev.stampIn c).holdEnd →
    Becomes (.stampInputEdge c low rising code pcode) s
      (s.mirror.modStampIn c fun x => { x with edges := x.edges + 1, heldoff := x.heldoff + 1 })) ∧
  (∀ (s : State) (p : Fin 8) (i : Fin 136) w, Admits s p (.TDC_IN i) (setBit w 31 true) → s.dev.flag (.TDC_IN i) 31 = false →
    Yields (.stamperEnable p i w) s fun t =>
      t.dev.flag (.TDC_IN i) 31 = true ∧ t.dev.stampIn i = { good := (s.dev.stampIn i).good, loopRaw := (s.dev.stampIn i).loopRaw } ∧
      (∀ j, j ≠ i.val → t.dev.stampIn j = s.dev.stampIn j) ∧ t.dev.dram = s.dev.dram ∧ t.clock = s.clock) ∧
  (∀ (s : State) (i : Fin 136) (err : BitVec 16) idac,
    Yields (.tdcLoopMeasure i err idac) s fun t =>
      t.dev.rd (.TDC_LOOP i) = BitVec.ofNat 32 (idac.toNat * 65536 + err.toNat) ∧
      (t.dev.stampIn i).good = (if -64 ≤ err.toInt ∧ err.toInt ≤ 64 then min 1024 ((s.dev.stampIn i).good + 1) else 0) ∧
      (s.dev.flag (.TDC_ISTAT i) 31 = true → (err.toInt < -256 ∨ 256 < err.toInt) →
        t.dev.flag (.TDC_ISTAT i) 31 = false ∧ t.dev.flag (.TDC_ISTAT i) 30 = true) ∧
      (s.dev.flag (.TDC_ISTAT i) 31 = false → 1023 ≤ (s.dev.stampIn i).good → -64 ≤ err.toInt → err.toInt ≤ 64 →
        t.dev.flag (.TDC_ISTAT i) 31 = true) ∧
      (t.dev.stampIn i).loopRaw = t.clock.raw ∧ (s.dev.stampIn i).loopRaw + 64 ≤ t.clock.raw ∧ s.clock.raw ≤ t.clock.raw ∧
      s.clock.now ≤ t.clock.now ∧ t.dev.dram = s.dev.dram)) ∧
  ((∀ (s : State) (i : Fin 136) st q, (s.dev.stampIn i).queue = st :: q → s.dev.stampsFenced i = false → s.dev.flag (.TDC_IN i) 26 = false →
    Yields (.stampDequeue i []) s fun t =>
      (t.dev.stampIn i).queue = q ∧ (t.dev.stampIn i).unrec = (s.dev.stampIn i).unrec + 1 ∧ t.dev.sites = s.dev.sites ∧ t.dev.dram = s.dev.dram ∧
      t.clock = s.clock) ∧
  (∀ (s : State) (i : Fin 136), s.dev.stampsFenced i = true → Becomes (.stampDequeue i []) s s.mirror) ∧
  (∀ (s : State) (i : Fin 136) (site : Fin 16) st q, (s.dev.stampIn i).queue = st :: q → s.dev.stampsFenced i = false → s.dev.flag (.TDC_IN i) 26 = true →
    s.dev.inputSite i = some site.val → s.dev.flag (.TDC_RCTL site) 31 = true → (s.dev.site site).stamps.inputs ≠ [] →
    (s.dev.site site).stamps.inputs.length < 3 →
    Yields (.stampDequeue i []) s fun t =>
      (t.dev.stampIn i).queue = q ∧ (t.dev.site site).stamps.line = (s.dev.site site).stamps.line ++ stampBytes i st ∧
      (t.dev.site site).stamps.inputs = (s.dev.site site).stamps.inputs ++ [i.val] ∧ t.dev.dram = s.dev.dram ∧ t.clock = s.clock) ∧
  (∀ (s : State) (site : Fin 16), (s.dev.site site).stamps.inputs ≠ [] → (s.dev.site site).stamps.since + micro1 ≤ s.clock.now →
    Yields (.stampLineTimeout site []) s fun t =>
      (t.dev.site site).stamps.inputs = [] ∧ (t.dev.site site).stamps.line = [] ∧
      (t.dev.site site).stamps.pos = (s.dev.site site).stamps.pos + 64 ∧
      (t.dev.site site).cap.buf.length = (s.dev.site site).cap.buf.length + 1 ∧ t.clock = s.clock) ∧
  (∀ (s : State) (p : Fin 8) (site : Fin 16) w, Admits s p (.TDC_RCTL site) (setBit w 31 true) → s.dev.flag (.TDC_RCTL site) 31 = false →
    bit w 29 = false →
    (s.dev.boltsOf site (s.dev.get (.TDC_RBASE site) 14 0) (s.dev.get (.TDC_RBASE site) 30 16 + 1) = true →
      Yields (.stampRegionEnable p site w) s fun t =>
        t.dev.flag (.TDC_RCTL site) 31 = true ∧ (t.dev.site site).stamps.pos = 0 ∧ (t.dev.site site).stamps.wpos = 0 ∧ t.clock = s.clock) ∧
    (s.dev.boltsOf site (s.dev.get (.TDC_RBASE site) 14 0) (s.dev.get (.TDC_RBASE site) 30 16 + 1) = false →
      Becomes (.stampRegionEnable p site w) s ((s.mirror.set (.TDC_RCTL site) 30 30 (bits w 30 30)).raise (.TDC_RSTAT site) 30))) ∧
  (∀ (s : State) (p : Fin 8) (site : Fin 16) w, Admits s p (.TDC_RCTL site) (setBit w 29 true) → bit w 31 = s.dev.flag (.TDC_RCTL site) 31 →
    Yields (.stampRegionClear p site w) s fun t =>
      (t.dev.site site).stamps.pos = 0 ∧ (t.dev.site site).stamps.wpos = 0 ∧ t.dev.flag (.TDC_RCTL site) 31 = s.dev.flag (.TDC_RCTL site) 31 ∧
      t.dev.dram = s.dev.dram ∧ t.clock = s.clock))

/-- R324 to R330: INTERVAL arming checks that both inputs are on and the site's, and starts an empty run, which DISARM ends; FREQ arming checks its
input and its gate; the gate opens and closes at its times, and a run with fewer than three stamps ends with its count and FEW.
What goes beyond the spec's words here is the model's choice (log 96, 97, 98, 99). -/
def Obligations.TimerUnits : Prop :=
  (∀ (s : State) (p : Fin 8) (u : Fin 16) w a b, Admits s p (.TDC_IVCTL u) (setBit w 31 true) → a = s.dev.get (.TDC_IVCFG u) 31 24 →
    b = s.dev.get (.TDC_IVCFG u) 23 16 →
    (s.dev.inputOn a = true → s.dev.inputOn b = true → s.dev.inputSite a = some u.val → s.dev.inputSite b = some u.val →
      Yields (.intervalArm p u w) s fun t =>
        t.dev.get (.TDC_IVSTAT u) 31 30 = 1 ∧ (t.dev.interval u).start = a ∧ (t.dev.interval u).stop = b ∧ (t.dev.interval u).count = 0 ∧
        (t.dev.interval u).starts = [] ∧ (t.dev.interval u).arm = (s.clock.now + frac16 - 1) / frac16 ∧ t.dev.dram = s.dev.dram ∧ t.clock = s.clock) ∧
    (s.dev.inputOn a = false ∨ s.dev.inputOn b = false →
      Yields (.intervalArm p u w) s fun t =>
        t.dev.get (.TDC_IVSTAT u) 31 30 = 0 ∧ t.dev.flag (.TDC_IVSTAT u) 24 = true ∧ t.dev.get (.TDC_IVSTAT u) 23 20 = 1)) ∧
  (∀ (s : State) (p : Fin 8) (u : Fin 16) w, Admits s p (.TDC_IVCTL u) (setBit (setBit w 31 false) 30 true) →
    s.mirror.get (.TDC_IVSTAT u) 31 30 = 1 → Becomes (.intervalDisarm p u w) s (s.mirror.set (.TDC_IVSTAT u) 31 30 2)) ∧
  (∀ (s : State) (p : Fin 8) (u : Fin 16) w i f, Admits s p (.TDC_FQCTL u) (setBit w 31 true) → i = s.dev.get (.TDC_FQCFG u) 31 24 → f = s.dev.freq u →
    s.dev.inputOn i = true → s.dev.inputSite i = some u.val → f.gopen + micro1 ≤ f.gclose → f.gclose ≤ f.gopen + 10 * second1 →
    s.clock.now + micro1 ≤ f.gopen →
    Yields (.freqArm p u w) s fun t =>
      t.dev.get (.TDC_FQSTAT u) 31 29 = 1 ∧ (t.dev.freq u).input = i ∧ (t.dev.freq u).opens = f.gopen ∧ (t.dev.freq u).closes = f.gclose ∧
      (t.dev.freq u).n = 0 ∧ t.dev.dram = s.dev.dram ∧ t.clock = s.clock) ∧
  (∀ (s : State) (p : Fin 8) (u : Fin 16) w, Admits s p (.TDC_FQCTL u) (setBit (setBit w 31 false) 30 true) →
    Becomes (.freqDisarm p u w) s (s.mirror.set (.TDC_FQSTAT u) 31 29 0)) ∧
  (∀ (s : State) (u : Fin 16), s.dev.get (.TDC_FQSTAT u) 31 29 = 1 → (s.dev.freq u).opens ≤ s.clock.now →
    Becomes (.freqGateOpen u) s (s.mirror.set (.TDC_FQSTAT u) 31 29 2)) ∧
  (∀ (s : State) (u : Fin 16), s.dev.get (.TDC_FQSTAT u) 31 29 = 2 → (s.dev.freq u).closes ≤ s.clock.now →
    Becomes (.freqGateClose u) s (s.mirror.set (.TDC_FQSTAT u) 31 29 3)) ∧
  (∀ (s : State) (u : Fin 16), s.dev.freqReady u = true → (s.dev.freq u).n < 3 →
    Becomes (.freqFitComplete u) s
      (((s.mirror.raise (.TDC_FQSTAT u) 28).modFreq u fun q => { q with resN := q.n }).set (.TDC_FQSTAT u) 31 29 4)) ∧
  (∀ (s : State) (u : Fin 16) q, s.dev.freqReady u = true → q = s.dev.freq u → 3 ≤ q.n → q.stepped = false →
    q.n * q.sxx - q.sx * q.sx > 0 →
    Yields (.freqFitComplete u) s fun t =>
      t.dev.get (.TDC_FQSTAT u) 31 29 = 4 ∧ (t.dev.freq u).resN = q.n ∧ t.dev.flag (.TDC_FQSTAT u) 28 = s.dev.flag (.TDC_FQSTAT u) 28 ∧
      (∀ r, s.dev.get (.TDC_IN q.input) 28 27 ≠ 2 → (q.n * q.sxy - q.sx * q.sy) * 2 ^ 16 = r * (q.n * q.sxx - q.sx * q.sx) → 0 < r → r < 2 ^ 64 →
        (t.dev.freq u).per = r.toNat) ∧ t.clock = s.clock)

/-! ### The time base -/

/-- R340 to R343, R349: a write of TIM_SET2 asks for a step to its time, which is applied at a tick boundary with no burst dispatched: local time
moves by it and the anchor with it. The rate registers set the steering within its bound, a crystal reading gives TCOMP, and ageing is added at its
cycles.

R345 to R348: a change of source takes effect at a tick boundary with the servo acquiring, or off; a measurement steers by the integral and
proportional terms or asks for a step; eight intervals without one put the servo in holdover with its integrator kept.
What goes beyond the spec's words here is the model's choice (log 107, 108, 109, 110, 194, 202). -/
def Obligations.StepsAndServo : Prop :=
  ((∀ (s : State) (p : Fin 8) w, Admits s p (.TIM_SET 2) w →
    Yields (.timeSet p w) s fun t =>
      t.dev.tbase.stepHost = some (s.dev.tbase.stepHost.getD 0 +
        ((ofTimeWords (s.dev.rd (.TIM_SET 0)).toNat (s.dev.rd (.TIM_SET 1)).toNat w.toNat : Int) - s.clock.now)) ∧
      t.dev.flag .TIM_STAT 27 = true ∧ t.dev.dispatchHeld = true ∧ t.clock = s.clock) ∧
  (∀ (s : State) delta, s.dev.tbase.stepHost = some delta → s.dev.tbase.stepServo = none → s.dev.sched.tickAt ≤ s.clock.now →
    (∀ x ∈ s.dev.descs, x.2.dispatched = false) →
    Yields .stepApply s fun t =>
      t.clock.raw = s.clock.raw ∧ t.clock.now = ((s.clock.now : Int) + delta).toNat ∧ t.clock.cb = s.clock.raw ∧ t.clock.rate = s.clock.rate ∧
      t.dev.tbase.stepHost = none ∧ t.dev.tbase.stepServo = none ∧ t.dev.timeValid = true ∧ t.dev.flag .TIM_STAT 27 = false) ∧
  (∀ (s : State) (p : Fin 8) w, Admits s p .TIM_RSET w →
    (s.mirror.get .TIM_CTL 31 30 ≠ 0 → Becomes (.rateSet p w) s (s.mirror.raise .TIM_STAT 23)) ∧
    (s.mirror.get .TIM_CTL 31 30 = 0 →
      Yields (.rateSet p w) s fun t =>
        t.dev.tbase.rho = clampInt (-rateBound - s.dev.tcomp) (rateBound - s.dev.tcomp) (w.toInt * 2 ^ 18) ∧ t.dev.tbase.integ = t.dev.tbase.rho ∧
        t.dev.dram = s.dev.dram ∧ t.clock = s.clock)) ∧
  (∀ (s : State) (x : BitVec 16), (s.dev.tbase.xtalDone + 1) * 32000000 ≤ s.clock.raw →
    Yields (.xtalTempRead x) s fun t =>
      t.dev.rd .TIM_XTEMP = x.setWidth 32 ∧ t.dev.tbase.xtalDone = s.dev.tbase.xtalDone + 1 ∧
      (∀ v : Int, (∀ m, m < 4 → s.dev.rd (.CAL_XC 1 m) = if m = 0 then BitVec.ofInt 32 v else 0) → -2 ^ 31 ≤ v → v < 2 ^ 31 → t.dev.tcomp = v * 2 ^ 16) ∧
      -rateBound ≤ t.dev.tbase.rho + t.dev.tcomp ∧ t.dev.tbase.rho + t.dev.tcomp ≤ rateBound ∧ t.dev.dram = s.dev.dram ∧ t.clock = s.clock) ∧
  (∀ (s : State), (s.dev.tbase.ageDone + 1) * 3200000000 ≤ s.clock.raw →
    Yields .ageingAdd s fun t =>
      t.dev.tbase.integ = s.dev.tbase.integ + (s.dev.rd .TIM_AGE).toInt ∧ t.dev.tbase.ageDone = s.dev.tbase.ageDone + 1 ∧
      t.dev.tbase.rho = clampInt (-rateBound - s.dev.tcomp) (rateBound - s.dev.tcomp) (s.dev.tbase.rho + (s.dev.rd .TIM_AGE).toInt) ∧ t.clock = s.clock)) ∧
  ((∀ (s : State) k, s.dev.sched.tickAt ≤ s.clock.now → k = s.dev.get .TIM_CTL 31 30 → k ≠ s.dev.tbase.srcInForce → s.dev.servoState ≠ 2 →
    Yields .servoSourceApply s fun t =>
      t.dev.tbase.srcInForce = k ∧ t.dev.servoState = (if k = 0 then 0 else 1) ∧ t.dev.tbase.integ = s.dev.tbase.integ ∧
      t.dev.tbase.rho = clampInt (-rateBound - s.dev.tcomp) (rateBound - s.dev.tcomp) s.dev.tbase.integ ∧ t.dev.tbase.count = 0 ∧
      t.dev.dram = s.dev.dram ∧ t.clock = s.clock) ∧
  (∀ (s : State) e ms, s.dev.tbase.meas = (s.dev.tbase.srcInForce, e) :: ms → s.dev.tbase.stepServo = none → s.dev.servoState = 1 →
    s.dev.servoSteps e = true →
    Yields .servoMeasurement s fun t =>
      t.dev.tbase.stepServo = some (-e * frac16) ∧ t.dev.tbase.meas = ms ∧ t.dev.tbase.count = 0 ∧ t.dev.flag .TIM_STAT 27 = true ∧
      t.dev.tbase.integ = s.dev.tbase.integ ∧ t.dev.servoState = 1 ∧ t.clock = s.clock) ∧
  (∀ (s : State) e ms dt g, s.dev.tbase.meas = (s.dev.tbase.srcInForce, e) :: ms → s.dev.tbase.stepServo = none → s.dev.servoState = 1 →
    s.dev.servoSteps e = false → s.dev.tbase.count < 15 → s.dev.tbase.lastMeas.isSome = true → dt = s.clock.now - s.dev.tbase.lastMeas.getD 0 →
    0 < dt → g = s.dev.gains → (∀ k, k = g.1 ∨ k = g.2 → (e * 2 ^ 44 * nano1) % (dt * 2 ^ k : Nat) = 0) →
    Yields .servoMeasurement s fun t =>
      t.dev.tbase.integ = s.dev.tbase.integ - (e * 2 ^ 44 * nano1) / (dt * 2 ^ g.2 : Nat) ∧
      t.dev.tbase.rho = clampInt (-rateBound - s.dev.tcomp) (rateBound - s.dev.tcomp) (t.dev.tbase.integ - (e * 2 ^ 44 * nano1) / (dt * 2 ^ g.1 : Nat)) ∧
      t.dev.tbase.count = (if e.natAbs < s.dev.lockThr then s.dev.tbase.count + 1 else 0) ∧ t.dev.servoState = 1 ∧ t.clock = s.clock) ∧
  (∀ (s : State), s.dev.servoState = 1 ∨ s.dev.servoState = 2 → s.dev.tbase.measT + 8 * s.dev.servoInterval ≤ s.clock.now →
    Yields .servoHoldover s fun t =>
      t.dev.servoState = 3 ∧ t.dev.tbase.integ = s.dev.tbase.integ ∧
      t.dev.tbase.rho = clampInt (-rateBound - s.dev.tcomp) (rateBound - s.dev.tcomp) s.dev.tbase.integ ∧ t.clock = s.clock))

/-- R350 to R352: a member of the ring sends a REQUEST every PERIOD ticks, answers one with a REPLY and its REPLY_TIME, and takes the answer to its
own: delay and offset are half the sum and half the difference of the two directions.

R353, R354: a raised event goes downstream with its time, the delay of TIM_SEVCFG on, and is delivered at that time by the control island's mirror; one that arrives from upstream is
passed on and kept, unless it is the part's own.
What goes beyond the spec's words here is the model's choice (log 111, 112, 113). -/
def Obligations.StitchRing : Prop :=
  ((∀ (s : State), (s.dev.ringRole = 1 ∨ s.dev.ringRole = 2) → or256 (s.dev.get .TIM_RING 23 16) ≤ s.dev.tbase.ringTicks →
    Yields .ringRequestSend s fun t =>
      t.dev.tbase.ringSeq = (s.dev.tbase.ringSeq + 1) % 256 ∧ t.dev.tbase.ringTicks = 0 ∧
      t.dev.tbase.ringT1 = some ((toFrac16 s.clock.now : Int) + s.dev.stTx s.dev.upstream) ∧
      (s.dev.stitchOn s.dev.upstream = true → (t.dev.tbase.stitchOut.head?.map fun b => (b.1, bits b.2 127 124, bits b.2 123 116)) =
        some (s.dev.upstream, 1, (s.dev.tbase.ringSeq + 1) % 256)) ∧
      (s.dev.tbase.ringT1.isSome = true → 7 ≤ s.dev.tbase.ringLost → t.dev.flag .TIM_RINGSTAT 28 = true) ∧ t.dev.dram = s.dev.dram ∧ t.clock = s.clock) ∧
  (∀ (s : State) (lane : Fin 4) b turn, s.mirror.stitchHears lane = false → Becomes (.ringRequestReceive lane b turn) s s.mirror) ∧
  (∀ (s : State) b turn, bits b 127 124 = 1 → s.dev.ringRole ≠ 0 → s.dev.stitchHears 0 = true → s.dev.stitchOn 0 = true →
    Yields (.ringRequestReceive 0 b turn) s fun t =>
      (∃ x y, t.dev.tbase.stitchOut = (0, y) :: (0, x) :: s.dev.tbase.stitchOut ∧ bits x 127 124 = 2 ∧ bits x 123 116 = bits b 123 116 ∧
        bits x 95 48 = turn.toNat ∧ bits x 103 96 = s.dev.hops ∧ bits y 127 124 = 3 ∧ bits y 123 116 = bits b 123 116) ∧
      t.dev.regs = s.dev.regs ∧ t.dev.dram = s.dev.dram ∧ t.clock = s.clock) ∧
  (∀ (s : State) (lane : Fin 4) r x t1 a c, s.dev.tbase.ringT1 = some t1 → bits r 127 124 = 2 → bits x 127 124 = 3 →
    bits r 123 116 = s.dev.tbase.ringSeq → bits x 123 116 = s.dev.tbase.ringSeq → lane.val = s.dev.upstream → s.dev.ringRole = 2 →
    s.dev.stitchHears lane = true → s.dev.tbase.srcInForce = 1 → a = (toFrac16 (ofTimeBits (bits x 95 0)) : Int) - t1 →
    c = (toFrac16 s.clock.now : Int) - s.dev.stRx lane - toFrac16 (ofTimeBits (bits x 95 0)) - bits r 95 48 → (c - a) % 2 = 0 →
    Yields (.ringReplyReceive lane r x) s fun t =>
      t.dev.tbase.ringDly = (c + a) / 2 ∧ t.dev.tbase.ringOff = (c - a) / 2 - s.dev.stAsym lane ∧
      t.dev.tbase.meas = s.dev.tbase.meas ++ [(1, t.dev.tbase.ringOff)] ∧ t.dev.tbase.ringT1 = none ∧ t.dev.tbase.ringLost = 0 ∧
      t.dev.flag .TIM_RINGSTAT 31 = true ∧ t.clock = s.clock)) ∧
  ((∀ (s : State) (p : Fin 8) w, Admits s p .TIM_SEV (setBit w 31 true) →
    Yields (.stitchEventRaise p w) s fun t =>
      t.dev.tbase.events = s.dev.tbase.events ++ [⟨bits w 3 0, toFrac16 (s.clock.now + s.dev.sevDelay) * frac16⟩] ∧
      (∃ l, t.dev.tbase.stitchOut = l ++ s.dev.tbase.stitchOut ∧ (s.dev.stitchOn 0 = true → l ≠ []) ∧
        (∀ b ∈ l, bits b.2 127 124 = 4 ∧ bits b.2 123 120 = bits w 3 0)) ∧
      t.dev.dram = s.dev.dram ∧ t.clock = s.clock) ∧
  (∀ (s : State) (lane : Fin 4) b, bits b 127 124 = 4 → lane.val = s.dev.upstream → s.dev.stitchHears lane = true →
    bits b 119 112 ≠ s.dev.get .TIM_RING 15 8 →
    (s.dev.get .TIM_RING 31 30 = 0 → Becomes (.stitchEventReceive lane b) s (sendDown s.mirror b)) ∧
    (s.dev.get .TIM_RING 31 30 ≠ 0 → s.mirror.nowOn 10 ≤ ofTimeBits (bits b 95 0) →
      Becomes (.stitchEventReceive lane b) s ((sendDown s.mirror b).modTime fun x =>
        { x with events := x.events ++ [⟨bits b 123 120, ofTimeBits (bits b 95 0)⟩] }))) ∧
  (∀ (d : Dev) b, ∃ l, (sendDown d b).tbase.stitchOut = l ++ d.tbase.stitchOut ∧ (d.stitchOn 0 = true → l ≠ []) ∧ (∀ c ∈ l, c.2 = b) ∧
    (sendDown d b).regs = d.regs) ∧
  (∀ (s : State) x due, firstEvent s.dev.tbase.events = some x → due = s.dev.dueOn 10 x.time → s.clock.now ≤ due →
    s.dev.mirrors.get 0 10 ≤ x.time → s.dev.tbase.delivered.get none x.event ≠ some (s.clock.advanceTo due).raw →
    Yields .stitchEventDeliver s fun t =>
      t.clock = s.clock.advanceTo due ∧ t.clock.now = due ∧ x ∉ t.dev.tbase.events ∧
      (x.event < 16 → t.dev.flag .TIM_SEVSTAT x.event = true) ∧
      (∀ (e : Fin 16) b d, s.dev.burst e = some b → b.wait = some (.event x.event d none) →
        (∀ y ∈ s.dev.descs, y.2.start = 2 → y.2.event ≠ x.event) →
        (t.dev.burst e).bind (·.wait) = some (.event x.event d (some x.time)))))

/-- R355 to R357, R369: the port takes its settings at a restart, follows the best Announce of its domain, stamps Sync and Delay_Req at the MAC, and
computes offset and delay from a full exchange; other messages are ignored.
What goes beyond the spec's words here is the model's choice (log 116, 117, 118, 195, 196). -/
def Obligations.PtpPort : Prop :=
  (∀ (s : State),
    Yields .ptpPortRestart s fun t =>
      t.dev.tbase.ptp.en = s.dev.flag .TIM_PTP 31 ∧ t.dev.tbase.ptp.transport = s.dev.get .TIM_PTP 30 30 ∧ t.dev.tbase.ptp.domain = s.dev.get .TIM_PTP 23 16 ∧ t.dev.tbase.ptp.best = none ∧
      t.dev.get .TIM_PTPSTAT 31 29 = (if s.dev.flag .TIM_PTP 31 then 1 else 0) ∧ t.dev.dram = s.dev.dram ∧ t.clock = s.clock) ∧
  (∀ (s : State) m, s.dev.tbase.ptp.en = true → s.dev.ml0Open = true → m.domain = s.dev.tbase.ptp.domain →
    m.udp.toNat = s.dev.tbase.ptp.transport → -4 ≤ m.logSync → m.logSync ≤ 1 →
    (∀ b, s.mirror.master = some b → b.sender = m.sender ∨ lexBefore (announceKey m) (announceKey b) = true) →
    Yields (.ptpAnnounce m) s fun t =>
      t.dev.tbase.ptp.best = some m ∧ t.dev.tbase.ptp.bestAt = s.clock.now ∧ t.dev.tbase.gmid = m.gmid ∧ (s.dev.tbase.gmid ≠ m.gmid → t.dev.flag .TIM_PTPSTAT 28 = true) ∧ t.clock = s.clock) ∧
  (∀ (s : State) sender seq phase t1 corr, fromMaster s.mirror sender = true →
    Yields (.ptpSync sender seq phase t1 corr) s fun t =>
      t.dev.tbase.ptp.syncSeq = seq ∧ t.dev.tbase.ptp.syncT1 = t1 ∧ t.dev.tbase.ptp.syncCorr = corr ∧
      t.dev.tbase.ptp.syncT2 = some ((toFrac16 (s.mirror.ml0Now - 712 * nano1 / 10) : Int) - phase) ∧ t.dev.regs = s.dev.regs ∧ t.clock = s.clock) ∧
  (∀ s : State, s.dev.mirrors.get 0 40 = 0 → s.mirror.ml0Now = s.clock.now) ∧
  (∀ (s : State) sender seq t1 corr, fromMaster s.mirror sender = true → s.dev.tbase.ptp.syncSeq = seq → s.dev.tbase.ptp.syncT1 = none →
    Yields (.ptpFollowUp sender seq t1 corr) s fun t =>
      t.dev.tbase.ptp = { s.dev.tbase.ptp with syncT1 := some t1, syncCorr := s.dev.tbase.ptp.syncCorr + corr } ∧ t.clock = s.clock) ∧
  (∀ (s : State), s.dev.tbase.ptp.en = true → s.dev.ml0Open = true → s.mirror.master.isSome = true →
    (∀ a, s.dev.tbase.ptp.reqAt = some a → a + logSeconds s.dev.tbase.ptp.logDelayReq ≤ s.clock.now) →
    Yields .ptpDelayReq s fun t =>
      t.dev.tbase.ptp.reqSeq = (s.dev.tbase.ptp.reqSeq + 1) % 65536 ∧ t.dev.tbase.ptp.reqT3 = some (toFrac16 (s.mirror.ml0Now + 512 * nano1 / 10) : Int) ∧
      t.dev.tbase.ptp.reqAt = some s.clock.now ∧
      t.clock = s.clock) ∧
  (∀ (s : State) sender seq t4 corr k t1 t2 t3 a b, fromMaster s.mirror sender = true → s.dev.tbase.ptp.reqSeq = seq → s.dev.tbase.ptp.syncT1 = some t1 →
    s.dev.tbase.ptp.syncT2 = some t2 → s.dev.tbase.ptp.reqT3 = some t3 → s.dev.tbase.ptp.delays = [] → a = t2 - t1 - s.dev.tbase.ptp.syncCorr →
    b = t4 - t3 - corr → (a + b) % 2 = 0 → s.dev.rd .TIM_PTPASYM = 0 → s.dev.tbase.srcInForce = 2 →
    Yields (.ptpDelayResp sender seq t4 corr k) s fun t =>
      t.dev.tbase.ptpDly = (a + b) / 2 ∧ t.dev.tbase.ptpOff = (a - b) / 2 ∧ t.dev.tbase.meas = s.dev.tbase.meas ++ [(2, (a - b) / 2)] ∧
      t.dev.tbase.ptp.delays = [(a + b) / 2] ∧ t.dev.tbase.ptp.logDelayReq = k ∧ t.dev.get .TIM_PTPSTAT 31 29 = 3 ∧ t.clock = s.clock) ∧
  (∀ (s : State), Becomes .ptpOtherMessage s s.mirror)

/-- R359 to R363, R370, R371: a compare unit armed with a target ahead fires at the first base-clock edge at which it is reached, with a packet to its
port where it asks for one; a pulse output whose timing is legal runs its train; an edge of a capture input that the filter passes is stamped and
queued, and a shorter one is ignored.
What goes beyond the spec's words here is the model's choice (log 2, 114, 197). -/
def Obligations.ComparesAndPulses : Prop :=
  (∀ (s : State) (p : Fin 8) w, Admits s p .TIM_CMPMODE w →
    ((∀ n, n < 64 → s.dev.cmpArmed n = false) → Yields (.compareCountWrite p w) s fun t =>
      t.dev.cmpCount = min 64 (bits w 6 0) ∧ t.dev.dram = s.dev.dram ∧ t.clock = s.clock) ∧
    (∀ n, n < 64 → s.dev.cmpArmed n = true → Yields (.compareCountWrite p w) s fun t =>
      t.dev.cmpCount = s.dev.cmpCount ∧ t.dev.flag .TIM_CMPMODE 31 = true)) ∧
  (∀ (s : State) (p : Fin 8) (n : Fin 64) w, Admits s p (.TIM_CMPCTL n) (setBit w 31 true) → n.val < s.dev.cmpCount → s.dev.compact = false →
    s.clock.now < ofTimeWords (s.dev.rd (.TIM_CMPT n 0)).toNat (s.dev.rd (.TIM_CMPT n 1)).toNat (s.dev.rd (.TIM_CMPT n 2)).toNat →
    Yields (.compareArm p n w) s fun t =>
      t.dev.cmpArmed n = true ∧
      (t.dev.compare n).target = ofTimeWords (s.dev.rd (.TIM_CMPT n 0)).toNat (s.dev.rd (.TIM_CMPT n 1)).toNat (s.dev.rd (.TIM_CMPT n 2)).toNat ∧
      (∀ m, m ≠ n.val → t.dev.compare m = s.dev.compare m) ∧ t.dev.dram = s.dev.dram ∧ t.clock = s.clock) ∧
  (∀ (s : State) (p : Fin 8) (n : Fin 64) w, Admits s p (.TIM_CMPCTL n) (setBit (setBit w 31 false) 30 true) →
    Yields (.compareDisarm p n w) s fun t => t.dev.cmpArmed n = false ∧ t.dev.tbase = s.dev.tbase ∧ t.clock = s.clock) ∧
  (∀ (s : State) (n : Fin 64), s.dev.cmpArmed n = true → s.dev.compact = false → s.clock.now < (s.dev.compare n).target →
    s.dev.get (.TIM_CMPCTL n) 25 24 = 1 →
    Yields (.compareFire n) s fun t =>
      t.clock = s.clock.advanceTo (s.dev.compare n).target ∧ t.dev.cmpArmed n = false ∧ t.dev.flag (.TIM_CMPCTL n) 28 = true ∧
      (s.dev.compare n).target ≤ (t.dev.compare n).fired ∧
      (t.dev.port (s.dev.cmpOwner n)).area.length = (s.dev.port (s.dev.cmpOwner n)).area.length + 3 ∧ t.dev.dram = s.dev.dram) ∧
  (∀ (s : State) (p : Fin 8) (k : Fin 4) w per wid start, Admits s p (.TIM_TPOCTL k) (setBit w 31 true) → s.mirror.tpoRuns k = false →
    per = s.dev.get (.TIM_TPOPER1 k) 15 0 * 2 ^ 32 + (s.dev.rd (.TIM_TPOPER0 k)).toNat → wid = (s.dev.rd (.TIM_TPOWIDTH k)).toNat →
    start = ofTimeWords (s.dev.rd (.TIM_TPOSTART k 0)).toNat (s.dev.rd (.TIM_TPOSTART k 1)).toNat (s.dev.rd (.TIM_TPOSTART k 2)).toNat →
    20 * 65536 ≤ per → 10 ≤ wid → (wid + 10) * 65536 ≤ per → s.clock.now + micro1 ≤ start →
    Yields (.tpoArm p k w) s fun t =>
      t.dev.tpoRuns k = true ∧ (t.dev.tpo k).period = per ∧ (t.dev.tpo k).width = wid ∧ (t.dev.tpo k).start = start ∧ (t.dev.tpo k).next = 0 ∧
      t.dev.dram = s.dev.dram ∧ t.clock = s.clock) ∧
  (∀ (s : State) (p : Fin 8) (k : Fin 4) w, Admits s p (.TIM_TPOCTL k) (setBit w 30 true) → s.mirror.tpoRuns k = true →
    Becomes (.tpoDisarm p k w) s (s.mirror.putTpo k { s.dev.tpo k with left := some 0 })) ∧
  (∀ (d : Dev) k, (d.tpo k).left = some 0 → (∀ a, (d.tpo k).pulseEnd = some a → a ≤ d.now) → d.tpoRuns k = false) ∧
  (∀ (s : State) (k : Fin 4), s.dev.flag (.TIM_TPOCTL k) 29 = true → (s.dev.tpo k).left ≠ some 0 → pulseEdge (s.dev.tpo k) (s.dev.tpo k).next * halfPs ≤ s.clock.now →
    Yields (.tpoPulse k) s fun t =>
      (t.dev.tpo k).next = (s.dev.tpo k).next + 1 ∧ (t.dev.tpo k).left = (s.dev.tpo k).left.map (· - 1) ∧
      (t.dev.tpo k).edges = pulseEdge (s.dev.tpo k) (s.dev.tpo k).next :: (s.dev.tpo k).edges ∧
      (t.dev.tpo k).pulseEnd = some (pulseEdge (s.dev.tpo k) (s.dev.tpo k).next * halfPs + (s.dev.tpo k).width * nano1) ∧ t.clock = s.clock) ∧
  (∀ (s : State) (k : Fin 4) stable, stable < 4 * nano1 → Becomes (.tciEdge k stable) s s.mirror) ∧
  (∀ (s : State) (k : Fin 4) stable, 4 * nano1 ≤ stable → s.dev.flag (.TIM_TCICTL k) 31 = true → (∀ a, (s.dev.tci k).lastEdge = some a → a + 50 * nano1 ≤ s.clock.now) →
    (s.dev.tci k).stamps.length < 16 →
    Yields (.tciEdge k stable) s fun t =>
      t.dev.tci k = { stamps := (s.dev.tci k).stamps ++ [toFrac16 s.clock.now], lastEdge := some s.clock.now } ∧ t.clock = s.clock)

/-! ### Errors, power and trust -/

/-- R476, R479: a report sets its severity's bit of RAS_STAT and counts in its severity's value; the newest record of the log names it, unless it
repeats the record before; a fatal one holds dispatch. Memory, sites, engines and the queue of descriptors stay.

R477, R480, Table 15.1: a corrected error is reported and nothing is lost; an uncorrectable line of a capture or acquisition buffer is reported and
marked, one of a link buffer drops its port's session, one of a quad FIFO ends its site's burst with DATAPATH, one of the descriptor table or of the
service cores' memory is fatal, and one of a control store waits for its repair, and traps the routine that reads it; a scrub that finds an error acts as
an access would, but traps no routine.
What goes beyond the spec's words here is the model's choice (log 119, 147, 166). -/
def Obligations.ErrorReports : Prop :=
  (∀ (d : Dev) source severity island addr sites engine port t, severity < 4 → t = rasReport d source severity island addr sites engine port →
    t.flag .RAS_STAT (sevBit severity) = true ∧
    (t.ras.corrected = if severity = 0 then (d.ras.corrected + 1) % 2 ^ 64 else d.ras.corrected) ∧
    (t.ras.contained = if severity = 1 then (d.ras.contained + 1) % 2 ^ 64 else d.ras.contained) ∧
    (t.ras.fatal = if severity = 2 then (d.ras.fatal + 1) % 2 ^ 64 else d.ras.fatal) ∧
    (t.ras.log.getLast?.map fun r => (r.source, r.island, r.addr)) = some (source, island, addr) ∧
    (severity ≠ 0 → t.ras.pos = (d.ras.pos + 1) % 2 ^ 64 ∧ (t.ras.log.getLast?.map fun r => (r.severity, r.count, r.engine, r.port)) = some (severity, 1, engine, port)) ∧
    (severity = 2 → t.ras.hold = true) ∧ (severity ≠ 2 → t.ras.hold = d.ras.hold) ∧
    (∀ r : Reg, r.addr ≠ Reg.addr .RAS_STAT → t.rd r = d.rd r) ∧
    t.dram = d.dram ∧ t.engines = d.engines ∧ t.sites = d.sites ∧ t.sched = d.sched ∧ t.ledger = d.ledger ∧ t.trust = d.trust) ∧
  ((∀ (s : State) x island addr, (∀ e store a k, x ≠ .control e store a k) →
    Becomes (.sramError x true island addr) s
      (rasReport s.mirror (itemSource x) sevCorrected island addr.toNat (itemSites s.mirror x) (itemEngine s.mirror x) (itemPort x))) ∧
  (∀ (s : State) u n island addr i d, Uncorrectable s (.acquisition u n) island addr i d →
    Becomes i s
      ((rasReport d 0x05 sevContained island addr.toNat (2 ^ s.dev.acqSite u) none none).modAcq u fun a => { a with buf := markLine n a.buf })) ∧
  (∀ (s : State) site n island addr i d, Uncorrectable s (.capture site n) island addr i d →
    Becomes i s
      ((rasReport d 0x05 sevContained island addr.toNat (2 ^ site.val) none none).modSite site fun y =>
        { y with cap := { y.cap with buf := markLine n y.cap.buf } })) ∧
  (∀ (s : State) p island addr i d, Uncorrectable s (.link p) island addr i d →
    Becomes i s (dropSession (rasReport d 0x06 sevContained island addr.toNat 0 none (some p.val)) p)) ∧
  (∀ (s : State) site island addr i d, Uncorrectable s (.quad site) island addr i d → s.dev.get .RAS_ENGCFG 7 0 = 0 →
    (s.dev.siteEngine site = none → s.dev.siteDispatched site = false →
      Becomes i s (rasReport d 0x04 sevContained island addr.toNat (2 ^ site.val) none none)) ∧
    (∀ e b, s.dev.siteEngine site = some e → s.dev.burst e = some b → b.fin = none →
      Yields i s fun t => CutWith t.dev e 0x26 ∧ t.dev.ras.contained = (s.dev.ras.contained + 1) % 2 ^ 64 ∧ t.dev.dram = s.dev.dram ∧
        t.clock = s.clock)) ∧
  (∀ (s : State) x src island addr i d, (x, src) ∈ [(SramItem.descriptors, 0x07), (.service, 0x08)] → Uncorrectable s x island addr i d →
    s.dev.ras.resetDue = false →
    (s.mirror.flag .RAS_CTL 31 = false → Becomes i s (rasReport d src sevFatal island addr.toNat 0 none none)) ∧
    (s.mirror.flag .RAS_CTL 31 = true → s.dev.trust.held = false →
      Yields i s fun t => t.dev.ready = false ∧ t.dev.get .GLB_STAT 23 20 = 2 ∧ t.dev.ras.fatal = (s.dev.ras.fatal + 1) % 2 ^ 64 ∧ t.dev.descs = [])) ∧
  (∀ (s : State) (e : Fin 16) (store : Fin 4) (a : Fin 8192) k island addr i d, Uncorrectable s (.control e store a k) island addr i d →
    s.dev.get .RAS_ENGCFG 7 0 = 0 → (i = .sramScrubRead (.control e store a k) 2 island addr ∨ routineNow s.mirror e = none) →
    Yields i s fun t =>
      (t.dev.engine e).repairs = (s.dev.engine e).repairs ++ [(store.val, a.val, k.val)] ∧
      (store = 0 → (t.dev.engine e).liningOnly.contains k.val = true) ∧ t.dev.burst e = s.dev.burst e ∧
      t.dev.flag (.ENG_CSERR e) 31 = true ∧ t.dev.get (.ENG_CSERR e) 29 28 = store ∧ t.dev.get (.ENG_CSERR e) 12 0 = a ∧
      t.dev.ras.contained = (s.dev.ras.contained + 1) % 2 ^ 64 ∧ t.clock = s.clock) ∧
  (∀ (s : State) (e : Fin 16) (store : Fin 4) (a : Fin 8192) k island addr r b, routineNow s.mirror e = some r → store ≠ 0 →
    s.dev.burst e = some b → b.fin = none → s.dev.get .RAS_ENGCFG 7 0 = 0 →
    Yields (.sramError (.control e store a k) false island addr) s fun t =>
      (t.dev.burst e).any (fun b => b.fin = some (.fault 0x21 0 false)) = true ∧ t.dev.get (.ENG_TRAP e) 23 16 = 4 ∧
      t.dev.flag (.ENG_CSERR e) 31 = true ∧ t.dev.get (.ENG_CSERR e) 12 0 = a ∧ t.dev.ras.contained = (s.dev.ras.contained + 1) % 2 ^ 64 ∧
      t.clock = s.clock) ∧
  (∀ (s : State) (e : Fin 16) (store : Fin 4) (a : Fin 8192) k island addr,
    Yields (.sramError (.control e store a k) true island addr) s fun t =>
      t.dev.flag (.ENG_CSERR e) 30 = true ∧ t.dev.get (.ENG_CSERR e) 29 28 = store ∧ t.dev.get (.ENG_CSERR e) 12 0 = a ∧
      t.dev.ras.corrected = (s.dev.ras.corrected + 1) % 2 ^ 64 ∧ t.dev.engines = s.dev.engines ∧ t.clock = s.clock) ∧
  (∀ (s : State) x (o : Fin 3) island addr, s.dev.ras.scrubbed.contains (x, addr.toNat) = false →
    (s.mirror.flag .RAS_SCRUB 31 = false → Becomes (.sramScrubRead x o island addr) s s.mirror) ∧
    (s.mirror.flag .RAS_SCRUB 31 = true → o = 0 → Becomes (.sramScrubRead x o island addr) s (scrubTurn s.mirror x addr.toNat)) ∧
    (s.mirror.flag .RAS_SCRUB 31 = true → o = 1 →
      Becomes (.sramScrubRead x o island addr) s (itemCorrected (scrubTurn s.mirror x addr.toNat) x island addr.toNat))))

/-- R483, R484, R489: WITHDRAW takes an engine out of service: it keeps no affinity, and shows the withdrawn state once it has no burst; a burst
dispatched to it ends ABORTED_FAULT with ENG_WITHDRAWN, as do the descriptors that require it, which are counted; REINSTATE
starts its march test, whose pass returns it to service, and whose failure sets FAIL; RAS_LOGSEL selects the record shown.
What goes beyond the spec's words here is the model's choice (log 144, 145, 149). -/
def Obligations.EngineService : Prop :=
  (∀ (s : State) (p : Fin 8) w e, Admits s p .RAS_ENGCMD (setBit w 31 true) → e = bits w 3 0 → s.mirror.flag .SCH_ENGEN (16 + e) = false →
    s.dev.burst e = none → committedTo s.dev e = none →
    Yields (.withdraw p w) s fun t =>
      t.dev.flag .SCH_ENGEN (16 + e) = true ∧ t.dev.engState e = 6 ∧ (t.dev.engine e).affinity = none ∧
      (∀ k x, t.dev.desc k = some x → x.dispatched = true ∨ x.aff ≠ 2 ∨ x.engine ≠ e) ∧
      (∀ q, (s.dev.schPort q).completed < 2 ^ 64 → (t.dev.schPort q).completed =
        ((s.dev.schPort q).completed + (s.dev.descs.filter fun x => x.2.aff = 2 && x.2.engine = e && !x.2.dispatched && x.2.port = q).length) % 2 ^ 64) ∧
      t.dev.dram = s.dev.dram ∧ t.clock = s.clock) ∧
  (∀ (s : State) (p : Fin 8) w e k x, Admits s p .RAS_ENGCMD (setBit w 31 true) → e = bits w 3 0 → s.mirror.flag .SCH_ENGEN (16 + e) = false →
    s.dev.burst e = none → committedTo s.dev e = none → s.dev.descs.filter (fun y => y.2.aff = 2 && y.2.engine = e && !y.2.dispatched) = [(k, x)] →
    Yields (.withdraw p w) s fun t =>
      t.dev.desc k = none ∧
      (t.dev.port x.port).area = (s.dev.port x.port).area ++ marked (completionWords x { status := 3, fcode := 0x25, engine := some e })) ∧
  (∀ (s : State) (p : Fin 8) w e b, Admits s p .RAS_ENGCMD (setBit w 31 true) → e = bits w 3 0 → s.mirror.flag .SCH_ENGEN (16 + e) = false →
    s.dev.burst e = some b → b.fin = none →
    Yields (.withdraw p w) s fun t =>
      t.dev.flag .SCH_ENGEN (16 + e) = true ∧ CutWith t.dev e 0x25 ∧ (t.dev.engine e).affinity = none ∧
      t.dev.ras.contained = (s.dev.ras.contained + 1) % 2 ^ 64 ∧ t.dev.dram = s.dev.dram ∧ t.clock = s.clock) ∧
  (∀ (s : State) (p : Fin 8) w e slot x, Admits s p .RAS_ENGCMD (setBit w 31 true) → e = bits w 3 0 → s.mirror.flag .SCH_ENGEN (16 + e) = false →
    committedTo s.dev e = some (slot, x) →
    (cycleOf x.commitAt ≠ cycleOf s.clock.now →
      Yields (.withdraw p w) s fun t => (t.dev.burst e).any (fun b => b.fin = some (.fault 0x25 0 false) && b.slot = slot) = true ∧ t.clock = s.clock) ∧
    (cycleOf x.commitAt = cycleOf s.clock.now → s.dev.desc slot = some x → x.aff ≠ 2 →
      Yields (.withdraw p w) s fun t => t.dev.desc slot = some { x with place := .ready } ∧ t.dev.burst e = none ∧ t.clock = s.clock)) ∧
  (∀ e b c a st, b.fin = some (.fault c a st) → (endingOf e b).status = 3 ∧ (endingOf e b).fcode = c ∧ (endingOf e b).engine = some e) ∧
  (∀ (s : State) (p : Fin 8) w e, Admits s p .RAS_ENGCMD (setBit (setBit w 31 false) 30 true) → e = bits w 3 0 →
    (s.mirror.flag .SCH_ENGEN (16 + e) = true → s.dev.ras.march = none →
      Yields (.reinstate p w) s fun t =>
        t.dev.ras.march = some e ∧ t.dev.flag .RAS_ENGSTAT 31 = true ∧ t.dev.get .RAS_ENGSTAT 3 0 = e ∧ t.dev.engines = s.dev.engines ∧
        t.dev.dram = s.dev.dram ∧ t.clock = s.clock) ∧
    (s.mirror.flag .SCH_ENGEN (16 + e) = false →
      Yields (.reinstate p w) s fun t => t.dev.flag .RAS_ENGSTAT 29 = true ∧ t.dev.ras = s.dev.ras ∧ t.clock = s.clock)) ∧
  (∀ (s : State) e, s.dev.ras.march = some e → s.dev.burst e = none →
    Becomes (.marchTestEnd true) s
      ((((s.mirror.clear .RAS_ENGSTAT 31).modRas fun x => { x with march := none }).clear .SCH_ENGEN (16 + e)).set (.ENG_STAT e) 31 28 0)) ∧
  (∀ (s : State) e, s.dev.ras.march = some e →
    Becomes (.marchTestEnd false) s (((s.mirror.clear .RAS_ENGSTAT 31).modRas fun x => { x with march := none }).raise .RAS_ENGSTAT 30)) ∧
  (∀ (s : State) (p : Fin 8) w, Admits s p .RAS_LOGSEL w → Becomes (.rasLogSelect p w) s (s.mirror.store .RAS_LOGSEL w))

/-- R451, R453, R450: what a reset leaves: READY 0, no descriptor, burst or site, memory in canonical form that reads 0, the cause, and the
one-time-programmable store as it was. A warm reset ends every descriptor with WARM_RESET, keeps the error records and the counters, and discards and
counts each port's words. VIN below its threshold for 2 µs, or a rail outside its window for 1 µs, is a power
fail, and shorter is none; a power-on reset starts the time base again.

R339, R452: the release point sets local time to 0 and the servo off, and the boot ROM reads its image; READY follows once the wipe has ended, the
firmware runs and the package it carries passes its checks: the package is loaded, and the boot time recorded.
What goes beyond the spec's words here is the model's choice (log 8, 14, 148, 150, 151, 152, 153, 156, 204). -/
def Obligations.ResetsAndRelease : Prop :=
  ((∀ (i : Instr) (s : State) (r : Fin 8) low kind cause, micro1 ≤ low →
    (i, kind, cause) ∈ [(Instr.resetNAssert low, 1, 3), (.powerFail none (low + micro1), 0, 1), (.powerFail (some r) low, 0, 2)] →
    s.dev.trust.held = false →
    Yields i s fun t =>
      t.dev.ready = false ∧ t.dev.get .GLB_STAT 23 20 = kind ∧ t.dev.get .GLB_RSTCAUSE 31 28 = cause ∧ t.dev.descs = [] ∧
      (∀ e, t.dev.burst e = none) ∧ (∀ k, (t.dev.site k).decl.en = false) ∧ t.dev.dram.mem = [] ∧ (∀ a, t.dev.dram.byte a = 0) ∧
      t.dev.trust.otp = s.dev.trust.otp ∧ t.dev.trust.held = true ∧
      t.clock.raw = (if kind = 0 then 0 else s.clock.raw)) ∧
  (∀ (s : State) low, low < 200 * nano1 → Becomes (.resetNAssert low) s s.mirror) ∧
  (∀ (s : State) low, low < 2 * micro1 → Becomes (.powerFail none low) s s.mirror) ∧
  (∀ (s : State) (r : Fin 8) low, low < micro1 → Becomes (.powerFail (some r) low) s s.mirror) ∧
  (∀ (s : State) (p : Fin 8) w, Admits s p .GLB_RST (setBit w 31 true) → s.dev.trust.held = false →
    Becomes (.cold p w) s ((wiped s.mirror 1 4).modRas fun _ => { portsDown := s.dev.ras.portsDown })) ∧
  (∀ (s : State) (p : Fin 8) w, Admits s p .GLB_RST (setBit (setBit w 31 false) 30 true) → s.dev.trust.held = false → s.dev.dram.held = [] →
    Yields (.warm p w) s fun t =>
      t.dev.ready = false ∧ t.dev.get .GLB_STAT 23 20 = 2 ∧ t.dev.get .GLB_RSTCAUSE 31 28 = 6 ∧ t.dev.descs = [] ∧ (∀ e, t.dev.burst e = none) ∧
      (∀ k, (t.dev.site k).decl.en = false) ∧ t.dev.dram.mem = [] ∧ t.dev.trust.otp = s.dev.trust.otp ∧ t.dev.ras.log = s.dev.ras.log ∧
      (∀ q, q < 8 → (t.dev.port q).session = ((s.dev.port q).session + 1) % 65536) ∧
      t.dev.trust.warmResets = (s.dev.trust.warmResets + 1) % 2 ^ 64 ∧ t.clock = s.clock ∧
      (t.dev.ras.pos, t.dev.ras.corrected, t.dev.ras.contained, t.dev.ras.fatal) =
        (s.dev.ras.pos, s.dev.ras.corrected, s.dev.ras.contained, s.dev.ras.fatal) ∧
      (t.dev.dram.ceCount, t.dev.dram.ueCount, t.dev.dram.wRefuse) = (s.dev.dram.ceCount, s.dev.dram.ueCount, s.dev.dram.wRefuse) ∧
      (∀ l, l < 28 → ((t.dev.lane l).retrains, (t.dev.lane l).dropBlk) = ((s.dev.lane l).retrains, (s.dev.lane l).dropBlk)) ∧
      (∀ q, q < 8 → ∃ x y, x = s.dev.port q ∧ y = t.dev.port q ∧
        (y.replays, y.naks, y.dupDrop, y.badPkt, y.strmDrop, y.cmdDisc, y.cmdBad) = (x.replays, x.naks, x.dupDrop, x.badPkt, x.strmDrop, x.cmdDisc, x.cmdBad) ∧
        y.sessDrop = (x.sessDrop + x.replay.length) % 2 ^ 64 ∧
        y.evDisc = (x.evDisc + x.chain.length + x.area.length + 7 * endedOf s.dev q) % 2 ^ 64 ∧
        (x.chain = [] → x.area = [] → x.evOut = none → x.evDiscard = false → y.evDiscCpl = (x.evDiscCpl + endedOf s.dev q) % 2 ^ 64) ∧
        y.chain = [] ∧ y.area = []) ∧
      (∀ q, q < 8 → ∃ x y, x = s.dev.schPort q ∧ y = t.dev.schPort q ∧ (y.accepted, y.invalid) = (x.accepted, x.invalid) ∧
        y.refused = (x.refused + x.held.isSome.toNat) % 2 ^ 64 ∧ (x.completed < 2 ^ 64 → y.completed = (x.completed + endedOf s.dev q) % 2 ^ 64) ∧
        y.held = none)) ∧
  (∀ (d : Dev) slot x, d.descs = [(slot, x)] → ((endAll d).port x.port).area =
    (d.port x.port).area ++ marked (completionWords x { status := 3, fcode := 0x24 })) ∧
  (∀ (s : State), ∃ t, exec .powerOnReset s = .next t ∧
      t.clock.raw = 0 ∧ t.clock.now = 0 ∧ t.dev.ready = false ∧ t.dev.get .GLB_STAT 23 20 = 0 ∧
      t.dev.get .GLB_RSTCAUSE 31 28 = (if s.dev.trust.failed then s.dev.get .GLB_RSTCAUSE 31 28 else 0) ∧
      t.dev.descs = [] ∧ (∀ a, t.dev.dram.byte a = 0) ∧ t.dev.trust.otp = s.dev.trust.otp ∧ t.dev.trust.failed = false ∧
      t.dev.get .GLB_PWRSTAT 7 0 = 0)) ∧
  ((∀ (s : State) flash, s.dev.trust.held = true → s.dev.trust.failed = false →
    Yields (.releasePoint none flash) s fun t =>
      t.clock.now = 0 ∧ 0 < t.clock.raw ∧ (s.clock.raw ≠ 0 → t.clock.raw = s.clock.raw) ∧ t.clock.cb = t.clock.raw ∧ t.clock.tb = 0 ∧ t.dev.trust.held = false ∧
      t.dev.servoState = 0 ∧ t.dev.timeValid = false ∧ t.dev.dram = s.dev.dram ∧
      (s.dev.trust.nextFw = none → t.dev.trust.image.map (fun x => (x.kind, x.data, x.checking, x.boot)) = some (1, flash, true, some true))) ∧
  (∀ (s : State) pkg passed, s.dev.trust.held = false → s.dev.trust.bootPkg = false → s.dev.trust.fwKey.isSome = true →
    Yields (.ready pkg passed) s fun t =>
      t.dev.trust.wiped = true ∧ t.dev.trust.bootPkg = true ∧ t.dev.dram = s.dev.dram ∧ t.clock = s.clock ∧
      (∀ e, e < 16 → t.dev.flag .SCH_ENGEN (16 + e) = (s.dev.flag .SCH_ENGEN (16 + e) && !bit passed e)) ∧
      (imageCheck s.mirror kPackage pkg ≠ 0 → t.dev.ready = s.dev.ready ∧ t.dev.flag .GLB_STAT 30 = true ∧ t.dev.trust.logPos = s.dev.trust.logPos) ∧
      (imageCheck s.mirror kPackage pkg = 0 →
        t.dev.ready = true ∧ t.dev.trust.bootTime = s.clock.now ∧ t.dev.trust.pkgSvn = imgSvn pkg ∧
        t.dev.rd .GLB_VERFW = BitVec.ofNat 32 s.dev.trust.fwVersion ∧ t.dev.ras.outage = false ∧
        t.dev.trust.logPos = (s.dev.trust.logPos + 1) % 2 ^ 64)) ∧
  (∀ (s : State) pkg passed, (s.dev.trust.held = true ∨ s.dev.trust.bootPkg = true) → Becomes (.ready pkg passed) s s.mirror) ∧
  (∀ (s : State) pkg passed, s.dev.trust.held = false → s.dev.trust.bootPkg = false → s.dev.trust.fwKey = none →
    Becomes (.ready pkg passed) s (s.mirror.modTrust fun t => { t with wiped := true })))

/-- R449, R450, R454: a sample of the supply stands in GLB_VIN and the rails' registers, each rail held to its window of Table 14.1, and adds to the energy;
a fall below 8.7 V is VIN_LOW and a warning; KICK restarts the watchdog, whose expiry is
a fatal report and a warm reset with its cause.

R456, R458: STANDBY is refused while anything runs, and otherwise parks the cuffs with their outputs at 0 and their PLLs stopped, and the DRAM enters
self-refresh; RESUME or a fall of WAKE_N that the filter passes takes it out again, and dispatch restarts once every PLL is locked.
What goes beyond the spec's words here is the model's choice (log 161, 162, 163, 164, 165, 203). -/
def Obligations.SupplyAndStandby : Prop :=
  ((∀ (s : State) (vin pin : BitVec 16) (rails cores : List (BitVec 16)), rails.length = 8 → cores.length = 41 →
    (∀ t, s.dev.polls.get none 2 = some t → t + 10 * micro1 ≤ s.clock.now) →
    Yields (.vinSample vin pin rails cores) s fun t =>
      t.dev.get .GLB_VIN 15 0 = vin.toNat ∧ t.dev.get .GLB_VIN 31 16 = pin.toNat ∧
      (∀ i x w, rails[i]? = some x → railWindows[i]? = some w → i ≠ 1 →
        t.dev.rd (.GLB_RAIL i) = x.setWidth 32 ∧ inSet (t.dev.get .GLB_PWRSTAT 7 0) i = railGood x.toNat w.1 w.2) ∧
      (∀ c ∈ cores, (t.dev.rd (.GLB_RAIL 1)).toNat ≤ c.toNat) ∧ (∃ c ∈ cores, (t.dev.rd (.GLB_RAIL 1)).toNat = c.toNat) ∧
      inSet (t.dev.get .GLB_PWRSTAT 7 0) 1 = coresGood s.mirror cores ∧
      t.dev.trust.energy = s.dev.trust.energy + pin.toNat ∧ t.dev.dram = s.dev.dram ∧ t.clock = s.clock ∧
      (8700 ≤ vin.toNat ∨ (0 < s.dev.get .GLB_VIN 15 0 ∧ s.dev.get .GLB_VIN 15 0 < 8700) → t.dev.ras = s.dev.ras ∧ t.dev.trust.vinLow = s.dev.trust.vinLow) ∧
      (vin.toNat < 8700 → (s.dev.get .GLB_VIN 15 0 = 0 ∨ 8700 ≤ s.dev.get .GLB_VIN 15 0) →
        t.dev.flag .GLB_PWRSTAT 29 = true ∧ t.dev.trust.vinLow = (s.dev.trust.vinLow + 1) % 2 ^ 64 ∧ t.dev.ras.pos = (s.dev.ras.pos + 1) % 2 ^ 64 ∧
        (t.dev.ras.log.getLast?.map fun r => (r.source, r.severity)) = some (0x0F, 3) ∧ t.dev.flag .RAS_STAT 28 = true)) ∧
  (∀ (s : State) w, Becomes (.kick none w) s
      ((s.mirror.store .GLB_WDOG (setBit w 30 true)).modTrust fun t => { t with kick := s.clock.now })) ∧
  (∀ (s : State) (p : Fin 8) w, Admits s p .GLB_WDOG (setBit w 30 true) → exec (.kick (some p) w) s = exec (.kick none w) s) ∧
  (∀ (s : State), s.dev.flag .GLB_WDOG 31 = true → s.dev.trust.kick + s.dev.wdogTimeout ≤ s.clock.now → s.dev.trust.held = false →
    Yields .watchdogExpiry s fun t =>
      t.dev.ready = false ∧ t.dev.get .GLB_STAT 23 20 = 2 ∧ t.dev.get .GLB_RSTCAUSE 31 28 = 7 ∧ t.dev.descs = [] ∧ t.dev.dram.mem = [] ∧
      t.dev.ras.fatal = (s.dev.ras.fatal + 1) % 2 ^ 64 ∧ t.clock = s.clock)) ∧
  ((∀ (s : State) (p : Fin 8) w, Admits s p .GLB_PWR (setBit w 31 true) → standbyRefused s.dev = true → bit w 30 = false →
    Becomes (.standby p w) s (s.mirror.raise .GLB_PWRSTAT 28)) ∧
  (∀ (s : State) (p : Fin 8) w, Admits s p .GLB_PWR (setBit w 31 true) → standbyRefused s.dev = false → bit w 30 = false → s.dev.dramState = 0 →
    Yields (.standby p w) s fun t =>
      t.dev.pwrState = 1 ∧ t.dev.dramState = 1 ∧ t.dev.sched.standby = true ∧
      (∀ c, c < 128 → (t.dev.chan c).en = false ∧ (t.dev.chan c).data = false) ∧ (∀ k, k < 8 → t.dev.flag (.CUF_PLL k) 31 = false) ∧
      t.clock = s.clock) ∧
  (∀ (s : State) high low, (high < 200 * nano1 ∨ low < 200 * nano1) → Becomes (.wakeNFall high low) s s.mirror) ∧
  (∀ (s : State) high low, 200 * nano1 ≤ high → 200 * nano1 ≤ low → s.dev.pwrState = 2 → s.dev.dramState = 2 →
    Yields (.wakeNFall high low) s fun t =>
      t.dev.pwrState = 3 ∧ t.dev.dramState = 3 ∧ t.dev.trust.resuming = true ∧ t.dev.sched.standby = s.dev.sched.standby ∧ t.clock = s.clock) ∧
  (∀ (s : State) (p : Fin 8) w, Admits s p .GLB_PWR (setBit (setBit w 31 false) 30 true) → s.dev.pwrState = 2 → s.dev.dramState = 2 →
    Yields (.resume p w) s fun t =>
      t.dev.pwrState = 3 ∧ t.dev.dramState = 3 ∧ t.dev.trust.resuming = true ∧ t.dev.sched.standby = s.dev.sched.standby ∧ t.clock = s.clock) ∧
  (∀ (s : State), s.dev.trust.resuming = true → s.dev.dramActive = true → (∀ k, k < 8 → s.dev.flag (.CUF_PLL k) 31 = true) →
    Becomes .resumeDispatchRestart s
      (((s.mirror.set .GLB_PWRSTAT 31 30 0).modSched fun x => { x with standby := false }).modTrust fun t => { t with resuming := false })))

/-- R468: START begins a load, data words are appended to it, FINISH starts its check and ABORT drops it; a START during a load, and data beyond what the
header announces, end it with code FORMAT; data words during a check do nothing, and while the boot ROM checks its own image none of them acts (log 75).

R466, R467: a host's image that fails ends with its code of Table 14.7; accepted firmware runs after a warm reset; an accepted package waits to be loaded with dispatch held; the boot ROM's
image runs when it passes, with its measurement in the log, and otherwise the boot ROM waits for one.
What goes beyond the spec's words here is the model's choice (log 71, 75, 157, 158, 159, 160). -/
def Obligations.Images : Prop :=
  ((∀ (s : State) (p : Fin 8) w, Admits s p .TRU_IMGCTL (setBit (setBit w 29 false) 31 true) → s.dev.trust.image = none → bit w 30 = false →
    Becomes (.imageStart p w) s
      (((s.mirror.store .TRU_IMGCTL (setBit (setBit w 29 false) 31 true)).modTrust fun t =>
        { t with image := some { kind := bits w 1 0, data := [] } }).raise .TRU_IMGSTAT 31)) ∧
  (∀ (s : State) (p : Fin 8) w x, Admits s p .TRU_IMGDATA w → s.dev.trust.image = some x → x.checking = false →
    (20 ≤ x.data.length + 4 → (x.data ++ toBytes 4 w.toNat).length ≤ imgBody (x.data ++ toBytes 4 w.toNat) + 256) →
    Becomes (.imageData p w) s (s.mirror.modTrust fun t => { t with image := some { x with data := x.data ++ toBytes 4 w.toNat } })) ∧
  (∀ (s : State) (p : Fin 8) w x, Admits s p .TRU_IMGDATA w → s.dev.trust.image = some x → x.checking = true →
    Becomes (.imageData p w) s s.mirror) ∧
  (∀ (s : State) (p : Fin 8) w x, Admits s p .TRU_IMGDATA w → s.dev.trust.image = some x → x.checking = false → 20 ≤ x.data.length + 4 →
    imgBody (x.data ++ toBytes 4 w.toNat) + 256 < x.data.length + 4 →
    Yields (.imageData p w) s fun t => LoadFails s t x.kind 1) ∧
  (∀ (s : State) (p : Fin 8) w x, Admits s p .TRU_IMGCTL (setBit (setBit w 29 false) 31 true) → s.dev.trust.image = some x → x.boot = none →
    bit w 30 = false → Yields (.imageStart p w) s fun t => LoadFails s t x.kind 1) ∧
  (∀ (s : State) (p : Fin 8) w x, Admits s p .TRU_IMGCTL (setBit (setBit w 29 false) 30 true) → s.dev.trust.image = some x → x.boot = none →
    bit w 31 = false →
    Becomes (.imageFinish p w) s
      ((s.mirror.store .TRU_IMGCTL (setBit (setBit w 29 false) 30 true)).modTrust fun t => { t with image := some { x with checking := true } })) ∧
  (∀ (s : State) (p : Fin 8) w x, Admits s p .TRU_IMGCTL (setBit w 29 true) → s.dev.trust.image = some x → x.boot = none →
    Becomes (.imageAbort p w) s
      (((s.mirror.store .TRU_IMGCTL (setBit w 29 true)).modTrust fun t => { t with image := none }).clear .TRU_IMGSTAT 31)) ∧
  (∀ (i : Instr) (s : State) (p : Fin 8) w v, i ∈ [Instr.imageStart p w, .imageFinish p w, .imageAbort p w] → bootLoads s.dev = true →
    exec i s = .next v → v.dev.trust = s.dev.trust)) ∧
  ((∀ (s : State) x, s.dev.trust.image = some x → x.checking = true → x.boot = none → imageCheck s.mirror x.kind x.data ≠ 0 →
    Yields .imageCheckEnd s fun t => LoadFails s t x.kind (imageCheck s.mirror x.kind x.data)) ∧
  (∀ (s : State) x, s.dev.trust.image = some x → x.checking = true → x.boot = none → x.kind = kFirmware → s.dev.trust.held = false →
    Yields .imageCheckEnd s fun t => t.dev.trust.image = none ∧ t.dev.trust.otp = s.dev.trust.otp ∧ t.clock = s.clock ∧
      (imageCheck s.mirror kFirmware x.data = 0 →
        t.dev.trust.nextFw = some x.data ∧ t.dev.ready = false ∧ t.dev.get .GLB_STAT 23 20 = 2 ∧ t.dev.get .GLB_RSTCAUSE 31 28 = 8 ∧
        t.dev.descs = [])) ∧
  (∀ (s : State) x, s.dev.trust.image = some x → x.checking = true → x.boot = none → x.kind = kPackage →
    Yields .imageCheckEnd s fun t => t.dev.trust.image = none ∧ t.dev.dram = s.dev.dram ∧ t.clock = s.clock ∧
      (imageCheck s.mirror kPackage x.data = 0 →
        t.dev.trust.package = some (packageOf x.data) ∧ t.dev.sched.ucodeHold = true ∧ t.dev.flag .TRU_IMGSTAT 30 = true ∧
        t.dev.get .TRU_IMGSTAT 3 0 = 0)) ∧
  (∀ (s : State) x flash, s.dev.trust.image = some x → x.checking = true → x.boot = some flash →
    Yields .imageCheckEnd s fun t => t.dev.trust.image = none ∧ t.dev.dram = s.dev.dram ∧ t.clock = s.clock ∧
      (imageCheck s.mirror kFirmware x.data = 0 →
        t.dev.trust.fwVersion = imgVersion x.data ∧ t.dev.trust.fwSvn = imgSvn x.data ∧ t.dev.trust.fwKey = some (imgKey x.data) ∧
        t.dev.trust.logPos = (s.dev.trust.logPos + 1) % 2 ^ 64)) ∧
  (∀ (s : State) x flash, s.dev.trust.image = some x → x.checking = true → x.boot = some flash → imageCheck s.mirror kFirmware x.data ≠ 0 →
    Becomes .imageCheckEnd s ((s.mirror.modTrust fun t => { t with image := none }).raise .TRU_STAT 29)))

/-- R469, R471: a write of TRU_SVN raises the minimums and revokes keys unless it would lower one or revoke the running firmware's key; a write of
TRU_LOGSEL shows the entry it names, or sets LOG_GONE where it is not held. -/
def Obligations.SecurityVersions : Prop :=
  (∀ (s : State) (p : Fin 8) w, Admits s p .TRU_SVN w → s.dev.trust.otp.fwMin ≤ bits w 13 0 → s.dev.trust.otp.pkgMin ≤ bits w 27 14 →
    (∀ k, s.dev.trust.fwKey = some k → inSet (bits w 31 28) k = false) →
    Becomes (.svnWrite p w) s (s.mirror.modTrust fun t => { t with otp := { t.otp with
      fwMin := bits w 13 0, pkgMin := bits w 27 14, revoked := t.otp.revoked ||| bits w 31 28 } })) ∧
  (∀ (s : State) (p : Fin 8) w, Admits s p .TRU_SVN w →
    (bits w 13 0 < s.dev.trust.otp.fwMin ∨ bits w 27 14 < s.dev.trust.otp.pkgMin ∨ ∃ k, s.dev.trust.fwKey = some k ∧ inSet (bits w 31 28) k = true) →
    Becomes (.svnWrite p w) s (s.mirror.raise .TRU_IMGSTAT 28)) ∧
  (∀ (s : State) (p : Fin 8) w back, Admits s p .TRU_LOGSEL w → s.dev.trust.logPos < 2 ^ 32 → w.toNat ≤ s.dev.trust.logPos →
    back = s.dev.trust.logPos - w.toNat →
    Yields (.logSelect p w) s fun t =>
      t.dev.rd .TRU_LOGSEL = w ∧ t.dev.trust = s.dev.trust ∧ t.dev.dram = s.dev.dram ∧ t.clock = s.clock ∧
      (back = 0 ∨ s.dev.trust.log.length < back → t.dev.flag .TRU_STAT 27 = true ∧ ∀ i, i < 16 → t.dev.rd (.TRU_LOGDATA i) = 0) ∧
      (∀ b, back ≠ 0 → back ≤ s.dev.trust.log.length → s.dev.trust.log[s.dev.trust.log.length - back]? = some b →
        t.dev.flag .TRU_STAT 27 = false ∧ ∀ i, i < 16 → t.dev.rd (.TRU_LOGDATA i) = BitVec.ofNat 32 (fieldAt b (4 * i) 4)))

/-- R461, R462, Table 14.5: a life-cycle transition that the table allows writes the state and ends in a cold reset with its cause; RETIRED destroys
the key; any other request is refused with ILLEGAL, and one without a free key slot with NOSLOT; one that a power fail cuts off leaves the old state.

R472: GO takes the port's nonce and queues a quote, or is flagged while one is pending; a signed quote fills TRU_QBODY with the body of Table 14.9 and its
signature and sets DONE; without a key it fails.
What goes beyond the spec's words here is the model's choice (log 9, 76). -/
def Obligations.LifeCycleAndQuotes : Prop :=
  ((∀ (s : State) (p : Fin 8) w, Admits s p .TRU_LCREQ (setBit w 31 true) → lcAllowed s.dev.trust.otp.lc (bits w 2 0) = true →
    bits w 2 0 ≠ lcProvisioned → s.dev.trust.held = false →
    Yields (.lifecycleTransition p w false) s fun t =>
      t.dev.trust.otp.lc = bits w 2 0 ∧ t.dev.get .GLB_STAT 19 16 = bits w 2 0 ∧ t.dev.get .GLB_RSTCAUSE 31 28 = 5 ∧ t.dev.ready = false ∧
      t.dev.trust.otp.key = (if bits w 2 0 = lcRetired then none else s.dev.trust.otp.key) ∧ t.dev.descs = [] ∧ t.dev.dram.mem = [] ∧
      t.clock = s.clock) ∧
  (∀ (s : State) (p : Fin 8) w, Admits s p .TRU_LCREQ (setBit w 31 true) → lcAllowed s.dev.trust.otp.lc (bits w 2 0) = true →
    bits w 2 0 = lcProvisioned → s.dev.trust.otp.abandoned < 2 → s.dev.trust.held = false →
    Yields (.lifecycleTransition p w false) s fun t =>
      t.dev.trust.otp.lc = lcProvisioned ∧ t.dev.trust.otp.key.isSome = true ∧ t.dev.get .GLB_RSTCAUSE 31 28 = 5 ∧ t.dev.ready = false ∧
      t.clock = s.clock) ∧
  (∀ (s : State) (p : Fin 8) w cut, Admits s p .TRU_LCREQ (setBit w 31 true) → lcAllowed s.dev.trust.otp.lc (bits w 2 0) = false →
    Becomes (.lifecycleTransition p w cut) s
      (((s.mirror.store .TRU_LCREQ (setBit w 31 true)).raise .TRU_LCSTAT 31).set .TRU_LCSTAT 1 0 1)) ∧
  (∀ (s : State) (p : Fin 8) w cut, Admits s p .TRU_LCREQ (setBit w 31 true) → lcAllowed s.dev.trust.otp.lc (bits w 2 0) = true →
    bits w 2 0 = lcProvisioned → 2 ≤ s.dev.trust.otp.abandoned →
    Becomes (.lifecycleTransition p w cut) s
      (((s.mirror.store .TRU_LCREQ (setBit w 31 true)).raise .TRU_LCSTAT 31).set .TRU_LCSTAT 1 0 2)) ∧
  (∀ (s : State) (p : Fin 8) w, Admits s p .TRU_LCREQ (setBit w 31 true) → lcAllowed s.dev.trust.otp.lc (bits w 2 0) = true →
    (bits w 2 0 = lcProvisioned → s.dev.trust.otp.abandoned < 2) →
    Yields (.lifecycleTransition p w true) s fun t =>
      t.dev.trust.failed = true ∧ t.clock = Clock.zero ∧ t.dev.trust.otp.lc = s.dev.trust.otp.lc ∧ t.dev.ready = false ∧
      (bits w 2 0 = lcProvisioned → t.dev.trust.otp = { s.dev.trust.otp with abandoned := s.dev.trust.otp.abandoned + 1 }) ∧
      (bits w 2 0 ≠ lcProvisioned → bits w 2 0 ≠ lcRetired → t.dev.trust.otp = s.dev.trust.otp) ∧
      (bits w 2 0 = lcRetired → t.dev.trust.otp = s.dev.trust.otp ∨ t.dev.trust.otp = { s.dev.trust.otp with key := none })) ∧
  (∀ a b, lcAllowed a b = true ↔ (a, b) ∈ [(0, 1), (0, 4), (1, 2), (1, 4), (2, 3), (2, 4), (3, 4)])) ∧
  ((∀ (s : State) (p : Fin 8) w, Admits s p (.TRU_QCTL p) (setBit w 31 true) →
    (s.mirror.flag (.TRU_QSTAT p) 31 = false →
      Becomes (.quoteGo p w) s
        ((s.mirror.modTrust fun t => { t with signing := t.signing ++ [.quote p (nonceOf s.mirror p)] }).raise (.TRU_QSTAT p) 31)) ∧
    (s.mirror.flag (.TRU_QSTAT p) 31 = true → Becomes (.quoteGo p w) s (s.mirror.raise (.TRU_QSTAT p) 29))) ∧
  (∀ (s : State) p nonce rest, s.dev.trust.signing = .quote p nonce :: rest → s.dev.trust.otp.key = none →
    Becomes .quoteSigned s
      (((s.mirror.modTrust fun t => { t with signing := rest }).clear (.TRU_QSTAT p) 31).raise (.TRU_QSTAT p) 28)) ∧
  (∀ (s : State) p nonce rest k, s.dev.trust.signing = .quote p nonce :: rest → p < 8 → s.dev.trust.otp.key = some k →
    Yields .quoteSigned s fun t =>
      t.dev.trust.signing = rest ∧ t.dev.flag (.TRU_QSTAT p) 30 = true ∧ t.dev.flag (.TRU_QSTAT p) 31 = false ∧
      t.dev.rd (.TRU_QBODY p 0) = 0x544F5551 ∧ t.dev.rd (.TRU_QBODY p 1) = 1 ∧
      t.dev.rd (.TRU_QBODY p 2) = pack 32 [(0, 8, s.dev.trust.otp.lc), (8, 1, s.dev.timeValid.toNat), (9, 1, (vendorDebug s.dev.trust.otp.lc).toNat), (16, 8, p)] ∧
      t.dev.rd (.TRU_QBODY p 3) = s.dev.rd .GLB_VERFW ∧
      t.dev.rd (.TRU_QBODY p 4) ++ t.dev.rd (.TRU_QBODY p 5) = BitVec.ofNat 32 Config.serial ++ BitVec.ofNat 32 (Config.serial / 2 ^ 32) ∧
      (∀ i, i < 12 → quoteByte t.dev p (24 + i) = (timeBytes s.clock.now).getD i 0) ∧ t.dev.rd (.TRU_QBODY p 9) = BitVec.ofNat 32 s.dev.ucode ∧
      (s.dev.trust.logPos < 2 ^ 64 →
        (t.dev.rd (.TRU_QBODY p 10)).toNat + 2 ^ 32 * (t.dev.rd (.TRU_QBODY p 11)).toNat = s.dev.trust.logPos) ∧
      (∀ i, i < 32 → quoteByte t.dev p (48 + i) = (digestBytes s.dev.trust.logDigest).getD i 0) ∧
      (nonce.length = 32 → (∀ i, i < 32 → quoteByte t.dev p (80 + i) = nonce.getD i 0) ∧ (∀ i, i < 16 → quoteByte t.dev p (112 + i) = 0) ∧
        ∀ g, g = ecdsaSign k (sha256 ((List.range 128).map (quoteByte t.dev p))) →
          ∀ i, i < 64 → quoteByte t.dev p (128 + i) = (digestBytes g.1 ++ digestBytes g.2).getD i 0) ∧
      t.dev.dram = s.dev.dram ∧ t.clock = s.clock))

/-- R503, R506, R507: a test-logic reset gives the balls back to the core, and a pulse of TRST_N below 20 ns does nothing; BYPASS selects the bypass
bit, IDCODE the identity word, SAMPLE_PRELOAD and the EXTEST instructions capture and load the cells, CLAMP and HIGHZ select the bypass bit; the
instructions with which the cells own the balls hold dispatch.

R425 to R427: a selection that names a value starts a latch, a second one is flagged BUSY, and one that names none BADSEL; the latch captures the
whole value with its width; the read of its last word clears VALID.
What goes beyond the spec's words here is the model's choice (log 30, 78, 181). -/
def Obligations.TestAccessAndMailboxes : Prop :=
  ((∀ (s : State) trst, (∀ n, trst = some n → 20 * nano1 ≤ n) → Yields (.tapReset trst) s fun t =>
    t.dev.jtag.instr = .idcode ∧ t.dev.sched.jtagHold = false ∧ t.dev.regs = s.dev.regs ∧ t.dev.dram = s.dev.dram ∧ t.clock = s.clock) ∧
  (∀ (s : State) n, n < 20 * nano1 → Becomes (.tapReset (some n)) s s.mirror) ∧
  (∀ (s : State) tdi, Yields (.bypass tdi) s fun t =>
    t.dev.jtag.instr = .bypass ∧ t.dev.jtag.out = 0 ∧ t.dev.jtag.bypassBit = tdi ∧ t.dev.sched.jtagHold = false ∧ t.dev.regs = s.dev.regs ∧
    t.clock = s.clock) ∧
  (∀ (s : State), Yields .idcode s fun t =>
    t.dev.jtag.instr = .idcode ∧ t.dev.jtag.out = 0x19128567 ∧ t.dev.sched.jtagHold = false ∧ t.dev.regs = s.dev.regs ∧ t.clock = s.clock) ∧
  (∀ (s : State) sample preload, Yields (.samplePreload sample preload) s fun t =>
    t.dev.jtag.instr = .samplePreload ∧ t.dev.jtag.out = ofBools sample ∧ t.dev.jtag.boundary = preload ∧ t.dev.sched.jtagHold = false ∧
    t.dev.regs = s.dev.regs ∧ t.clock = s.clock) ∧
  (∀ (i : Instr) k (s : State) sample shifted, (i, k) ∈ [(Instr.extest sample shifted, JtagInstr.extest), (.extestPulse sample shifted, .extestPulse),
      (.extestTrain sample shifted, .extestTrain)] →
    Yields i s fun t =>
      t.dev.jtag.instr = k ∧ t.dev.jtag.out = ofBools sample ∧ t.dev.jtag.boundary = shifted ∧ t.dev.sched.jtagHold = true ∧ t.dev.dispatchHeld = true ∧
      (∀ p, p < 8 → t.dev.portUp p = false) ∧ t.dev.dram = s.dev.dram ∧ t.clock = s.clock) ∧
  (∀ (i : Instr) k (s : State) tdi, (i, k) ∈ [(Instr.clamp tdi, JtagInstr.clamp), (.highz tdi, .highz)] →
    Yields i s fun t =>
      t.dev.jtag.instr = k ∧ t.dev.jtag.out = 0 ∧ t.dev.jtag.bypassBit = tdi ∧ t.dev.jtag.boundary = s.dev.jtag.boundary ∧
      t.dev.sched.jtagHold = true ∧ t.dev.dispatchHeld = true ∧ (∀ p, p < 8 → t.dev.portUp p = false) ∧ t.dev.dram = s.dev.dram ∧
      t.clock = s.clock)) ∧
  ((∀ (s : State) (p : Fin 8) w, Admits s p (.MBX_SEL p) w → bits w 7 0 = 0 →
    mbxValue s.mirror (bits w 31 24) (bits w 23 16) (bits w 15 8) ≠ none →
    ((s.dev.port p).mbx = none → s.mirror.flag (.MBX_STAT p) 31 = false →
      Becomes (.mailboxSelect p w) s
        (((s.mirror.store (.MBX_SEL p) w).clear (.MBX_STAT p) 31).modPort p fun x =>
          { x with mbx := some (bits w 31 24, bits w 23 16, bits w 15 8) })) ∧
    ((s.dev.port p).mbx.isSome = true → Becomes (.mailboxSelect p w) s (s.mirror.raise (.MBX_STAT p) 30))) ∧
  (∀ (s : State) (p : Fin 8) w, Admits s p (.MBX_SEL p) w →
    bits w 7 0 ≠ 0 ∨ mbxValue s.mirror (bits w 31 24) (bits w 23 16) (bits w 15 8) = none →
    Becomes (.mailboxSelect p w) s (s.mirror.raise (.MBX_STAT p) 29)) ∧
  (∀ (s : State) (p : Fin 8) t row inst v, (s.dev.port p).mbx = some (t, row, inst) → mbxValue s.mirror t row inst = some v →
    ¬ (t = 7 ∧ row = 12) →
    Becomes (.mailboxLatchComplete p) s
      (((s.mirror.modPort p fun x => { x with mbx := none, mbxData := wideWords v }).raise (.MBX_STAT p) 31).set (.MBX_STAT p) 2 0 v.1)) ∧
  (∀ (s : State) (p : Fin 8), s.dev.accepts p = true → s.mirror.get (.MBX_STAT p) 2 0 ≠ 0 →
    Becomes (.mailboxLastRead p) s (s.mirror.clear (.MBX_STAT p) 31)))

/-! ### Lanes and the link -/

/-- R375, R378, Table 11.5: a lane whose balls no boundary cell owns climbs from CDR to BLOCK with the filter's step, from BLOCK to MARKER, where the invalid headers met count, and out
of a stage at a loss; a loss in DESKEW or later is a retrain; elsewhere the commands change nothing.

R376 to R378, R383: a marker in a stage that follows markers leaves its port and lane numbers in LAN_STAT and the counted bit errors in LAN_ERR; the
second of two consecutive markers locks: a lane outside the bundles is up, one of a bundle goes on to DESKEW, and out of it once the bundle is
deskewed; in a port that is up, where its markers and those of every lane in use come within 64 blocks. Before MARKER and in FAILED it changes nothing but
that the device's own markers are sent.

R379, R388: a lane that hunts tries the next rate after 10 ms in CDR; a RATE block that names another offered rate of an up port is kept until its
marker; a port not up 20 ms after a rate step goes back to its previous rate and offers the failed one no more.
What goes beyond the spec's words here is the model's choice (log 41, 120, 121, 123, 201). -/
def Obligations.LaneStages : Prop :=
  ((∀ (s : State) (l : Fin 28) step, s.mirror.stage l = sgCdr → s.mirror.sched.jtagHold = false ∨ s.mirror.looped l = true →
    Becomes (.cdrLock l step) s
      ((((s.mirror.set (.LAN_EQ l) 20 16 (if s.mirror.flag (.LAN_EQ l) 31 then s.mirror.get (.LAN_EQ l) 4 0 else step)).setStage l sgBlock).raise
        (.LAN_STAT l) 27).modLane l fun x => { x with trackT := s.clock.now })) ∧
  (∀ (s : State) (l : Fin 28) step, s.mirror.stage l ≠ sgCdr ∨ (s.mirror.sched.jtagHold = true ∧ s.mirror.looped l = false) →
    Becomes (.cdrLock l step) s s.mirror) ∧
  (∀ (s : State) (l : Fin 28) hdr, s.mirror.stage l = sgBlock →
    Becomes (.blockLock l hdr) s ((((s.mirror.set (.LAN_ERR l) 15 0 (min 65535 (s.mirror.get (.LAN_ERR l) 15 0 + hdr.toNat))).setStage l sgMarker).raise
      (.LAN_STAT l) 26))) ∧
  (∀ (s : State) (l : Fin 28) hdr, s.mirror.stage l ≠ sgBlock → Becomes (.blockLock l hdr) s s.mirror) ∧
  (∀ (s : State) (l : Fin 28), Becomes (.idle l) s s.mirror) ∧
  (∀ (s : State) (l : Fin 28) hdr, Yields (.lockLoss l hdr) s fun t =>
    t.dev.get (.LAN_ERR l) 15 0 = min 65535 (s.mirror.get (.LAN_ERR l) 15 0 + hdr.toNat) ∧
    (s.mirror.stage l = sgOff ∨ s.mirror.stage l = sgCdr ∨ s.mirror.stage l = sgFailed → t.dev.stage l = s.mirror.stage l) ∧
    (s.mirror.stage l = sgBlock → t.dev.stage l = if s.mirror.laneFenced l then sgFailed else sgCdr) ∧
    (s.mirror.stage l = sgMarker → t.dev.stage l = sgBlock ∧ t.dev.get (.LAN_STAT l) 26 25 = 0 ∧ t.dev.flag (.LAN_STAT l) 24 = true) ∧
    (sgDeskew ≤ s.mirror.stage l → s.mirror.stage l ≤ sgUp →
      (t.dev.stage l = sgMarker ∨ t.dev.stage l = sgFailed) ∧ (s.mirror.get (.LAN_STAT l) 27 25 ≠ 0 → t.dev.flag (.LAN_STAT l) 24 = true) ∧
      (t.dev.lane l).retrains = ((s.dev.lane l).retrains + 1) % 2 ^ 64) ∧
    t.dev.dram = s.dev.dram ∧ t.clock = s.clock)) ∧
  ((∀ (s : State) (l : Fin 28) b apart bip hdr track d, d = sendMarks s.mirror l → d.stage l < sgMarker ∨ d.stage l = sgFailed →
    Becomes (.alignmentMarker l b apart bip hdr track) s d) ∧
  (∀ (s : State) (l : Fin 28) b apart bip hdr track d, d = sendMarks s.mirror l → sgMarker ≤ d.stage l → d.stage l ≤ sgUp →
    Yields (.alignmentMarker l b apart bip hdr track) s fun t =>
      t.dev.get (.LAN_STAT l) 15 8 = bits b 95 88 ∧ t.dev.get (.LAN_STAT l) 7 0 = bits b 87 80 ∧
      t.dev.get (.LAN_ERR l) 31 16 = min 65535 (d.get (.LAN_ERR l) 31 16 + card 16 (bip.toNat ^^^ bits b 79 64)) ∧
      t.dev.get (.LAN_ERR l) 15 0 = min 65535 (d.get (.LAN_ERR l) 15 0 + hdr.toNat) ∧ t.dev.dram = s.dev.dram ∧ t.clock = s.clock) ∧
  (∀ (s : State) (l : Fin 28) b (bip hdr : BitVec 16) track n d, d = sendMarks s.mirror l → d.stage l = sgMarker → (d.lane l).seq = some n →
    bits b 119 96 = (n + 1) % 2 ^ 24 → d.looped l = false →
    (16 ≤ l.val → card 16 (bip.toNat ^^^ bits b 79 64) ≤ d.get (.LAN_ERRCFG l) 7 0 →
      Yields (.alignmentMarker l b 16385 bip hdr track) s fun t => t.dev.stage l = sgUp ∧ t.dev.flag (.LAN_STAT l) 25 = true) ∧
    (l.val < 16 → (d.port (d.lanePort l)).rateNext = none → d.portUp (d.lanePort l) = false →
      ((∃ m ∈ d.bundle (d.lanePort l), m ≠ l.val ∧ (d.stage m = sgBlock ∨ d.stage m = sgMarker) ∧ d.looped m = false) →
        Yields (.alignmentMarker l b 16385 bip hdr track) s fun t => t.dev.stage l = sgDeskew ∧ t.dev.flag (.LAN_STAT l) 25 = true) ∧
      (d.bundle (d.lanePort l) = [l.val] →
        Yields (.alignmentMarker l b 16385 bip hdr track) s fun t => t.dev.stage l = sgNeg ∧ t.dev.flag (.LAN_STAT l) 25 = true)) ∧
    (l.val < 16 → (d.port (d.lanePort l)).rateNext = none → d.portUp (d.lanePort l) = true →
      card 16 (bip.toNat ^^^ bits b 79 64) ≤ d.get (.LAN_ERRCFG l) 7 0 →
      (Yields (.alignmentMarker l b 16385 bip hdr track) s fun t =>
        (t.dev.stage l = sgDeskew ∨ t.dev.stage l = sgUp) ∧ t.dev.flag (.LAN_STAT l) 25 = true) ∧
      ((∀ m ∈ d.bundle (d.lanePort l), d.marked m = true → d.stage m ≠ sgDeskew) → ∀ d' : Dev,
        d' = d.modLane l (fun x => { x with seq := some (bits b 119 96), seqT := s.clock.now, missed := 0 }) →
        Yields (.alignmentMarker l b 16385 bip hdr track) s fun t =>
          t.dev.stage l = if (∀ m ∈ d.bundle (d.lanePort l), d.marked m = true → d'.within l m = true) then sgUp else sgDeskew)))) ∧
  ((∀ (s : State) (l : Fin 24), s.dev.stage l = sgCdr → s.dev.flag (.LAN_CTL l) 20 = true →
    Yields (.rateHuntTimeout l) s fun t =>
      t.dev.laneRate l = (if s.dev.get (.LAN_CTL l) 25 24 ≤ s.dev.laneRate l then 0 else s.dev.laneRate l + 1) ∧
      (t.dev.stage l = sgCdr ∨ t.dev.stage l = sgFailed) ∧ (s.dev.lane l).cdrT + 10 * milli1 ≤ t.clock.now ∧ s.clock.now ≤ t.clock.now ∧
      t.dev.dram = s.dev.dram) ∧
  (∀ (s : State) (l : Fin 24), ¬ (s.dev.stage l = sgCdr ∧ s.dev.flag (.LAN_CTL l) 20 = true) → Becomes (.rateHuntTimeout l) s s.mirror) ∧
  (∀ (s : State) (p : Fin 8) b, s.mirror.portUp p = true → bits b 119 116 < 4 → bits b 119 116 ≠ s.mirror.get (.LNK_PSTAT p) 15 14 →
    offered s.mirror p (bits b 119 116) = true →
    Becomes (.rate p b) s (s.mirror.modPort p fun x => { x with rateNext := some (bits b 119 116, bits b 103 80) })) ∧
  (∀ (s : State) (p : Fin 8) b, s.mirror.portUp p = false → Becomes (.rate p b) s s.mirror) ∧
  (∀ (s : State) (p : Fin 8) prev due, (s.dev.port p).rateStep = some (prev, due) → prev < 4 →
    Yields (.rateStepTimeout p) s fun t =>
      (t.dev.port p).rateStep = none ∧ inSet (t.dev.port p).failedRates (s.dev.get (.LNK_PSTAT p) 15 14) = true ∧
      (∀ l, l ∈ t.dev.bundle p → t.dev.laneRate l = prev) ∧ due ≤ t.clock.now ∧ t.dev.dram = s.dev.dram) ∧
  (∀ (s : State) (p : Fin 8), (s.dev.port p).rateStep = none → Becomes (.rateStepTimeout p) s s.mirror))

/-- R381, R382: on an up port the partner's set is kept for the marker it names, and its request makes the device announce the lanes it transmits on
among those named, for the third marker on.

R378, R379, R386, R407: EN 0 takes a lane to OFF and EN 1 to CDR; a retrain, a new rate and a new loopback restart it from CDR, a retrain being
counted; a lane whose seam is fenced, or that retrains too often, ends in FAILED. The clock lane has only its register.

R380, R408: a write of the port map moves lanes; every port that loses or gains one is no longer up.
What goes beyond the spec's words here is the model's choice (log 122, 124, 201). -/
def Obligations.LaneSetsAndWrites : Prop :=
  ((∀ (s : State) (p : Fin 8) b, s.mirror.portUp p = true → bits b 119 104 ≠ 0 →
    Becomes (.lset p b) s (s.mirror.modPort p fun x => { x with rxNext := some (bits b 119 104, bits b 103 80) })) ∧
  (∀ (s : State) (p : Fin 8) b, s.mirror.portUp p = false ∨ bits b 119 104 = 0 → Becomes (.lset p b) s s.mirror) ∧
  (∀ (s : State) (p : Fin 8) b m d mark, s.mirror.portUp p = true →
    m = bits b 119 104 &&& s.mirror.positions p (fun l => s.mirror.flag (.LAN_CTL l) 31 && !s.mirror.looped l) →
    d = portMarks s.mirror p → mark = ((d.port p).marks.seq + 3) % 2 ^ 24 →
    (m ≠ 0 → m ≠ d.txTarget p →
      Becomes (.lreq p b) s ((sendCopies d p (card 16 (d.port p).txSet) (ctlBlock 0x17 (m * 2 ^ 104 + mark * 2 ^ 80))).modPort p fun x =>
        { x with txNext := some (m, mark) })) ∧
    (m = 0 ∨ m = d.txTarget p → Becomes (.lreq p b) s d)) ∧
  (∀ (s : State) (p : Fin 8) b, s.mirror.portUp p = false → Becomes (.lreq p b) s s.mirror)) ∧
  ((∀ (s : State) (p : Fin 8) (l : Fin 29) w, Admits s p (.LAN_CTL l) w → l.val = 28 →
    Becomes (.laneEnable p l w) s
      (s.mirror.store (.LAN_CTL l) (if bits w 30 28 = 3 then setBits w 30 28 (s.mirror.get (.LAN_CTL l) 30 28) else w))) ∧
  (∀ (s : State) (p : Fin 8) (l : Fin 29) w, Admits s p (.LAN_CTL l) w → l.val ≠ 28 →
    (bit w 31 = false → s.mirror.flag (.LAN_CTL l) 31 = true →
      Yields (.laneEnable p l w) s fun t =>
        t.dev.stage l = sgOff ∧ t.dev.get (.LAN_STAT l) 27 25 = 0 ∧ t.dev.flag (.LAN_CTL l) 31 = false ∧ t.dev.dram = s.dev.dram ∧
        t.clock = s.clock) ∧
    (bit w 31 = true → s.mirror.flag (.LAN_CTL l) 31 = false →
      Yields (.laneEnable p l w) s fun t =>
        t.dev.stage l = (if s.mirror.laneFenced l then sgFailed else sgCdr) ∧ t.dev.get (.LAN_STAT l) 27 25 = 0 ∧
        t.dev.flag (.LAN_CTL l) 31 = true ∧ t.dev.dram = s.dev.dram ∧ t.clock = s.clock)) ∧
  (∀ (s : State) (p : Fin 8) (l : Fin 29) w, Admits s p (.LAN_CTL l) (setBit w 21 true) → l.val ≠ 28 → bit w 31 = true →
    s.mirror.flag (.LAN_CTL l) 31 = true →
    Yields (.laneRetrain p l w) s fun t =>
      (t.dev.stage l = sgCdr ∨ t.dev.stage l = sgFailed) ∧ (t.dev.lane l).retrains = ((s.dev.lane l).retrains + 1) % 2 ^ 64 ∧
      t.dev.get (.LAN_STAT l) 27 25 = 0 ∧ t.dev.dram = s.dev.dram ∧ t.clock = s.clock) ∧
  (∀ (s : State) (p : Fin 8) (l : Fin 29) (rate : Fin 4), Admits s p (.LAN_CTL l) (setBits (s.mirror.rd (.LAN_CTL l)) 27 26 rate) →
    l.val < 24 → s.mirror.flag (.LAN_CTL l) 31 = true → s.mirror.laneRate l ≠ rate.val →
    Yields (.laneRateWrite p l rate) s fun t =>
      t.dev.laneRate l = rate.val ∧ (t.dev.stage l = sgCdr ∨ t.dev.stage l = sgFailed) ∧ t.dev.dram = s.dev.dram ∧ t.clock = s.clock) ∧
  (∀ (s : State) (p : Fin 8) (l : Fin 29) (mode : Fin 8), Admits s p (.LAN_CTL l) (setBits (s.mirror.rd (.LAN_CTL l)) 30 28 mode) →
    l.val ≠ 28 → s.mirror.flag (.LAN_CTL l) 31 = true → s.mirror.get (.LAN_CTL l) 30 28 ≠ mode.val →
    Yields (.loopbackSet p l mode) s fun t =>
      t.dev.get (.LAN_CTL l) 30 28 = mode.val ∧ (t.dev.stage l = sgCdr ∨ t.dev.stage l = sgFailed) ∧ t.dev.dram = s.dev.dram ∧
      t.clock = s.clock)) ∧
  (∀ (s : State) (p : Fin 8) (i : Fin 2) w, Admits s p (.LNK_PMAP i) w →
    Yields (.portMapWrite p i w) s fun t =>
      (∀ l, l < 16 → t.dev.lanePort l = (s.mirror.store (.LNK_PMAP i) w).lanePort l) ∧
      (∀ l, l < 16 → s.mirror.lanePort l ≠ t.dev.lanePort l →
        t.dev.portUp (s.mirror.lanePort l) = false ∧ t.dev.portUp (t.dev.lanePort l) = false) ∧
      t.dev.dram = s.dev.dram ∧ t.clock = s.clock)

/-- R387, R389: on a bundle that has deskewed, a NEG block with no version in common sets the flag of LNK_PSTAT; one that acknowledges the device's
own brings the port up at the highest common version, and a new session of the partner begins a fresh one. The device's own NEG offers every version
and names its session and the number it expects.

R393: an ACK releases the packets before the one it names; a NAK, and 50 µs without an acknowledgement, deal the packets to the lanes again; the device acknowledges with the
number it expects 1 µs after it last did, and answers the first bad packet with one NAK.
What goes beyond the spec's words here is the model's choice (log 127, 128, 129, 131, 203). -/
def Obligations.NegotiationAndReplay : Prop :=
  ((∀ (s : State) (p : Fin 8) b, s.mirror.portUp p = true ∨ (bits b 119 112 ≠ 1 ∧ bits b 119 112 ≠ 2) ∨
    (∀ l ∈ s.mirror.bundle p, s.mirror.stage l ≠ sgNeg) → Becomes (.neg p b) s s.mirror) ∧
  (∀ (s : State) (p : Fin 8) b, s.mirror.portUp p = false → bits b 119 112 = 1 ∨ bits b 119 112 = 2 →
    (∃ l ∈ s.mirror.bundle p, s.mirror.stage l = sgNeg) → commonVersion (negBits b) = 0 →
    Becomes (.neg p b) s ((s.mirror.modPort p fun x => { x with negRx := true }).raise (.LNK_PSTAT p) 23)) ∧
  (∀ (s : State) (p : Fin 8) b, s.mirror.portUp p = false → bits b 119 112 = 2 →
    (∃ l ∈ s.mirror.bundle p, s.mirror.stage l = sgNeg) → commonVersion b ≠ 0 → bit b 106 = false →
    Becomes (.neg p b) s (s.mirror.modPort p fun x => { x with negRx := true })) ∧
  (∀ (s : State) (p : Fin 8) b, s.mirror.portUp p = false → bits b 119 112 = 2 →
    (∃ l ∈ s.mirror.bundle p, s.mirror.stage l = sgNeg) → commonVersion b ≠ 0 → bit b 106 = true →
    Yields (.neg p b) s fun t =>
      t.dev.portUp p = true ∧ t.dev.version p = commonVersion b ∧ (t.dev.port p).peerSession = some (bits b 95 80) ∧
      (¬ (bit b 105 = true ∧ (s.dev.port p).peerSession = some (bits b 95 80)) →
        (t.dev.port p).rxSeq = 0 ∧ (t.dev.port p).sessDrop = ((s.dev.port p).sessDrop + (s.dev.port p).replay.length) % 2 ^ 64 ∧
        t.dev.flag (.LNK_PSTAT p) 24 = true) ∧
      (bit b 105 = true ∧ (s.dev.port p).peerSession = some (bits b 95 80) → (t.dev.port p).rxSeq = (s.dev.port p).rxSeq) ∧
      t.dev.dram = s.dev.dram ∧ t.clock = s.clock) ∧
  (∀ (s : State) (p : Fin 8) l ls due, s.mirror.negLanes p = l :: ls → due = (s.dev.port p).negT + 256 * s.mirror.blockTime l →
    Yields (.negSend p) s fun t =>
      ∃ b, (t.dev.port p).ctlOut = List.replicate (ls.length + 1) b ++ (s.dev.port p).ctlOut ∧ bits b 127 120 = 0x16 ∧ bits b 119 112 = 2 ∧
        bits b 111 109 = 7 ∧ bit b 106 = (s.dev.port p).negRx ∧ bit b 105 = (s.dev.port p).peerSession.isSome ∧
        (∀ r, r < 4 → bit b (101 + r) = !inSet (s.dev.port p).failedRates r) ∧ bits b 95 80 = (s.dev.port p).session % 65536 ∧
        bits b 79 68 = (s.dev.port p).rxSeq % 4096 ∧ (t.dev.port p).negT = t.clock.now ∧ due ≤ t.clock.now ∧ s.clock.now ≤ t.clock.now ∧
        t.dev.regs = s.dev.regs ∧ t.dev.dram = s.dev.dram) ∧
  (∀ (s : State) (p : Fin 8), s.mirror.negLanes p = [] → Becomes (.negSend p) s s.mirror)) ∧
  ((∀ (s : State) (p : Fin 8) b pre k rest, s.mirror.portUp p = true →
    (s.dev.port p).replay = pre ++ (bits b 119 108, k) :: rest → pre ≠ [] → (∀ r ∈ pre, r.1 ≠ bits b 119 108) →
    bits b 119 108 ≠ (s.dev.port p).txSeq →
    Becomes (.ack p b) s (pump (s.mirror.modPort p fun x => { x with replay := (bits b 119 108, k) :: rest, ackT := s.clock.now }) p)) ∧
  (∀ (s : State) (p : Fin 8) b, s.mirror.portUp p = true → (s.dev.port p).replay ≠ [] → bits b 119 108 = (s.dev.port p).txSeq →
    Becomes (.ack p b) s (pump (s.mirror.modPort p fun x => { x with replay := [], ackT := s.clock.now }) p)) ∧
  (∀ (s : State) (p : Fin 8) b, s.mirror.portUp p = false →
    Becomes (.ack p b) s s.mirror ∧ Becomes (.nak p b) s s.mirror ∧ Becomes (.ackTimer p) s s.mirror ∧ Becomes (.badCrc p) s s.mirror) ∧
  (∀ (s : State) (p : Fin 8) b pre k rest, s.mirror.portUp p = true →
    (s.dev.port p).replay = pre ++ (bits b 119 108, k) :: rest → (∀ r ∈ pre, r.1 ≠ bits b 119 108) → bits b 119 108 ≠ (s.dev.port p).txSeq →
    Becomes (.nak p b) s (dealPackets (s.mirror.modPort p fun x => { x with replays := (x.replays + (rest.length + 1)) % 2 ^ 64 }) p
      ((bits b 119 108, k) :: rest))) ∧
  (∀ (s : State) (p : Fin 8), s.mirror.portUp p = true →
    Yields (.ackTimer p) s fun t =>
      (∃ b, t.dev.port p = { s.dev.port p with ctlOut := b :: (s.dev.port p).ctlOut, sinceAck := 0, ackSentT := t.clock.now } ∧
        bits b 127 120 = 0x11 ∧ bits b 119 108 = (s.dev.port p).rxSeq % 4096) ∧
      (s.dev.port p).ackSentT + micro1 ≤ t.clock.now ∧ s.clock.now ≤ t.clock.now ∧ (∀ q, q ≠ p.val → t.dev.port q = s.dev.port q) ∧
      t.dev.regs = s.dev.regs ∧ t.dev.dram = s.dev.dram) ∧
  (∀ (s : State) (p : Fin 8), s.mirror.portUp p = true → (s.dev.port p).nakOut = false →
    Yields (.badCrc p) s fun t =>
      (t.dev.port p).nakOut = true ∧ (t.dev.port p).naks = ((s.dev.port p).naks + 1) % 2 ^ 64 ∧
      (∃ b, (t.dev.port p).ctlOut = b :: (s.dev.port p).ctlOut ∧ bits b 127 120 = 0x12 ∧ bits b 119 108 = (s.dev.port p).rxSeq % 4096) ∧
      (t.dev.port p).rxSeq = (s.dev.port p).rxSeq ∧ t.clock = s.clock) ∧
  (∀ (s : State) (p : Fin 8), (s.dev.port p).nakOut = true → Becomes (.badCrc p) s s.mirror) ∧
  (∀ (s : State) (p : Fin 8), s.dev.portUp p = true → (s.dev.port p).replay ≠ [] →
    Yields (.replayTimeout p) s fun t =>
      (t.dev.port p).replays = ((s.dev.port p).replays + (s.dev.port p).replay.length) % 2 ^ 64 ∧ (t.dev.port p).replay = (s.dev.port p).replay ∧
      (s.dev.port p).ackT + 50 * micro1 ≤ t.clock.now ∧ s.clock.now ≤ t.clock.now ∧ t.dev.dram = s.dev.dram) ∧
  (∀ (s : State) (p : Fin 8), s.dev.portUp p = false ∨ (s.dev.port p).replay = [] → Becomes (.replayTimeout p) s s.mirror))

/-- R394, R396: on versions 2 and 3 the host's totals grant the difference from the last ones; on version 1 it stops and resumes classes. The device
repeats its own totals, with that of every site of the port, or the state of each class, 256 blocks after it last did.

R406: a due MSI leaves with the port's address and data once the holdoff is over; one that fell due within the holdoff leaves only if the OR is still 1; a write of
LNK_IRQSTAT clears the named causes and, where the OR stays 1, makes another MSI due.
What goes beyond the spec's words here is the model's choice (log 130, 203). -/
def Obligations.CreditsAndInterrupts : Prop :=
  ((∀ (s : State) (p : Fin 8) b, s.mirror.portUp p = true → s.mirror.version p ≠ 1 →
    (bits b 119 116 = 3 → Becomes (.credit p b) s (pump (s.mirror.modPort p fun x =>
      { x with cplH := x.cplH + (bits b 111 96 + 2 ^ 16 - x.totCplH) % 2 ^ 16, cplD := x.cplD + (bits b 95 64 + 2 ^ 32 - x.totCplD) % 2 ^ 32,
               totCplH := bits b 111 96, totCplD := bits b 95 64 }) p)) ∧
    (bits b 119 116 = 4 → Becomes (.credit p b) s (pump (s.mirror.modPort p fun x =>
      { x with post := x.post + (bits b 111 96 + 2 ^ 16 - x.totPost) % 2 ^ 16, totPost := bits b 111 96 }) p))) ∧
  (∀ (s : State) (p : Fin 8) b, s.mirror.portUp p = false ∨ s.mirror.version p = 1 → Becomes (.credit p b) s s.mirror) ∧
  (∀ (s : State) (p : Fin 8) b, s.mirror.portUp p = true → s.mirror.version p = 1 →
    Becomes (.xoff p b) s (s.mirror.modPort p fun x => { x with xoffRx := x.xoffRx ||| 2 ^ bits b 119 116 }) ∧
    (inSet (s.dev.port p).xoffRx (bits b 119 116) = true →
      Becomes (.xon p b) s (pump (s.mirror.modPort p fun x => { x with xoffRx := x.xoffRx - 2 ^ bits b 119 116 }) p)) ∧
    (inSet (s.dev.port p).xoffRx (bits b 119 116) = false → Becomes (.xon p b) s (pump (s.mirror.modPort p fun x => x) p))) ∧
  (∀ (s : State) (p : Fin 8) b, s.mirror.portUp p = false ∨ s.mirror.version p ≠ 1 →
    Becomes (.xoff p b) s s.mirror ∧ Becomes (.xon p b) s s.mirror) ∧
  (∀ (s : State) (p : Fin 8), s.mirror.portUp p = true → s.mirror.version p ≠ 1 →
    Yields (.creditRepeat p) s fun t =>
      (t.dev.port p).ctlOut = (((List.range 16).filter fun i => t.dev.siteOwner i = p.val || (t.dev.port p).strmBack.get 0 i ≠ 0).map fun i =>
          creditBlock 2 i 0 (t.dev.streamCredit p i)).reverse ++
        [creditBlock 1 0 (s.dev.port p).retPost 0, creditBlock 0 0 (s.dev.port p).retReqH (s.dev.port p).retReqD] ++ (s.dev.port p).ctlOut ∧
      (t.dev.port p).creditT = t.clock.now ∧ (∀ due, s.dev.after256 p (s.dev.port p).creditT = some due → due ≤ t.clock.now) ∧
      s.clock.now ≤ t.clock.now ∧ t.dev.regs = s.dev.regs ∧ t.dev.dram = s.dev.dram) ∧
  (∀ (s : State) (p : Fin 8), s.mirror.portUp p = true → s.mirror.version p = 1 →
    Yields (.creditRepeat p) s fun t =>
      (t.dev.port p).ctlOut = flowBlock false 2 (65535 - (s.dev.port p).xoffSites % 65536) :: flowBlock true 2 (s.dev.port p).xoffSites ::
        flowBlock (inSet (s.dev.port p).xoffTx 1) 1 0 :: flowBlock (inSet (s.dev.port p).xoffTx 0) 0 0 :: (s.dev.port p).ctlOut ∧
      (t.dev.port p).creditT = t.clock.now ∧ (∀ due, s.dev.after256 p (s.dev.port p).creditT = some due → due ≤ t.clock.now) ∧
      s.clock.now ≤ t.clock.now ∧ t.dev.regs = s.dev.regs ∧ t.dev.dram = s.dev.dram) ∧
  (∀ (s : State) (p : Fin 8), s.mirror.portUp p = false → Becomes (.creditRepeat p) s s.mirror)) ∧
  ((∀ (s : State) (p : Fin 8), (s.dev.port p).msiDue = true → (∀ t, s.mirror.holdoffEnd p = some t → t ≤ s.clock.now) →
    (s.dev.port p).msiLate = false ∨ irqOr s.mirror p = true →
    ∃ k : Packet, Becomes (.msi p) s (sendPacket (s.mirror.modPort p fun x => { x with msiDue := false, msiT := some s.clock.now }) p k) ∧
      k.type = 0x21 ∧ k.data = s.mirror.rd (.LNK_MSIDATA p) ∧ bits k.addr 63 32 = (s.mirror.rd (.LNK_MSIADDRHI p)).toNat ∧
      bits k.addr 31 2 = s.mirror.get (.LNK_MSIADDRLO p) 31 2 ∧ bits k.addr 1 0 = 0 ∧ k.blocks = []) ∧
  (∀ (s : State) (p : Fin 8), (s.dev.port p).msiDue = true → (∀ t, s.mirror.holdoffEnd p = some t → t ≤ s.clock.now) →
    (s.dev.port p).msiLate = true → irqOr s.mirror p = false →
    Becomes (.msi p) s (s.mirror.modPort p fun x => { x with msiDue := false })) ∧
  (∀ (s : State) (p : Fin 8), (s.dev.port p).msiDue = false ∨ (∃ t, s.mirror.holdoffEnd p = some t ∧ s.clock.now < t) →
    Becomes (.msi p) s s.mirror) ∧
  (∀ (s : State) (p : Fin 8), (s.dev.port p).msiDue = true →
    Yields (.msiHoldoffEnd p) s fun t =>
      (t.dev.port p).msiDue = false ∧ (∀ u, s.dev.holdoffEnd p = some u → u ≤ t.clock.now) ∧ s.clock.now ≤ t.clock.now ∧
      (irqOr s.dev p = true ∨ (s.dev.port p).msiLate = false → (t.dev.port p).msiT = some t.clock.now) ∧
      (irqOr s.dev p = false → (s.dev.port p).msiLate = true → (t.dev.port p).msiT = (s.dev.port p).msiT) ∧
      t.dev.dram = s.dev.dram) ∧
  (∀ (s : State) (p : Fin 8), (s.dev.port p).msiDue = false → Becomes (.msiHoldoffEnd p) s s.mirror) ∧
  (∀ (s : State) (p : Fin 8) w, Admits s p (.LNK_IRQSTAT p) w →
    Yields (.irqstatWrite p w) s fun t =>
      (∀ i, 1 ≤ i → i ≤ 3 → t.dev.flag (.LNK_IRQSTAT p) i = (s.mirror.flag (.LNK_IRQSTAT p) i && !bit w i)) ∧
      (irqOr t.dev p = true → (t.dev.port p).msiDue = true) ∧ t.dev.dram = s.dev.dram ∧ t.clock = s.clock))

/-- R399, R400, R404: a word leaves the record area for the chain where a stage is free, or is discarded with a flushed packet; the owner's read takes
the head word into the held word, and an empty chain sets the underrun bits; a flush empties the chain and counts its words.

R403, R404: a pushed word waits in the chain, and the service cores take what they can; a push into a full chain sets CMDWAIT and waits for a stage; after a flush the
words of the packet in progress are discarded and counted; a flush drops what has not been acted on.

R410: the service cores answer the next packet with its kind and number, BUSY during an image load, BAD_ARG where the words do not match, OK with the
results otherwise; they go on with the queue, and the doorbell has been serviced once nothing waits; a waiting response is posted once there is room.
What goes beyond the spec's words here is the model's choice (log 44, 134, 135, 136, 137). -/
def Obligations.PortQueues : Prop :=
  ((∀ (s : State) (p : Fin 8) (w : QWord) ws, (s.dev.port p).area = w :: ws → (s.dev.port p).evDiscard = false →
    (s.dev.port p).evFlushAt ≠ some s.mirror.raw → (s.dev.port p).chain.length < 32 →
    Becomes (.eventWordEnter p) s (drainPort (irqUpdate (s.mirror.modPort p fun x =>
      { x with area := ws, chain := x.chain ++ [w], evIn := if w.mark then none else some (x.evIn.getD (bits w.data 47 40)) }) p) p)) ∧
  (∀ (s : State) (p : Fin 8) (w : QWord) ws, (s.dev.port p).area = w :: ws → (s.dev.port p).evDiscard = true →
    Becomes (.eventWordEnter p) s (drainPort (irqUpdate (s.mirror.modPort p fun x =>
      { x with area := ws, evDisc := (x.evDisc + 1) % 2 ^ 64, evDiscard := !w.mark }) p) p)) ∧
  (∀ (s : State) (p : Fin 8) (w : QWord) ws, (s.dev.port p).area = w :: ws → (s.dev.port p).evDiscard = false →
    (s.dev.port p).evFlushAt = some s.mirror.raw →
    Becomes (.eventWordEnter p) s (drainPort (irqUpdate (s.mirror.modPort p fun x =>
      { x with area := ws, evDisc := (x.evDisc + 1) % 2 ^ 64, evDiscard := !w.mark
               evDiscCpl := (x.evDiscCpl + if bits w.data 47 40 = 2 then 1 else 0) % 2 ^ 64 }) p) p)) ∧
  (∀ (s : State) (p : Fin 8), (s.dev.port p).area = [] ∨
      ((s.dev.port p).evDiscard = false ∧ (s.dev.port p).evFlushAt ≠ some s.mirror.raw ∧ 32 ≤ (s.dev.port p).chain.length) →
    Becomes (.eventWordEnter p) s (drainPort (irqUpdate (s.mirror.modPort p fun x => x) p) p)) ∧
  (∀ (s : State) (p : Fin 8) (w : QWord) ws, s.dev.accepts p = true → (s.dev.port p).chain = w :: ws →
    Yields (.eventQueueRead p) s fun t =>
      (t.dev.port p).chain = ws ∧ (t.dev.port p).held = w ∧ (t.dev.port p).area = (s.dev.port p).area ∧ t.dev.regs = s.mirror.regs ∧
      t.dev.dram = s.dev.dram ∧ t.clock = s.clock) ∧
  (∀ (s : State) (p : Fin 8), s.dev.accepts p = true → (s.dev.port p).chain = [] →
    Yields (.eventQueueRead p) s fun t =>
      t.dev.flag (.LNK_QSTAT p) 31 = true ∧ t.dev.flag (.LNK_IRQSTAT p) 3 = true ∧ (t.dev.port p).held = (s.dev.port p).held ∧
      (t.dev.port p).chain = [] ∧ t.dev.dram = s.dev.dram ∧ t.clock = s.clock) ∧
  (∀ (s : State) (p : Fin 8) w, Admits s p (.LNK_QCTL p) (setBit w 31 true) →
    Yields (.evflush p w) s fun t =>
      (t.dev.port p).chain = [] ∧ (t.dev.port p).evDisc = ((s.dev.port p).evDisc + (s.dev.port p).chain.length) % 2 ^ 64 ∧
      (t.dev.port p).held = (s.dev.port p).held ∧ (t.dev.port p).area = (s.dev.port p).area ∧ t.dev.dram = s.dev.dram ∧ t.clock = s.clock)) ∧
  ((∀ (s : State) (p : Fin 8) w, Admits s p (.LNK_CMDQHI p) w → (s.dev.port p).cmd.length < 32 → (s.dev.port p).cmdSkip = false →
    (s.dev.port p).cmdFlushAt ≠ some s.mirror.raw →
    Becomes (.commandPush p w) s (serveQueue ((s.mirror.store (.LNK_CMDQHI p) w).modPort p fun x =>
      { x with cmd := x.cmd ++ [⟨w ++ s.mirror.rd (.LNK_CMDQLO p), false⟩] }) p)) ∧
  (∀ (s : State) (p : Fin 8) w, Admits s p (.LNK_CMDQHIE p) w → (s.dev.port p).cmd.length < 32 → (s.dev.port p).cmdSkip = false →
    (s.dev.port p).cmdFlushAt ≠ some s.mirror.raw →
    Becomes (.commandPushEnd p w) s (serveQueue ((s.mirror.store (.LNK_CMDQHIE p) w).modPort p fun x =>
      { x with cmd := x.cmd ++ [⟨w ++ s.mirror.rd (.LNK_CMDQLO p), true⟩] }) p)) ∧
  (∀ (s : State) (p : Fin 8) w, 32 ≤ (s.dev.port p).cmd.length → (s.dev.port p).cmdSkip = false →
    (Admits s p (.LNK_CMDQHI p) w → Becomes (.commandPush p w) s ((s.mirror.raise (.LNK_QSTAT p) 29).modPort p fun x =>
      { x with waitWrite := some ((Reg.LNK_CMDQHI p).addr, w) })) ∧
    (Admits s p (.LNK_CMDQHIE p) w → Becomes (.commandPushEnd p w) s ((s.mirror.raise (.LNK_QSTAT p) 29).modPort p fun x =>
      { x with waitWrite := some ((Reg.LNK_CMDQHIE p).addr, w) }))) ∧
  (∀ (d : Dev) (p : Fin 8) w, (d.port p).cmd.length < 32 → (d.port p).cmdSkip = false → (d.port p).cmdFlushAt ≠ some d.raw →
    (d.port p).waitWrite = some ((Reg.LNK_CMDQHIE p).addr, w) →
    heldWriteActs d p = serveQueue (((d.modPort p fun x => { x with waitWrite := none }).store (.LNK_CMDQHIE p) w).modPort p fun x =>
      { x with cmd := x.cmd ++ [⟨w ++ d.rd (.LNK_CMDQLO p), true⟩] }) p) ∧
  (∀ (s : State) (p : Fin 8) w, (s.dev.port p).cmd.length < 32 → (s.dev.port p).cmdFlushAt = some s.mirror.raw → Admits s p (.LNK_CMDQHI p) w →
    Yields (.commandPush p w) s fun t =>
      (t.dev.port p).cmd = (s.dev.port p).cmd ∧ (t.dev.port p).cmdSkip = true ∧ (t.dev.port p).cmdDisc = ((s.dev.port p).cmdDisc + 1) % 2 ^ 64) ∧
  (∀ (s : State) (p : Fin 8) w, (s.dev.port p).cmdSkip = true →
    (Admits s p (.LNK_CMDQHI p) w → Yields (.commandPush p w) s fun t =>
      (t.dev.port p).cmd = (s.dev.port p).cmd ∧ (t.dev.port p).cmdSkip = true ∧ (t.dev.port p).cmdDisc = ((s.dev.port p).cmdDisc + 1) % 2 ^ 64) ∧
    (Admits s p (.LNK_CMDQHIE p) w → Yields (.commandPushEnd p w) s fun t =>
      (t.dev.port p).cmd = (s.dev.port p).cmd ∧ (t.dev.port p).cmdSkip = false ∧
      (t.dev.port p).cmdDisc = ((s.dev.port p).cmdDisc + 1) % 2 ^ 64)) ∧
  (∀ (s : State) (p : Fin 8) w, Admits s p (.LNK_QCTL p) (setBit w 30 true) →
    ∃ d : Dev, Becomes (.cmdflush p w) s (drainPort d p) ∧ (d.port p).cmd = [] ∧ (d.port p).cmdTaken = [] ∧
      (d.port p).cmdPkts = (s.dev.port p).cmdPkts ∧
      (d.port p).cmdDisc = ((s.dev.port p).cmdDisc + (s.dev.port p).cmd.length + (s.dev.port p).cmdTaken.length) % 2 ^ 64)) ∧
  ((∀ (s : State) (p : Fin 8) (busy : Bool) h args rest (i : Instr) kind (res : Option (List Word64)), (s.dev.port p).cmdPkts = (h :: args) :: rest →
    bits h 47 40 = kind →
    (i, kind, res) ∈ [(Instr.echo p busy, 1, some args), (.fwinfo p busy, 2, if args = [] then some (fwInfo s.mirror) else none),
      (.ptpinfo p busy, 3, if args = [] then some (ptpInfo s.mirror) else none), (.rasread p busy, 4, rasRead s.mirror args),
      (.logread p busy, 5, logRead s.mirror args)] →
    ∃ d : Dev, d = serveQueue ((svcRespond s.mirror p
        (if busy = true ∧ s.dev.trust.image.isSome = true then svcWords h svBusy []
         else if bits h 55 48 ≠ args.length then svcWords h svBadArg []
         else match res with
           | none => svcWords h svBadArg []
           | some l => svcWords h svOk l)).modPort p fun x => { x with cmdPkts := rest }) p ∧
      Becomes i s (drainPort (if (d.port p).cmdPkts = [] ∧ (d.port p).cmd = [] then d.clear (.LNK_DBELL p) 0 else d) p)) ∧
  (∀ (s : State) (p : Fin 8), (s.dev.port p).svcWait = [] → Becomes (.serviceResponsePost p) s (settle s.mirror p)) ∧
  (∀ (s : State) (p : Fin 8) ws rest, (s.dev.port p).svcWait = ws :: rest →
    (8 * ws.length ≤ s.mirror.outRoom p →
      Becomes (.serviceResponsePost p) s (settle (outPost (s.mirror.modPort p fun x => { x with svcWait := rest }) p ws) p)) ∧
    (s.mirror.outRoom p < 8 * ws.length → Becomes (.serviceResponsePost p) s (settle s.mirror p))))

/-- R393: a packet on a port that is not up does nothing; one already accepted is dropped and counted; one behind a gap is answered with a NAK; one
that arrives behind others waits in order.

R390, R413, R414: a register packet of the wrong form is UNSUPPORTED; else it is one access with the checks of Table 12.2, completed with the access's
status and, for a read, the word.

A push or a submission for which there is no room waits, and what comes behind it.

R208, R391: MEM_RD returns the bytes of any in-range blocks, MEM_WR writes those of a bolt of a site that its port owns; a wrong form is UNSUPPORTED,
a refused write is an error and counted, and while the stack sleeps, a channel is busy or a write queue has no room the packet waits.

R229, R392, R401, R405: STRM lands whole lines at the ring's write mark, and is dropped, its credits returned, from a port that does not own the site or where the ring is off; DBELL raises the
doorbell; QRD takes words from the chain, and repeats the held word with UNDERRUN where it is empty.
What goes beyond the spec's words here is the model's choice (log 20, 168, 169, 170, 171, 172, 173, 176, 177). -/
def Obligations.HostPackets : Prop :=
  (∀ (s : State) (p : Fin 8) (seq : Fin 4096) (k : Packet) t i, packetOf t p seq k = some i → k.type = BitVec.ofNat 6 t →
    (s.mirror.portUp p = false → Becomes i s s.mirror) ∧
    (s.mirror.portUp p = true → seq.val ≠ (s.dev.port p).rxSeq → ((s.dev.port p).rxSeq + 4095 - seq.val) % 4096 < 2048 →
      Becomes i s (s.mirror.modPort p fun x => { x with dupDrop := (x.dupDrop + 1) % 2 ^ 64 })) ∧
    (s.mirror.portUp p = true → seq.val ≠ (s.dev.port p).rxSeq → 2048 ≤ ((s.dev.port p).rxSeq + 4095 - seq.val) % 4096 →
      (s.dev.port p).nakOut = false →
      Yields i s fun t => (t.dev.port p).nakOut = true ∧ (t.dev.port p).naks = ((s.dev.port p).naks + 1) % 2 ^ 64 ∧
        (t.dev.port p).rxSeq = (s.dev.port p).rxSeq ∧ t.clock = s.clock) ∧
    (s.mirror.portUp p = true → seq.val = (s.dev.port p).rxSeq → noRoom s.mirror p k = false →
      ((s.dev.schPort p).held.isSome = true ∧ (s.dev.port p).waitWrite = none) ∨
        (∃ x, (s.dev.port p).waitWrite = some x ∧ writeWaits s.mirror p x.1 = true) →
      Yields i s fun t => (t.dev.port p).inbound = (s.dev.port p).inbound ++ [k] ∧ (t.dev.port p).rxSeq = ((s.dev.port p).rxSeq + 1) % 4096 ∧
        t.dev.dram = s.dev.dram ∧ t.clock = s.clock)) ∧
  ((∀ (s : State) (p : Fin 8) seq (k : Packet), k.type = 1 → Arrives s p seq k →
    (raBad false k = true → Becomes (.regRd p seq k) s (settled (complete (numbered s p k) p k.tag stUnsupported 0 0 []) p k)) ∧
    (raBad false k = false → ∀ status lo hi d, readAccess (numbered s p k) p (bits k.addr 25 0) (bits k.addr 27 26) = (status, lo, hi, d) →
      Becomes (.regRd p seq k) s (settled (complete d p k.tag status lo (BitVec.ofNat 64 (hi.toNat * 2 ^ 32)) []) p k))) ∧
  (∀ (s : State) (p : Fin 8) seq (k : Packet), k.type = 2 → Arrives s p seq k →
    (raBad true k = true → Becomes (.regWr p seq k) s (settled (complete (numbered s p k) p k.tag stUnsupported 0 0 []) p k)) ∧
    (raBad true k = false → (∀ c ∈ writtenAt k, writeWaits (numbered s p k) p c = false) →
      ∀ status d, writeAccess (numbered s p k) p (bits k.addr 25 0) (bits k.addr 27 26) k.data (hiHalf k.addr) = (status, d) →
        Becomes (.regWr p seq k) s (settled (if d.trust.held then d else complete d p k.tag status 0 0 []) p k)) ∧
    (raBad true k = false → (∃ c ∈ writtenAt k, writeWaits (numbered s p k) p c = true) →
      Yields (.regWr p seq k) s fun t => (t.dev.port p).inbound = [k] ∧ (t.dev.port p).cmd = (s.dev.port p).cmd ∧ t.dev.dram = s.dev.dram ∧
        t.clock = s.clock))) ∧
  ((∀ (s : State) (p : Fin 8) seq (k : Packet), k.type = 3 → Arrives s p seq k →
    (k.blocks ≠ [] ∨ memBad k.addr k.data.toNat = true →
      Becomes (.memRd p seq k) s (settled (complete (numbered s p k) p k.tag stUnsupported 0 0 []) p k)) ∧
    (k.blocks = [] → memBad k.addr k.data.toNat = false → s.dev.trust.wiped = true →
      (∀ a ∈ linesOf k.addr.toNat (16 * k.data.toNat), (numbered s p k).lineWaits a = false ∧ s.dev.dram.poisoned a = false) →
      ∃ l : List Block, l.length = k.data.toNat ∧
        (∀ j, j < k.data.toNat → l[j]? = some (BitVec.ofNat 128 (s.dev.dram.num (k.addr.toNat + 16 * j) 16))) ∧
        Becomes (.memRd p seq k) s (settled (complete (portServed (numbered s p k) p) p k.tag stOk 0 0 l) p k)) ∧
    (k.blocks = [] → memBad k.addr k.data.toNat = false → s.dev.trust.wiped = true →
      (∃ a ∈ linesOf k.addr.toNat (16 * k.data.toNat), (numbered s p k).lineWaits a = true) →
      Yields (.memRd p seq k) s fun t =>
        (t.dev.port p).inbound = [k] ∧ .port p ∈ t.dev.dram.held ∧ t.dev.dram.mem = s.dev.dram.mem ∧ t.clock = s.clock)) ∧
  (∀ (s : State) (p : Fin 8) seq (k : Packet), k.type = 4 → Arrives s p seq k →
    (memBad k.addr k.blocks.length = true →
      Becomes (.memWr p seq k) s (settled (complete (numbered s p k) p k.tag stUnsupported 0 0 []) p k)) ∧
    (memBad k.addr k.blocks.length = false → s.dev.trust.wiped = true → s.mirror.hostReaches = false →
      Yields (.memWr p seq k) s fun t =>
        (t.dev.port p).inbound = [k] ∧ .port p ∈ t.dev.dram.held ∧ t.dev.dram.mem = s.dev.dram.mem ∧ t.clock = s.clock) ∧
    (memBad k.addr k.blocks.length = false → s.dev.trust.wiped = true → s.mirror.hostReaches = true →
      memOwned s.mirror p k.addr.toNat = false →
      Yields (.memWr p seq k) s fun t =>
        t.dev.dram.wRefuse = (s.dev.dram.wRefuse + 1) % 2 ^ 64 ∧ t.dev.dram.mem = s.dev.dram.mem ∧ t.clock = s.clock) ∧
    (memBad k.addr k.blocks.length = false → s.dev.trust.wiped = true → s.mirror.hostReaches = true →
      memOwned s.mirror p k.addr.toNat = true →
      (writeFits (numbered s p k) clsHost k.addr.toNat (blockBytes k.blocks) = true →
        ∀ d, writeLines (portServed (numbered s p k) p) clsHost k.addr.toNat (blockBytes k.blocks) = (true, d) →
        Becomes (.memWr p seq k) s (settled (complete d p k.tag stOk 0 0 []) p k)) ∧
      (writeFits (numbered s p k) clsHost k.addr.toNat (blockBytes k.blocks) = false →
        Yields (.memWr p seq k) s fun t =>
          (t.dev.port p).inbound = [k] ∧ .port p ∈ t.dev.dram.held ∧ t.dev.dram.mem = s.dev.dram.mem ∧ t.clock = s.clock)))) ∧
  ((∀ (s : State) (p : Fin 8) seq (k : Packet), k.type = 5 → Arrives s p seq k →
    (k.blocks.length < 4 ∨ 1024 < k.blocks.length ∨ k.blocks.length % 4 ≠ 0 →
      Becomes (.strm p seq k) s (settled (streamReturn ((numbered s p k).modPort p fun x => { x with badPkt := (x.badPkt + 1) % 2 ^ 64 }) p
        (bits k.addr 3 0) k.blocks.length) p k)) ∧
    (4 ≤ k.blocks.length → k.blocks.length ≤ 1024 → k.blocks.length % 4 = 0 →
      (p.val ≠ s.dev.siteOwner (bits k.addr 3 0) ∨
          ((s.dev.site (bits k.addr 3 0)).resetting = false ∧ s.mirror.ringOn (bits k.addr 3 0) = false) →
        Becomes (.strm p seq k) s (settled (streamReturn ((numbered s p k).modPort p fun x => { x with strmDrop := (x.strmDrop + 1) % 2 ^ 64 }) p
          (bits k.addr 3 0) k.blocks.length) p k)) ∧
      (p.val = s.dev.siteOwner (bits k.addr 3 0) → (s.dev.site (bits k.addr 3 0)).resetting = true →
        Becomes (.strm p seq k) s (settled (streamReturn (numbered s p k) p (bits k.addr 3 0) k.blocks.length) p k)) ∧
      (p.val = s.dev.siteOwner (bits k.addr 3 0) → (s.dev.site (bits k.addr 3 0)).resetting = false → s.mirror.ringOn (bits k.addr 3 0) = true →
        s.mirror.hostReaches = true →
        (streamFits (numbered s p k) (bits k.addr 3 0) k.blocks.length = true →
          Becomes (.strm p seq k) s (settled (ringFilled
            ((portServed (numbered s p k) p).each (streamLines k.blocks) (streamLine (bits k.addr 3 0))) (bits k.addr 3 0)) p k)) ∧
        (streamFits (numbered s p k) (bits k.addr 3 0) k.blocks.length = false →
          Yields (.strm p seq k) s fun t =>
            (t.dev.port p).inbound = [k] ∧ .port p ∈ t.dev.dram.held ∧ t.dev.dram.mem = s.dev.dram.mem ∧ t.clock = s.clock)))) ∧
  (∀ (s : State) (p : Fin 8) seq (k : Packet), k.type = 6 → Arrives s p seq k →
    (k.blocks = [] → bits k.addr 3 0 = 0 → Becomes (.dbell p seq k) s (settled ((numbered s p k).raise (.LNK_DBELL p) 0) p k)) ∧
    (k.blocks ≠ [] ∨ bits k.addr 3 0 ≠ 0 →
      Becomes (.dbell p seq k) s (settled ((numbered s p k).modPort p fun x => { x with badPkt := (x.badPkt + 1) % 2 ^ 64 }) p k))) ∧
  (∀ (s : State) (p : Fin 8) seq (k : Packet), k.type = 7 → Arrives s p seq k →
    (k.blocks ≠ [] → Becomes (.qrd p seq k) s (settled (complete (numbered s p k) p k.tag stUnsupported 0 0 []) p k)) ∧
    (k.blocks = [] → (s.dev.port p).chain = [] →
      Becomes (.qrd p seq k) s (settled (complete (irqRaise ((numbered s p k).raise (.LNK_QSTAT p) 31) p 3) p k.tag stUnderrun
        (qrdMarks [(s.dev.port p).held]) 1 (qrdBlocks [(s.dev.port p).held])) p k)) ∧
    (k.blocks = [] → (s.dev.port p).chain ≠ [] → ∀ n ws, n = min (bits k.addr 4 0 + 1) (s.dev.port p).chain.length →
      ws = (s.dev.port p).chain.take n →
      ∃ d : Dev, Becomes (.qrd p seq k) s
          (settled (complete (irqUpdate d p) p k.tag stOk (qrdMarks ws) (BitVec.ofNat 64 n) (qrdBlocks ws)) p k) ∧
        (d.port p).chain = (s.dev.port p).chain.drop n ∧ d.regs = (numbered s p k).regs)))

/-! ### Calibration -/

/-- R434, R435, R438 to R440: a run or a commit becomes the current operation, a run's passes beginning once the affected sites are idle; a second one
only sets BUSY_DROP, a reserved quantity starts nothing.

R431, R434, Table 13.2: passes without a fault are accepted, and leave every value's mean in the shadow set; passes that differ by more than a value's
tolerance, a mean out of its register's range, a missing result, too few samples, and the junction limit reject a run under their codes, with the item.
R435: while the passes measure, a write of a shadow register of the quantity is ignored and flagged.

R437, R440 to R443: an accepted run or a commit is applied at its point: the active values become those of the snapshot, the operation ends, and a run
is counted, a commit of the host marked. A commit whose point has not come waits.
What goes beyond the spec's words here is the model's choice (log 17, 50, 51, 139, 141, 142, 209). -/
def Obligations.Calibration : Prop :=
  ((∀ (s : State) (p : Fin 8) w, Admits s p .CAL_CMD (setBit (setBit w 29 false) 31 true) →
    (s.dev.cal.op.isSome = true → Becomes (.calRun p w) s ((s.mirror.store .CAL_CMD (setBit (setBit w 29 false) 31 true)).raise .CAL_STAT 27)) ∧
    (s.dev.cal.op = none → bits w 23 20 = 0 ∨ 5 < bits w 23 20 →
      Becomes (.calRun p w) s (s.mirror.store .CAL_CMD (setBit (setBit w 29 false) 31 true))) ∧
    (s.dev.cal.op = none → 1 ≤ bits w 23 20 → bits w 23 20 ≤ 5 →
      Yields (.calRun p w) s fun t =>
        ∃ o : CalOp, (o.run = true ∧ o.qty = bits w 23 20 ∧ o.target = bits w 7 0 ∧ o.limit = false ∧ o.snap = none ∧ o.passes = calIdle s.mirror o) ∧
          operation t o ∧ t.dev.flag .CAL_STAT 31 = true ∧ t.dev.flag .CAL_STAT 30 = !o.passes ∧ t.dev.get .CAL_STAT 23 20 = o.qty ∧
          t.dev.cal.runs.get 0 o.qty = (s.dev.cal.runs.get 0 o.qty + 1) % 2 ^ 64 ∧ t.dev.dram = s.dev.dram ∧ t.clock = s.clock)) ∧
  (∀ (s : State) (p : Fin 8) w, Admits s p .CAL_CMD (setBit (setBit (setBit w 29 false) 31 false) 30 true) →
    (s.dev.cal.op.isSome = true →
      Becomes (.calCommit p w) s ((s.mirror.store .CAL_CMD (setBit (setBit (setBit w 29 false) 31 false) 30 true)).raise .CAL_STAT 27)) ∧
    (s.dev.cal.op = none → 1 ≤ bits w 23 20 → bits w 23 20 ≤ 5 →
      Yields (.calCommit p w) s fun t =>
        ∃ snap, operation t { run := false, qty := bits w 23 20, target := bits w 7 0, snap := some snap } ∧ t.dev.get .CAL_STAT 31 30 = 3 ∧
          t.dev.get .CAL_STAT 23 20 = bits w 23 20 ∧ t.dev.cal.runs = s.dev.cal.runs ∧ t.dev.dram = s.dev.dram ∧ t.clock = s.clock)) ∧
  (∀ (s : State) o, operation s o → o.run = true → o.passes = false → calIdle s.mirror o = true →
    Yields .calPassesBegin s fun t =>
      operation t { o with passes := true } ∧ t.dev.flag .CAL_STAT 30 = false ∧ t.dev.dram = s.dev.dram ∧ t.clock = s.clock) ∧
  (∀ (s : State), (∀ o, operation s o → o.run = false ∨ o.passes = true ∨ calIdle s.mirror o = false) →
    Becomes .calPassesBegin s s.mirror)) ∧
  ((∀ (s : State) pass, (∀ o, operation s o → o.run = false ∨ o.passes = false ∨ o.snap ≠ none) → Becomes (.calRunEnd pass) s s.mirror) ∧
  (∀ (s : State) pass o, operation s o → o.run = true → o.passes = true → o.snap = none →
    (runVerdict s.mirror o (measured s o pass) = none →
      Yields (.calRunEnd pass) s fun t =>
        (∀ x l, (x, some l) ∈ (calItems o.qty o.target).zip (measured s o pass) → ∀ v a b, (v, a, b) ∈ x.vals.zip l → ShadowMean t v a b) ∧
        (∃ snap, operation t { o with snap := some snap }) ∧ t.dev.flag .CAL_STAT 29 = true ∧ t.dev.flag .CAL_STAT 28 = false ∧
        t.dev.flag .CAL_STAT 30 = true ∧ t.dev.get .CAL_STAT 19 16 = 0 ∧ t.clock = s.clock) ∧
    (∀ code item num den, runVerdict s.mirror o (measured s o pass) = some (code, item, num, den) → code < 16 →
      Yields (.calRunEnd pass) s fun t =>
        (∀ k, item = some k → k < 256 → t.dev.get .CAL_STAT 15 8 = k) ∧ t.dev.cal.linShadow = s.dev.cal.linShadow ∧
        t.dev.cal.op = none ∧ t.dev.flag .CAL_STAT 28 = true ∧ t.dev.flag .CAL_STAT 29 = false ∧ t.dev.get .CAL_STAT 19 16 = code ∧
        t.dev.get .CAL_STAT 31 30 = 0 ∧ t.dev.cal.rejects.get 0 o.qty = (s.dev.cal.rejects.get 0 o.qty + 1) % 2 ^ 64 ∧ t.clock = s.clock) ∧
    (o.limit = true → ∃ item num den, runVerdict s.mirror o pass = some (5, item, num, den)) ∧
    (o.limit = false → o.qty = 3 → inSet o.target 0 = true → runVerdict s.mirror o [] = some (3, some 0, 0, 2 ^ 23)) ∧
    (o.limit = false → o.qty = 5 → (s.dev.cal.samples.length < 256) → runVerdict s.mirror o pass = some (4, some 0, 0, 1)) ∧
    (o.limit = false → o.qty ≠ 5 → ∀ x l v a b us ws, FirstItem o pass x l → x.vals.zip l = us ++ (v, a, b) :: ws →
      ((∀ u ∈ us, (u.2.1 - u.2.2).natAbs ≤ u.1.tol) → v.tol < (a - b).natAbs →
        runVerdict s.mirror o pass = some (1, x.item, (a - b).natAbs * 10, 2 ^ 23)) ∧
      ((∀ u ∈ x.vals.zip l, (u.2.1 - u.2.2).natAbs ≤ u.1.tol) → (∀ u ∈ us, u.1.lo ≤ meanOf u.1 u.2.1 u.2.2 ∧ meanOf u.1 u.2.1 u.2.2 ≤ u.1.hi) →
        meanOf v a b < v.lo ∨ v.hi < meanOf v a b →
        runVerdict s.mirror o pass = some (2, x.item, (a - b).natAbs * 10, 2 ^ 23))) ∧
    (o.limit = false → o.qty = 5 → spanShort s.dev.cal = false → ∀ l : List (Int × Int), l.length = 4 →
      (5 * 2 ^ 54 * 128 ^ 3 < worstDiff s.dev.cal l * 10 ^ 8 →
        runVerdict s.mirror o [some l] = some (1, some 0, worstDiff s.dev.cal l * 10 ^ 9, 2 ^ 54 * 128 ^ 3)) ∧
      (worstDiff s.dev.cal l * 10 ^ 8 ≤ 5 * 2 ^ 54 * 128 ^ 3 →
        (∃ u ∈ l, (u.1 + u.2 + 1024) / 2048 < -(2 ^ 31) ∨ 2 ^ 31 ≤ (u.1 + u.2 + 1024) / 2048) →
        runVerdict s.mirror o [some l] = some (2, some 0, worstDiff s.dev.cal l * 10 ^ 9, 2 ^ 54 * 128 ^ 3)))) ∧
  (∀ (s : State) o (p : Fin 8) (r : Reg) w, operation s o → o.run = true → o.passes = true → o.snap = none → 1 ≤ o.qty → shadowQty r = o.qty →
    Reg.ofAddr r.addr = some r → canonAddr r.addr = some r.addr → Admits s p r w →
    Becomes (.registerWrite p (BitVec.ofNat 26 r.addr) w) s (s.mirror.raise .CAL_STAT 26))) ∧
  ((∀ (s : State), (∀ o, operation s o → o.snap = none) → Yields .calCommitApply s fun t => t.dev.cal = s.dev.cal ∧ t.dev.dram = s.dev.dram) ∧
  (∀ (s : State) o regs lin, operation s o → o.snap = some (regs, lin) → o.qty = 1 ∨ o.qty = 2 ∨ o.qty = 4 →
    applyPoint s.mirror o = false → Becomes .calCommitApply s s.mirror) ∧
  (∀ (s : State) o regs lin, operation s o → o.snap = some (regs, lin) → 1 ≤ o.qty → o.qty ≤ 5 → applyPoint s.mirror o = true →
    (∀ aw ∈ regs, Reg.ofAddr aw.1 ≠ some (.CAL_QSTAT (o.qty - 1))) →
    Yields .calCommitApply s fun t =>
      t.dev.cal.op = none ∧ t.dev.get .CAL_STAT 31 30 = 0 ∧ (o.qty = 3 ∨ o.qty = 5 → s.dev.sched.tickAt ≤ t.clock.now) ∧
      (o.qty = 1 ∨ o.qty = 2 ∨ o.qty = 4 → t.clock = s.clock) ∧
      (o.run = true → t.dev.get (.CAL_QSTAT (o.qty - 1)) 15 0 = min 65535 (s.mirror.get (.CAL_QSTAT (o.qty - 1)) 15 0 + 1) ∧
        t.dev.cal.last.get none o.qty = some t.clock.now) ∧
      (o.run = false → t.dev.flag (.CAL_QSTAT (o.qty - 1)) 30 = true ∧ t.dev.cal.last = s.dev.cal.last)) ∧
  (∀ (s : State) o (d : Dev) host, operation s o → 1 ≤ o.qty → o.qty ≤ 5 → applyPoint s.mirror o = true →
    o.snap = some (calSnapshot d o.qty o.target host) →
    Yields .calCommitApply s fun t =>
      (∀ x ∈ calItems o.qty o.target, ∀ v ∈ x.vals, ActiveFrom t d v) ∧ (∀ h ∈ hostHomes o.qty o.target, t.dev.rd h.2 = d.rd h.1)))

/-- R439: DISCARD ends the current operation: a run that waits or measures is rejected with DISCARDED, a commit that waits is dropped, and with no
operation nothing but the register changes; the active values stay, and the operation holds no site any more. -/
def Obligations.CalibrationDiscard : Prop :=
  (∀ (s : State) (p : Fin 8) w, Admits s p .CAL_CMD (setBit w 29 true) →
    (s.dev.cal.op = none → Becomes (.calDiscard p w) s (s.mirror.store .CAL_CMD (setBit w 29 true))) ∧
    (∀ o, operation s o →
      Yields (.calDiscard p w) s fun t =>
        t.dev.cal.op = none ∧ t.dev.get .CAL_STAT 31 30 = 0 ∧ (∀ r, activeCal r = true → Reg.ofAddr r.addr = some r → t.dev.rd r = s.mirror.rd r) ∧
        t.dev.cal.linActive = s.dev.cal.linActive ∧
        (∀ k, (∀ c, c < 8 → inSet s.dev.sched.pllLost c = false) → t.dev.siteHeld k = false) ∧
        (o.run = true → o.snap = none →
          t.dev.flag .CAL_STAT 28 = true ∧ t.dev.get .CAL_STAT 19 16 = 6 ∧
          t.dev.cal.rejects.get 0 o.qty = (s.dev.cal.rejects.get 0 o.qty + 1) % 2 ^ 64) ∧
        (o.run = false ∨ o.snap ≠ none → t.dev.cal.rejects = s.dev.cal.rejects) ∧ t.clock = s.clock))

/-! ### Register accesses -/

/-- Table 12.2, R170, R414, R420, R421, R452: a command that is a port's write of a register changes nothing while the port is down, its submission is
held or a write of it waits, nor before READY outside the early blocks; by a port that does not own the register it only sets OWNER in the port's LNK_PERR.

R8, R411 to R418: a 32-bit write of a port at an address of no register changes nothing, a misaligned one is flagged, one that passes the checks is
the register's own write: of a register without a rule of its own, RW bits take the written ones, written ones clear W1C bits, and the rest stay.

R8, R20, R417, R429: the owner's read of a register with RC fields clears them, another port's does not, nor does one behind a fenced seam; a write of
an assignment moves each unit that is idle, keeps the others and flags them, and is refused as a whole once the partition is locked.
What goes beyond the spec's words here is the model's choice (log 15, 73, 146, 180). -/
def Obligations.RegisterWrites : Prop :=
  (∀ (s : State) (c : Instr) p r w, portWrite s.mirror c = some (p, r, w) →
    (s.dev.accepts p = false → Becomes c s s.mirror) ∧
    (s.dev.ready = false → earlyBlock r.addr = false → Becomes c s s.mirror) ∧
    (s.dev.accepts p = true → s.dev.ready = true ∨ earlyBlock r.addr = true →
      s.mirror.mayWrite p r w = false →
      Becomes c s (s.mirror.raise (.LNK_PERR p) 28))) ∧
  ((∀ (s : State) (p : Fin 8) a w, s.dev.accepts p = true →
    (canonAddr a.toNat = none → Becomes (.registerWrite p a w) s s.mirror) ∧
    (∀ c, canonAddr a.toNat = some c →
      (a.toNat % 4 ≠ 0 → Becomes (.registerWrite p a w) s (s.mirror.raise (.LNK_PERR p) 29)) ∧
      (a.toNat % 4 = 0 → c < 0x1000000 → ∀ r, Reg.ofAddr c = some r →
        (Admits s p r w → Becomes (.registerWrite p a w) s (writeReg p r s.mirror w)) ∧
        ((s.dev.ready = true ∨ earlyBlock r.addr = true) → s.mirror.mayWrite p r w = false →
          Becomes (.registerWrite p a w) s (s.mirror.raise (.LNK_PERR p) 28))))) ∧
  (∀ (s : State) (p : Fin 8) w, Admits s p .RAS_ALERTEN w →
    Becomes (.registerWrite p (BitVec.ofNat 26 Reg.RAS_ALERTEN.addr) w) s
      (s.mirror.wr .RAS_ALERTEN ((s.mirror.rd .RAS_ALERTEN &&& ~~~0xF) ||| (w &&& 0xF)))) ∧
  (∀ (s : State) (p : Fin 8) w, s.dev.accepts p = true →
    Becomes (.registerWrite p (BitVec.ofNat 26 (Reg.LNK_PERR p).addr) w) s
      (s.mirror.wr (.LNK_PERR p) (s.mirror.rd (.LNK_PERR p) &&& ~~~(w &&& 0xF0000000))))) ∧
  ((∀ (s : State) (p : Fin 8) x r rc, s.dev.accepts p = true →
    (r, rc) ∈ (match x with
      | .trap e => [(Reg.ENG_TRAP e, (0xFFFF : Word))]
      | .cserr e => [(.ENG_CSERR e, 0xFF00000)]
      | .collcnt c => [(.CUF_COLLCNT c, 0xFFFFFFFF)]
      | .lanErr l => [(.LAN_ERR l, 0xFFFFFFFF)]) →
    (s.mirror.readCut r.addr = true → Becomes (.clearOnRead p x) s s.mirror) ∧
    (s.mirror.owns p r = true → s.mirror.readCut r.addr = false → Becomes (.clearOnRead p x) s (s.mirror.wr r (s.mirror.rd r &&& ~~~rc))) ∧
    (s.mirror.owns p r = false → Becomes (.clearOnRead p x) s s.mirror)) ∧
  (∀ (s : State) (p : Fin 8) (i : Fin 3) w r, (i.val = 0 ∧ r = .GLB_ACQSITE 0) ∨ (i.val = 1 ∧ r = .GLB_ACQSITE 1) ∨ (i.val = 2 ∧ r = .GLB_SRCSITE) →
    Admits s p r w →
    (s.mirror.locked = true → Becomes (.assignmentWrite p i w) s (s.mirror.raise (.LNK_PERR p) 30)) ∧
    (s.mirror.locked = false →
      Yields (.assignmentWrite p i w) s fun t =>
        (∀ j, j < 8 →
          t.dev.get r (4 * j + 3) (4 * j) =
            if (if i.val = 2 then s.mirror.srcState j else s.mirror.acqState (8 * i.val + j)) = 0 then bits w (4 * j + 3) (4 * j)
            else s.mirror.get r (4 * j + 3) (4 * j)) ∧
        ((∃ j, j < 8 ∧ (if i.val = 2 then s.mirror.srcState j else s.mirror.acqState (8 * i.val + j)) ≠ 0 ∧
            bits w (4 * j + 3) (4 * j) ≠ s.mirror.get r (4 * j + 3) (4 * j)) →
          t.dev.flag .GLB_STAT 29 = true) ∧
        t.dev.dram = s.dev.dram ∧ t.clock = s.clock)) ∧
  (∀ (d : Dev) p, d.accepts p = true ↔ (d.portUp p = true ∧ (d.schPort p).held = none ∧ (d.port p).waitWrite = none)))

/-- R417: any port may read, and gets the register's value, or its next event word; a port that does not own the register changes nothing by it; the
owner's read clears the RC fields, takes the event word, and clears VALID with the last mailbox word, and does nothing else. -/
def Obligations.ReadSideEffects : Prop :=
  ∀ (d : Dev) p (r : Reg),
    (d.owns p r = false → readReg d p r = (d.shown p r, d)) ∧
    ((∀ q, r ≠ .LNK_EVQLO q) → (readReg d p r).1 = d.shown p r) ∧
    ((∀ q, r ≠ .LNK_EVQLO q) → (∀ q w, r ≠ .MBX_DATA q w) → d.owns p r = true →
      (r.row.rc = 0 → (readReg d p r).2 = d) ∧
      (r.row.rc ≠ 0 → (readReg d p r).2 = d.wr r (d.rd r &&& ~~~(BitVec.ofNat 32 r.row.rc)))) ∧
    (∀ (w : QWord) ws, r = .LNK_EVQLO p → (d.port p).chain = w :: ws →
      (readReg d p r).1 = w.data.setWidth 32 ∧ ((readReg d p r).2.port p).chain = ws ∧ ((readReg d p r).2.port p).held = w ∧
      (readReg d p r).2.regs = d.regs ∧ (∀ q, q ≠ p → (readReg d p r).2.port q = d.port q)) ∧
    (∀ w, r = .MBX_DATA p w →
      (readReg d p r).2 = if d.get (.MBX_STAT p) 2 0 = w + 1 then d.clear (.MBX_STAT p) 31 else d)
end

