-- ==== Sys2Proof/Laws/Bits.lean ====
section
/-! SUPPORT. Laws of bit fields: what a field reads after it, or another field, was replaced. -/
namespace Sys2Proof.Machine

/-- Every bit of a number with a field replaced. -/
theorem testBit_setBitsN (w hi lo v j : Nat) (h : lo ≤ hi) :
    (setBitsN w hi lo v).testBit j = if lo ≤ j ∧ j ≤ hi then v.testBit (j - lo) else w.testBit j := by
  set k := hi + 1 - lo with hk
  have e0 : setBitsN w hi lo v = 2 ^ lo * (2 ^ k * (w / 2 ^ (lo + k)) + v % 2 ^ k) + w % 2 ^ lo := by
    have h1 : w = 2 ^ lo * (w / 2 ^ lo) + w % 2 ^ lo := (Nat.div_add_mod w (2 ^ lo)).symm
    have h2 : w / 2 ^ lo = 2 ^ k * (w / 2 ^ (lo + k)) + w / 2 ^ lo % 2 ^ k := by
      rw [pow_add, ← Nat.div_div_eq_div_mul]; exact (Nat.div_add_mod _ _).symm
    unfold setBitsN
    rw [← hk]
    generalize hq : w / 2 ^ (lo + k) = q at *
    generalize hr : w / 2 ^ lo % 2 ^ k = r at *
    generalize hm : w % 2 ^ lo = m at *
    have h3 : w = 2 ^ lo * (2 ^ k * q) + r * 2 ^ lo + m := by rw [h1, h2]; ring
    rw [h3, show 2 ^ lo * (2 ^ k * q) + r * 2 ^ lo + m - r * 2 ^ lo = 2 ^ lo * (2 ^ k * q) + m by omega]
    ring
  rw [e0, Nat.testBit_two_pow_mul_add _ (Nat.mod_lt _ (by positivity)), Nat.testBit_two_pow_mul_add _ (Nat.mod_lt _ (by positivity)),
    Nat.testBit_mod_two_pow, Nat.testBit_mod_two_pow, Nat.testBit_div_two_pow]
  by_cases h1 : j < lo
  · simp [h1, show ¬ (lo ≤ j ∧ j ≤ hi) by omega]
  · by_cases h2 : j - lo < k
    · simp [h1, h2, show lo ≤ j ∧ j ≤ hi by omega]
    · simp only [h1, h2, if_false, show ¬ (lo ≤ j ∧ j ≤ hi) by omega]
      congr 1; omega

variable {n : Nat} (w : BitVec n) (hi lo v : Nat)

/-- Every bit of a word with a field replaced. -/
theorem getLsbD_setBits (j : Nat) (h : lo ≤ hi) (hn : hi < n) :
    (setBits w hi lo v).getLsbD j = if lo ≤ j ∧ j ≤ hi then v.testBit (j - lo) else w.getLsbD j := by
  rw [setBits, BitVec.getLsbD_ofNat, testBit_setBitsN w.toNat hi lo v j h]
  split
  · simp [show j < n by omega]
  · by_cases hj : j < n
    · simp [hj, BitVec.testBit_toNat]
    · simp [hj, BitVec.getLsbD_of_ge _ _ (Nat.le_of_not_lt hj)]

theorem testBit_bits (j : Nat) : (bits w hi lo).testBit j = (decide (j < hi + 1 - lo) && w.getLsbD (lo + j)) := by
  rw [bits, Nat.testBit_mod_two_pow, Nat.testBit_div_two_pow, ← BitVec.testBit_toNat, Nat.add_comm j lo]

/-- A field reads back the value that replaced it. -/
theorem bits_setBits_same (h : lo ≤ hi) (hn : hi < n) : bits (setBits w hi lo v) hi lo = v % 2 ^ (hi + 1 - lo) := by
  apply Nat.eq_of_testBit_eq; intro j
  rw [testBit_bits, getLsbD_setBits w hi lo v _ h hn, Nat.testBit_mod_two_pow]
  by_cases hj : j < hi + 1 - lo
  · simp [hj, show lo + j ≤ hi by omega]
  · simp [hj]

/-- A field that does not meet the replaced one reads as before. -/
theorem bits_setBits_ne {hi' lo' : Nat} (h : lo ≤ hi) (hn : hi < n) (hd : hi' < lo ∨ hi < lo') :
    bits (setBits w hi lo v) hi' lo' = bits w hi' lo' := by
  apply Nat.eq_of_testBit_eq; intro j
  rw [testBit_bits, testBit_bits, getLsbD_setBits w hi lo v _ h hn]
  by_cases hj : j < hi' + 1 - lo'
  · simp [hj, show ¬ (lo ≤ lo' + j ∧ lo' + j ≤ hi) by omega]
  · simp [hj]

@[simp] theorem bit_setBit_same (i : Nat) (b : Bool) (hn : i < n) : bit (setBit w i b) i = b := by
  rw [bit, setBit, getLsbD_setBits w i i _ i (Nat.le_refl _) hn]; cases b <;> simp

theorem bit_setBit_ne {i j : Nat} (b : Bool) (hn : i < n) (h : j ≠ i) : bit (setBit w i b) j = bit w j := by
  rw [bit, setBit, getLsbD_setBits w i i _ j (Nat.le_refl _) hn]
  simp [show ¬ (i ≤ j ∧ j ≤ i) by omega, bit]

end Sys2Proof.Machine
end

