-- ==== Sys2Proof/Laws/Tables.lean ====
section
/-! SUPPORT. Laws of sparse tables: a read after a write, and the canonical form (rising keys, no listed default). -/
namespace Sys2Proof.Machine

@[simp] theorem lookup_insert_same {α : Type} (z : α) (k : Nat) (v : α) (l : List (Nat × α)) : lookup z k (insert k v l) = v := by
  induction l with
  | nil => simp [insert, lookup]
  | cons c cs ih =>
    unfold insert; split
    · simp [lookup]
    · split
      · simp [lookup]
      · simp [lookup, *]

theorem lookup_insert_ne {α : Type} (z : α) {j k : Nat} (h : j ≠ k) (v : α) (l : List (Nat × α)) :
    lookup z j (insert k v l) = lookup z j l := by
  induction l with
  | nil => simp [insert, lookup, Ne.symm h]
  | cons c cs ih =>
    unfold insert; split
    · next hc => simp [lookup, hc, Ne.symm h]
    · split
      · simp [lookup, Ne.symm h]
      · simp [lookup, ih]

@[simp] theorem lookup_erase_same {α : Type} (z : α) (k : Nat) (l : List (Nat × α)) : lookup z k (erase k l) = z := by
  induction l with
  | nil => rfl
  | cons c cs ih =>
    unfold erase; split
    · exact ih
    · simp [lookup, *]

theorem lookup_erase_ne {α : Type} (z : α) {j k : Nat} (h : j ≠ k) (l : List (Nat × α)) : lookup z j (erase k l) = lookup z j l := by
  induction l with
  | nil => rfl
  | cons c cs ih =>
    unfold erase; split
    · next hc => simp [lookup, hc, Ne.symm h, ih]
    · simp [lookup, ih]

/-- A value just written is read back. -/
@[simp] theorem Tbl.get_put_same {α : Type} [DecidableEq α] (t : Tbl α) (z : α) (k : Nat) (v : α) : (t.put z k v).get z k = v := by
  unfold Tbl.put Tbl.get; split
  · next h => simp [h]
  · simp

/-- A write leaves every other key alone. -/
theorem Tbl.get_put_ne' {α : Type} [DecidableEq α] (t : Tbl α) (z y : α) {j k : Nat} (h : j ≠ k) (v : α) :
    (t.put z k v).get y j = t.get y j := by
  unfold Tbl.put Tbl.get; split
  · exact lookup_erase_ne y h _
  · exact lookup_insert_ne y h v _

theorem Tbl.get_put_ne {α : Type} [DecidableEq α] (t : Tbl α) (z : α) {j k : Nat} (h : j ≠ k) (v : α) :
    (t.put z k v).get z j = t.get z j := t.get_put_ne' z z h v

theorem canonical_mono {α : Type} [DecidableEq α] {z : α} {lo hi : Nat} {l : List (Nat × α)} (h : lo ≤ hi)
    (c : canonical z hi l = true) : canonical z lo l = true := by
  cases l with
  | nil => rfl
  | cons x xs =>
    simp only [canonical, Bool.and_eq_true, decide_eq_true_eq] at c ⊢
    exact ⟨⟨by omega, c.1.2⟩, c.2⟩

theorem canonical_erase {α : Type} [DecidableEq α] {z : α} (k : Nat) {lo : Nat} {l : List (Nat × α)}
    (c : canonical z lo l = true) : canonical z lo (erase k l) = true := by
  induction l generalizing lo with
  | nil => rfl
  | cons x xs ih =>
    simp [canonical] at c
    unfold erase; split
    · exact canonical_mono (by omega) (ih c.2)
    · simp [canonical, c.1, ih c.2]

theorem canonical_insert {α : Type} [DecidableEq α] {z v : α} (hv : v ≠ z) {k lo : Nat} (hk : lo ≤ k) {l : List (Nat × α)}
    (c : canonical z lo l = true) : canonical z lo (insert k v l) = true := by
  induction l generalizing lo with
  | nil => simp [insert, canonical, hk, hv]
  | cons x xs ih =>
    simp [canonical] at c
    unfold insert; split
    · next hx => subst hx; simp [canonical, c.1.1, hv, c.2]
    · split
      · next h1 h2 => simp [canonical, hk, hv, c.1.2, c.2]; omega
      · next h1 h2 => simp [canonical, c.1, ih (by omega) c.2]

theorem canonical_filter {α : Type} [DecidableEq α] {z : α} (p : Nat × α → Bool) {lo : Nat} {l : List (Nat × α)}
    (c : canonical z lo l = true) : canonical z lo (l.filter p) = true := by
  induction l generalizing lo with
  | nil => rfl
  | cons x xs ih =>
    simp [canonical] at c
    rw [List.filter_cons]; split
    · simp [canonical, c.1, ih c.2]
    · exact canonical_mono (by omega) (ih c.2)

/-- A table write keeps the canonical form. -/
theorem canonical_put {α : Type} [DecidableEq α] {z v : α} {k : Nat} {t : Tbl α} (c : canonical z 0 t.cells = true) :
    canonical z 0 (t.put z k v).cells = true := by
  unfold Tbl.put; dsimp only; split
  · exact canonical_erase k c
  · next h => exact canonical_insert h (Nat.zero_le k) c

end Sys2Proof.Machine
end

