-- ==== Sys2Proof/Laws/State.lean ====
section
/-! SUPPORT. Laws of State: what each update of a part of the device does to each field, so that no later proof unfolds a record update. -/
namespace Sys2Proof.Machine

variable (d : Dev)

/-! ### Dev.wr -/

@[simp] theorem Dev.wr_now (r : Reg) (w : Word) : (d.wr r w).now = d.now := rfl
@[simp] theorem Dev.wr_raw (r : Reg) (w : Word) : (d.wr r w).raw = d.raw := rfl
@[simp] theorem Dev.wr_regs (r : Reg) (w : Word) : (d.wr r w).regs = d.regs.put (BitVec.ofNat 32 r.row.reset) r.addr w := rfl
@[simp] theorem Dev.wr_tbase (r : Reg) (w : Word) : (d.wr r w).tbase = d.tbase := rfl
@[simp] theorem Dev.wr_ras (r : Reg) (w : Word) : (d.wr r w).ras = d.ras := rfl
@[simp] theorem Dev.wr_dram (r : Reg) (w : Word) : (d.wr r w).dram = d.dram := rfl
@[simp] theorem Dev.wr_rings (r : Reg) (w : Word) : (d.wr r w).rings = d.rings := rfl
@[simp] theorem Dev.wr_ledger (r : Reg) (w : Word) : (d.wr r w).ledger = d.ledger := rfl
@[simp] theorem Dev.wr_ports (r : Reg) (w : Word) : (d.wr r w).ports = d.ports := rfl
@[simp] theorem Dev.wr_lanes (r : Reg) (w : Word) : (d.wr r w).lanes = d.lanes := rfl
@[simp] theorem Dev.wr_sites (r : Reg) (w : Word) : (d.wr r w).sites = d.sites := rfl
@[simp] theorem Dev.wr_chans (r : Reg) (w : Word) : (d.wr r w).chans = d.chans := rfl
@[simp] theorem Dev.wr_chanSets (r : Reg) (w : Word) : (d.wr r w).chanSets = d.chanSets := rfl
@[simp] theorem Dev.wr_periods (r : Reg) (w : Word) : (d.wr r w).periods = d.periods := rfl
@[simp] theorem Dev.wr_sched (r : Reg) (w : Word) : (d.wr r w).sched = d.sched := rfl
@[simp] theorem Dev.wr_stampIns (r : Reg) (w : Word) : (d.wr r w).stampIns = d.stampIns := rfl
@[simp] theorem Dev.wr_intervals (r : Reg) (w : Word) : (d.wr r w).intervals = d.intervals := rfl
@[simp] theorem Dev.wr_freqs (r : Reg) (w : Word) : (d.wr r w).freqs = d.freqs := rfl
@[simp] theorem Dev.wr_cal (r : Reg) (w : Word) : (d.wr r w).cal = d.cal := rfl
@[simp] theorem Dev.wr_trust (r : Reg) (w : Word) : (d.wr r w).trust = d.trust := rfl
@[simp] theorem Dev.wr_jtag (r : Reg) (w : Word) : (d.wr r w).jtag = d.jtag := rfl
@[simp] theorem Dev.wr_acqs (r : Reg) (w : Word) : (d.wr r w).acqs = d.acqs := rfl
@[simp] theorem Dev.wr_srcs (r : Reg) (w : Word) : (d.wr r w).srcs = d.srcs := rfl
@[simp] theorem Dev.wr_engines (r : Reg) (w : Word) : (d.wr r w).engines = d.engines := rfl
@[simp] theorem Dev.wr_nano (r : Reg) (w : Word) : (d.wr r w).nano = d.nano := rfl
@[simp] theorem Dev.wr_nanoStaged (r : Reg) (w : Word) : (d.wr r w).nanoStaged = d.nanoStaged := rfl
@[simp] theorem Dev.wr_mirrors (r : Reg) (w : Word) : (d.wr r w).mirrors = d.mirrors := rfl
@[simp] theorem Dev.wr_polls (r : Reg) (w : Word) : (d.wr r w).polls = d.polls := rfl
@[simp] theorem Dev.wr_phaseRef (r : Reg) (w : Word) : (d.wr r w).phaseRef = d.phaseRef := rfl
@[simp] theorem Dev.wr_freeIdx (r : Reg) (w : Word) : (d.wr r w).freeIdx = d.freeIdx := rfl

/-! ### Dev.set -/

@[simp] theorem Dev.set_now (r : Reg) (hi lo v : Nat) : (d.set r hi lo v).now = d.now := rfl
@[simp] theorem Dev.set_raw (r : Reg) (hi lo v : Nat) : (d.set r hi lo v).raw = d.raw := rfl
@[simp] theorem Dev.set_regs (r : Reg) (hi lo v : Nat) : (d.set r hi lo v).regs = (d.wr r (setBits (d.rd r) hi lo v)).regs := rfl
@[simp] theorem Dev.set_tbase (r : Reg) (hi lo v : Nat) : (d.set r hi lo v).tbase = d.tbase := rfl
@[simp] theorem Dev.set_ras (r : Reg) (hi lo v : Nat) : (d.set r hi lo v).ras = d.ras := rfl
@[simp] theorem Dev.set_dram (r : Reg) (hi lo v : Nat) : (d.set r hi lo v).dram = d.dram := rfl
@[simp] theorem Dev.set_rings (r : Reg) (hi lo v : Nat) : (d.set r hi lo v).rings = d.rings := rfl
@[simp] theorem Dev.set_ledger (r : Reg) (hi lo v : Nat) : (d.set r hi lo v).ledger = d.ledger := rfl
@[simp] theorem Dev.set_ports (r : Reg) (hi lo v : Nat) : (d.set r hi lo v).ports = d.ports := rfl
@[simp] theorem Dev.set_lanes (r : Reg) (hi lo v : Nat) : (d.set r hi lo v).lanes = d.lanes := rfl
@[simp] theorem Dev.set_sites (r : Reg) (hi lo v : Nat) : (d.set r hi lo v).sites = d.sites := rfl
@[simp] theorem Dev.set_chans (r : Reg) (hi lo v : Nat) : (d.set r hi lo v).chans = d.chans := rfl
@[simp] theorem Dev.set_chanSets (r : Reg) (hi lo v : Nat) : (d.set r hi lo v).chanSets = d.chanSets := rfl
@[simp] theorem Dev.set_periods (r : Reg) (hi lo v : Nat) : (d.set r hi lo v).periods = d.periods := rfl
@[simp] theorem Dev.set_sched (r : Reg) (hi lo v : Nat) : (d.set r hi lo v).sched = d.sched := rfl
@[simp] theorem Dev.set_stampIns (r : Reg) (hi lo v : Nat) : (d.set r hi lo v).stampIns = d.stampIns := rfl
@[simp] theorem Dev.set_intervals (r : Reg) (hi lo v : Nat) : (d.set r hi lo v).intervals = d.intervals := rfl
@[simp] theorem Dev.set_freqs (r : Reg) (hi lo v : Nat) : (d.set r hi lo v).freqs = d.freqs := rfl
@[simp] theorem Dev.set_cal (r : Reg) (hi lo v : Nat) : (d.set r hi lo v).cal = d.cal := rfl
@[simp] theorem Dev.set_trust (r : Reg) (hi lo v : Nat) : (d.set r hi lo v).trust = d.trust := rfl
@[simp] theorem Dev.set_jtag (r : Reg) (hi lo v : Nat) : (d.set r hi lo v).jtag = d.jtag := rfl
@[simp] theorem Dev.set_acqs (r : Reg) (hi lo v : Nat) : (d.set r hi lo v).acqs = d.acqs := rfl
@[simp] theorem Dev.set_srcs (r : Reg) (hi lo v : Nat) : (d.set r hi lo v).srcs = d.srcs := rfl
@[simp] theorem Dev.set_engines (r : Reg) (hi lo v : Nat) : (d.set r hi lo v).engines = d.engines := rfl
@[simp] theorem Dev.set_nano (r : Reg) (hi lo v : Nat) : (d.set r hi lo v).nano = d.nano := rfl
@[simp] theorem Dev.set_nanoStaged (r : Reg) (hi lo v : Nat) : (d.set r hi lo v).nanoStaged = d.nanoStaged := rfl
@[simp] theorem Dev.set_mirrors (r : Reg) (hi lo v : Nat) : (d.set r hi lo v).mirrors = d.mirrors := rfl
@[simp] theorem Dev.set_polls (r : Reg) (hi lo v : Nat) : (d.set r hi lo v).polls = d.polls := rfl
@[simp] theorem Dev.set_phaseRef (r : Reg) (hi lo v : Nat) : (d.set r hi lo v).phaseRef = d.phaseRef := rfl
@[simp] theorem Dev.set_freeIdx (r : Reg) (hi lo v : Nat) : (d.set r hi lo v).freeIdx = d.freeIdx := rfl

/-! ### Dev.raise -/

@[simp] theorem Dev.raise_now (r : Reg) (i : Nat) : (d.raise r i).now = d.now := rfl
@[simp] theorem Dev.raise_raw (r : Reg) (i : Nat) : (d.raise r i).raw = d.raw := rfl
@[simp] theorem Dev.raise_regs (r : Reg) (i : Nat) : (d.raise r i).regs = (d.set r i i 1).regs := rfl
@[simp] theorem Dev.raise_tbase (r : Reg) (i : Nat) : (d.raise r i).tbase = d.tbase := rfl
@[simp] theorem Dev.raise_ras (r : Reg) (i : Nat) : (d.raise r i).ras = d.ras := rfl
@[simp] theorem Dev.raise_dram (r : Reg) (i : Nat) : (d.raise r i).dram = d.dram := rfl
@[simp] theorem Dev.raise_rings (r : Reg) (i : Nat) : (d.raise r i).rings = d.rings := rfl
@[simp] theorem Dev.raise_ledger (r : Reg) (i : Nat) : (d.raise r i).ledger = d.ledger := rfl
@[simp] theorem Dev.raise_ports (r : Reg) (i : Nat) : (d.raise r i).ports = d.ports := rfl
@[simp] theorem Dev.raise_lanes (r : Reg) (i : Nat) : (d.raise r i).lanes = d.lanes := rfl
@[simp] theorem Dev.raise_sites (r : Reg) (i : Nat) : (d.raise r i).sites = d.sites := rfl
@[simp] theorem Dev.raise_chans (r : Reg) (i : Nat) : (d.raise r i).chans = d.chans := rfl
@[simp] theorem Dev.raise_chanSets (r : Reg) (i : Nat) : (d.raise r i).chanSets = d.chanSets := rfl
@[simp] theorem Dev.raise_periods (r : Reg) (i : Nat) : (d.raise r i).periods = d.periods := rfl
@[simp] theorem Dev.raise_sched (r : Reg) (i : Nat) : (d.raise r i).sched = d.sched := rfl
@[simp] theorem Dev.raise_stampIns (r : Reg) (i : Nat) : (d.raise r i).stampIns = d.stampIns := rfl
@[simp] theorem Dev.raise_intervals (r : Reg) (i : Nat) : (d.raise r i).intervals = d.intervals := rfl
@[simp] theorem Dev.raise_freqs (r : Reg) (i : Nat) : (d.raise r i).freqs = d.freqs := rfl
@[simp] theorem Dev.raise_cal (r : Reg) (i : Nat) : (d.raise r i).cal = d.cal := rfl
@[simp] theorem Dev.raise_trust (r : Reg) (i : Nat) : (d.raise r i).trust = d.trust := rfl
@[simp] theorem Dev.raise_jtag (r : Reg) (i : Nat) : (d.raise r i).jtag = d.jtag := rfl
@[simp] theorem Dev.raise_acqs (r : Reg) (i : Nat) : (d.raise r i).acqs = d.acqs := rfl
@[simp] theorem Dev.raise_srcs (r : Reg) (i : Nat) : (d.raise r i).srcs = d.srcs := rfl
@[simp] theorem Dev.raise_engines (r : Reg) (i : Nat) : (d.raise r i).engines = d.engines := rfl
@[simp] theorem Dev.raise_nano (r : Reg) (i : Nat) : (d.raise r i).nano = d.nano := rfl
@[simp] theorem Dev.raise_nanoStaged (r : Reg) (i : Nat) : (d.raise r i).nanoStaged = d.nanoStaged := rfl
@[simp] theorem Dev.raise_mirrors (r : Reg) (i : Nat) : (d.raise r i).mirrors = d.mirrors := rfl
@[simp] theorem Dev.raise_polls (r : Reg) (i : Nat) : (d.raise r i).polls = d.polls := rfl
@[simp] theorem Dev.raise_phaseRef (r : Reg) (i : Nat) : (d.raise r i).phaseRef = d.phaseRef := rfl
@[simp] theorem Dev.raise_freeIdx (r : Reg) (i : Nat) : (d.raise r i).freeIdx = d.freeIdx := rfl

/-! ### Dev.clear -/

@[simp] theorem Dev.clear_now (r : Reg) (i : Nat) : (d.clear r i).now = d.now := rfl
@[simp] theorem Dev.clear_raw (r : Reg) (i : Nat) : (d.clear r i).raw = d.raw := rfl
@[simp] theorem Dev.clear_regs (r : Reg) (i : Nat) : (d.clear r i).regs = (d.set r i i 0).regs := rfl
@[simp] theorem Dev.clear_tbase (r : Reg) (i : Nat) : (d.clear r i).tbase = d.tbase := rfl
@[simp] theorem Dev.clear_ras (r : Reg) (i : Nat) : (d.clear r i).ras = d.ras := rfl
@[simp] theorem Dev.clear_dram (r : Reg) (i : Nat) : (d.clear r i).dram = d.dram := rfl
@[simp] theorem Dev.clear_rings (r : Reg) (i : Nat) : (d.clear r i).rings = d.rings := rfl
@[simp] theorem Dev.clear_ledger (r : Reg) (i : Nat) : (d.clear r i).ledger = d.ledger := rfl
@[simp] theorem Dev.clear_ports (r : Reg) (i : Nat) : (d.clear r i).ports = d.ports := rfl
@[simp] theorem Dev.clear_lanes (r : Reg) (i : Nat) : (d.clear r i).lanes = d.lanes := rfl
@[simp] theorem Dev.clear_sites (r : Reg) (i : Nat) : (d.clear r i).sites = d.sites := rfl
@[simp] theorem Dev.clear_chans (r : Reg) (i : Nat) : (d.clear r i).chans = d.chans := rfl
@[simp] theorem Dev.clear_chanSets (r : Reg) (i : Nat) : (d.clear r i).chanSets = d.chanSets := rfl
@[simp] theorem Dev.clear_periods (r : Reg) (i : Nat) : (d.clear r i).periods = d.periods := rfl
@[simp] theorem Dev.clear_sched (r : Reg) (i : Nat) : (d.clear r i).sched = d.sched := rfl
@[simp] theorem Dev.clear_stampIns (r : Reg) (i : Nat) : (d.clear r i).stampIns = d.stampIns := rfl
@[simp] theorem Dev.clear_intervals (r : Reg) (i : Nat) : (d.clear r i).intervals = d.intervals := rfl
@[simp] theorem Dev.clear_freqs (r : Reg) (i : Nat) : (d.clear r i).freqs = d.freqs := rfl
@[simp] theorem Dev.clear_cal (r : Reg) (i : Nat) : (d.clear r i).cal = d.cal := rfl
@[simp] theorem Dev.clear_trust (r : Reg) (i : Nat) : (d.clear r i).trust = d.trust := rfl
@[simp] theorem Dev.clear_jtag (r : Reg) (i : Nat) : (d.clear r i).jtag = d.jtag := rfl
@[simp] theorem Dev.clear_acqs (r : Reg) (i : Nat) : (d.clear r i).acqs = d.acqs := rfl
@[simp] theorem Dev.clear_srcs (r : Reg) (i : Nat) : (d.clear r i).srcs = d.srcs := rfl
@[simp] theorem Dev.clear_engines (r : Reg) (i : Nat) : (d.clear r i).engines = d.engines := rfl
@[simp] theorem Dev.clear_nano (r : Reg) (i : Nat) : (d.clear r i).nano = d.nano := rfl
@[simp] theorem Dev.clear_nanoStaged (r : Reg) (i : Nat) : (d.clear r i).nanoStaged = d.nanoStaged := rfl
@[simp] theorem Dev.clear_mirrors (r : Reg) (i : Nat) : (d.clear r i).mirrors = d.mirrors := rfl
@[simp] theorem Dev.clear_polls (r : Reg) (i : Nat) : (d.clear r i).polls = d.polls := rfl
@[simp] theorem Dev.clear_phaseRef (r : Reg) (i : Nat) : (d.clear r i).phaseRef = d.phaseRef := rfl
@[simp] theorem Dev.clear_freeIdx (r : Reg) (i : Nat) : (d.clear r i).freeIdx = d.freeIdx := rfl

/-! ### Dev.store -/

@[simp] theorem Dev.store_now (r : Reg) (v : Word) : (d.store r v).now = d.now := rfl
@[simp] theorem Dev.store_raw (r : Reg) (v : Word) : (d.store r v).raw = d.raw := rfl
@[simp] theorem Dev.store_regs (r : Reg) (v : Word) : (d.store r v).regs = (d.wr r (plainWrite r.row (d.rd r) v 0)).regs := rfl
@[simp] theorem Dev.store_tbase (r : Reg) (v : Word) : (d.store r v).tbase = d.tbase := rfl
@[simp] theorem Dev.store_ras (r : Reg) (v : Word) : (d.store r v).ras = d.ras := rfl
@[simp] theorem Dev.store_dram (r : Reg) (v : Word) : (d.store r v).dram = d.dram := rfl
@[simp] theorem Dev.store_rings (r : Reg) (v : Word) : (d.store r v).rings = d.rings := rfl
@[simp] theorem Dev.store_ledger (r : Reg) (v : Word) : (d.store r v).ledger = d.ledger := rfl
@[simp] theorem Dev.store_ports (r : Reg) (v : Word) : (d.store r v).ports = d.ports := rfl
@[simp] theorem Dev.store_lanes (r : Reg) (v : Word) : (d.store r v).lanes = d.lanes := rfl
@[simp] theorem Dev.store_sites (r : Reg) (v : Word) : (d.store r v).sites = d.sites := rfl
@[simp] theorem Dev.store_chans (r : Reg) (v : Word) : (d.store r v).chans = d.chans := rfl
@[simp] theorem Dev.store_chanSets (r : Reg) (v : Word) : (d.store r v).chanSets = d.chanSets := rfl
@[simp] theorem Dev.store_periods (r : Reg) (v : Word) : (d.store r v).periods = d.periods := rfl
@[simp] theorem Dev.store_sched (r : Reg) (v : Word) : (d.store r v).sched = d.sched := rfl
@[simp] theorem Dev.store_stampIns (r : Reg) (v : Word) : (d.store r v).stampIns = d.stampIns := rfl
@[simp] theorem Dev.store_intervals (r : Reg) (v : Word) : (d.store r v).intervals = d.intervals := rfl
@[simp] theorem Dev.store_freqs (r : Reg) (v : Word) : (d.store r v).freqs = d.freqs := rfl
@[simp] theorem Dev.store_cal (r : Reg) (v : Word) : (d.store r v).cal = d.cal := rfl
@[simp] theorem Dev.store_trust (r : Reg) (v : Word) : (d.store r v).trust = d.trust := rfl
@[simp] theorem Dev.store_jtag (r : Reg) (v : Word) : (d.store r v).jtag = d.jtag := rfl
@[simp] theorem Dev.store_acqs (r : Reg) (v : Word) : (d.store r v).acqs = d.acqs := rfl
@[simp] theorem Dev.store_srcs (r : Reg) (v : Word) : (d.store r v).srcs = d.srcs := rfl
@[simp] theorem Dev.store_engines (r : Reg) (v : Word) : (d.store r v).engines = d.engines := rfl
@[simp] theorem Dev.store_nano (r : Reg) (v : Word) : (d.store r v).nano = d.nano := rfl
@[simp] theorem Dev.store_nanoStaged (r : Reg) (v : Word) : (d.store r v).nanoStaged = d.nanoStaged := rfl
@[simp] theorem Dev.store_mirrors (r : Reg) (v : Word) : (d.store r v).mirrors = d.mirrors := rfl
@[simp] theorem Dev.store_polls (r : Reg) (v : Word) : (d.store r v).polls = d.polls := rfl
@[simp] theorem Dev.store_phaseRef (r : Reg) (v : Word) : (d.store r v).phaseRef = d.phaseRef := rfl
@[simp] theorem Dev.store_freeIdx (r : Reg) (v : Word) : (d.store r v).freeIdx = d.freeIdx := rfl

/-! ### Dev.modPort -/

@[simp] theorem Dev.modPort_now (k : Nat) (f : Port → Port) : (d.modPort k f).now = d.now := rfl
@[simp] theorem Dev.modPort_raw (k : Nat) (f : Port → Port) : (d.modPort k f).raw = d.raw := rfl
@[simp] theorem Dev.modPort_regs (k : Nat) (f : Port → Port) : (d.modPort k f).regs = d.regs := rfl
@[simp] theorem Dev.modPort_tbase (k : Nat) (f : Port → Port) : (d.modPort k f).tbase = d.tbase := rfl
@[simp] theorem Dev.modPort_ras (k : Nat) (f : Port → Port) : (d.modPort k f).ras = d.ras := rfl
@[simp] theorem Dev.modPort_dram (k : Nat) (f : Port → Port) : (d.modPort k f).dram = d.dram := rfl
@[simp] theorem Dev.modPort_rings (k : Nat) (f : Port → Port) : (d.modPort k f).rings = d.rings := rfl
@[simp] theorem Dev.modPort_ledger (k : Nat) (f : Port → Port) : (d.modPort k f).ledger = d.ledger := rfl
@[simp] theorem Dev.modPort_ports (k : Nat) (f : Port → Port) : (d.modPort k f).ports = d.ports.put {} k (f (d.port k)) := rfl
@[simp] theorem Dev.modPort_lanes (k : Nat) (f : Port → Port) : (d.modPort k f).lanes = d.lanes := rfl
@[simp] theorem Dev.modPort_sites (k : Nat) (f : Port → Port) : (d.modPort k f).sites = d.sites := rfl
@[simp] theorem Dev.modPort_chans (k : Nat) (f : Port → Port) : (d.modPort k f).chans = d.chans := rfl
@[simp] theorem Dev.modPort_chanSets (k : Nat) (f : Port → Port) : (d.modPort k f).chanSets = d.chanSets := rfl
@[simp] theorem Dev.modPort_periods (k : Nat) (f : Port → Port) : (d.modPort k f).periods = d.periods := rfl
@[simp] theorem Dev.modPort_sched (k : Nat) (f : Port → Port) : (d.modPort k f).sched = d.sched := rfl
@[simp] theorem Dev.modPort_stampIns (k : Nat) (f : Port → Port) : (d.modPort k f).stampIns = d.stampIns := rfl
@[simp] theorem Dev.modPort_intervals (k : Nat) (f : Port → Port) : (d.modPort k f).intervals = d.intervals := rfl
@[simp] theorem Dev.modPort_freqs (k : Nat) (f : Port → Port) : (d.modPort k f).freqs = d.freqs := rfl
@[simp] theorem Dev.modPort_cal (k : Nat) (f : Port → Port) : (d.modPort k f).cal = d.cal := rfl
@[simp] theorem Dev.modPort_trust (k : Nat) (f : Port → Port) : (d.modPort k f).trust = d.trust := rfl
@[simp] theorem Dev.modPort_jtag (k : Nat) (f : Port → Port) : (d.modPort k f).jtag = d.jtag := rfl
@[simp] theorem Dev.modPort_acqs (k : Nat) (f : Port → Port) : (d.modPort k f).acqs = d.acqs := rfl
@[simp] theorem Dev.modPort_srcs (k : Nat) (f : Port → Port) : (d.modPort k f).srcs = d.srcs := rfl
@[simp] theorem Dev.modPort_engines (k : Nat) (f : Port → Port) : (d.modPort k f).engines = d.engines := rfl
@[simp] theorem Dev.modPort_nano (k : Nat) (f : Port → Port) : (d.modPort k f).nano = d.nano := rfl
@[simp] theorem Dev.modPort_nanoStaged (k : Nat) (f : Port → Port) : (d.modPort k f).nanoStaged = d.nanoStaged := rfl
@[simp] theorem Dev.modPort_mirrors (k : Nat) (f : Port → Port) : (d.modPort k f).mirrors = d.mirrors := rfl
@[simp] theorem Dev.modPort_polls (k : Nat) (f : Port → Port) : (d.modPort k f).polls = d.polls := rfl
@[simp] theorem Dev.modPort_phaseRef (k : Nat) (f : Port → Port) : (d.modPort k f).phaseRef = d.phaseRef := rfl
@[simp] theorem Dev.modPort_freeIdx (k : Nat) (f : Port → Port) : (d.modPort k f).freeIdx = d.freeIdx := rfl

/-! ### Dev.modLane -/

@[simp] theorem Dev.modLane_now (k : Nat) (f : Lane → Lane) : (d.modLane k f).now = d.now := rfl
@[simp] theorem Dev.modLane_raw (k : Nat) (f : Lane → Lane) : (d.modLane k f).raw = d.raw := rfl
@[simp] theorem Dev.modLane_regs (k : Nat) (f : Lane → Lane) : (d.modLane k f).regs = d.regs := rfl
@[simp] theorem Dev.modLane_tbase (k : Nat) (f : Lane → Lane) : (d.modLane k f).tbase = d.tbase := rfl
@[simp] theorem Dev.modLane_ras (k : Nat) (f : Lane → Lane) : (d.modLane k f).ras = d.ras := rfl
@[simp] theorem Dev.modLane_dram (k : Nat) (f : Lane → Lane) : (d.modLane k f).dram = d.dram := rfl
@[simp] theorem Dev.modLane_rings (k : Nat) (f : Lane → Lane) : (d.modLane k f).rings = d.rings := rfl
@[simp] theorem Dev.modLane_ledger (k : Nat) (f : Lane → Lane) : (d.modLane k f).ledger = d.ledger := rfl
@[simp] theorem Dev.modLane_ports (k : Nat) (f : Lane → Lane) : (d.modLane k f).ports = d.ports := rfl
@[simp] theorem Dev.modLane_lanes (k : Nat) (f : Lane → Lane) : (d.modLane k f).lanes = d.lanes.put {} k (f (d.lane k)) := rfl
@[simp] theorem Dev.modLane_sites (k : Nat) (f : Lane → Lane) : (d.modLane k f).sites = d.sites := rfl
@[simp] theorem Dev.modLane_chans (k : Nat) (f : Lane → Lane) : (d.modLane k f).chans = d.chans := rfl
@[simp] theorem Dev.modLane_chanSets (k : Nat) (f : Lane → Lane) : (d.modLane k f).chanSets = d.chanSets := rfl
@[simp] theorem Dev.modLane_periods (k : Nat) (f : Lane → Lane) : (d.modLane k f).periods = d.periods := rfl
@[simp] theorem Dev.modLane_sched (k : Nat) (f : Lane → Lane) : (d.modLane k f).sched = d.sched := rfl
@[simp] theorem Dev.modLane_stampIns (k : Nat) (f : Lane → Lane) : (d.modLane k f).stampIns = d.stampIns := rfl
@[simp] theorem Dev.modLane_intervals (k : Nat) (f : Lane → Lane) : (d.modLane k f).intervals = d.intervals := rfl
@[simp] theorem Dev.modLane_freqs (k : Nat) (f : Lane → Lane) : (d.modLane k f).freqs = d.freqs := rfl
@[simp] theorem Dev.modLane_cal (k : Nat) (f : Lane → Lane) : (d.modLane k f).cal = d.cal := rfl
@[simp] theorem Dev.modLane_trust (k : Nat) (f : Lane → Lane) : (d.modLane k f).trust = d.trust := rfl
@[simp] theorem Dev.modLane_jtag (k : Nat) (f : Lane → Lane) : (d.modLane k f).jtag = d.jtag := rfl
@[simp] theorem Dev.modLane_acqs (k : Nat) (f : Lane → Lane) : (d.modLane k f).acqs = d.acqs := rfl
@[simp] theorem Dev.modLane_srcs (k : Nat) (f : Lane → Lane) : (d.modLane k f).srcs = d.srcs := rfl
@[simp] theorem Dev.modLane_engines (k : Nat) (f : Lane → Lane) : (d.modLane k f).engines = d.engines := rfl
@[simp] theorem Dev.modLane_nano (k : Nat) (f : Lane → Lane) : (d.modLane k f).nano = d.nano := rfl
@[simp] theorem Dev.modLane_nanoStaged (k : Nat) (f : Lane → Lane) : (d.modLane k f).nanoStaged = d.nanoStaged := rfl
@[simp] theorem Dev.modLane_mirrors (k : Nat) (f : Lane → Lane) : (d.modLane k f).mirrors = d.mirrors := rfl
@[simp] theorem Dev.modLane_polls (k : Nat) (f : Lane → Lane) : (d.modLane k f).polls = d.polls := rfl
@[simp] theorem Dev.modLane_phaseRef (k : Nat) (f : Lane → Lane) : (d.modLane k f).phaseRef = d.phaseRef := rfl
@[simp] theorem Dev.modLane_freeIdx (k : Nat) (f : Lane → Lane) : (d.modLane k f).freeIdx = d.freeIdx := rfl

/-! ### Dev.modSite -/

@[simp] theorem Dev.modSite_now (k : Nat) (f : Site → Site) : (d.modSite k f).now = d.now := rfl
@[simp] theorem Dev.modSite_raw (k : Nat) (f : Site → Site) : (d.modSite k f).raw = d.raw := rfl
@[simp] theorem Dev.modSite_regs (k : Nat) (f : Site → Site) : (d.modSite k f).regs = d.regs := rfl
@[simp] theorem Dev.modSite_tbase (k : Nat) (f : Site → Site) : (d.modSite k f).tbase = d.tbase := rfl
@[simp] theorem Dev.modSite_ras (k : Nat) (f : Site → Site) : (d.modSite k f).ras = d.ras := rfl
@[simp] theorem Dev.modSite_dram (k : Nat) (f : Site → Site) : (d.modSite k f).dram = d.dram := rfl
@[simp] theorem Dev.modSite_rings (k : Nat) (f : Site → Site) : (d.modSite k f).rings = d.rings := rfl
@[simp] theorem Dev.modSite_ledger (k : Nat) (f : Site → Site) : (d.modSite k f).ledger = d.ledger := rfl
@[simp] theorem Dev.modSite_ports (k : Nat) (f : Site → Site) : (d.modSite k f).ports = d.ports := rfl
@[simp] theorem Dev.modSite_lanes (k : Nat) (f : Site → Site) : (d.modSite k f).lanes = d.lanes := rfl
@[simp] theorem Dev.modSite_sites (k : Nat) (f : Site → Site) : (d.modSite k f).sites = d.sites.put {} k (f (d.site k)) := rfl
@[simp] theorem Dev.modSite_chans (k : Nat) (f : Site → Site) : (d.modSite k f).chans = d.chans := rfl
@[simp] theorem Dev.modSite_chanSets (k : Nat) (f : Site → Site) : (d.modSite k f).chanSets = d.chanSets := rfl
@[simp] theorem Dev.modSite_periods (k : Nat) (f : Site → Site) : (d.modSite k f).periods = d.periods := rfl
@[simp] theorem Dev.modSite_sched (k : Nat) (f : Site → Site) : (d.modSite k f).sched = d.sched := rfl
@[simp] theorem Dev.modSite_stampIns (k : Nat) (f : Site → Site) : (d.modSite k f).stampIns = d.stampIns := rfl
@[simp] theorem Dev.modSite_intervals (k : Nat) (f : Site → Site) : (d.modSite k f).intervals = d.intervals := rfl
@[simp] theorem Dev.modSite_freqs (k : Nat) (f : Site → Site) : (d.modSite k f).freqs = d.freqs := rfl
@[simp] theorem Dev.modSite_cal (k : Nat) (f : Site → Site) : (d.modSite k f).cal = d.cal := rfl
@[simp] theorem Dev.modSite_trust (k : Nat) (f : Site → Site) : (d.modSite k f).trust = d.trust := rfl
@[simp] theorem Dev.modSite_jtag (k : Nat) (f : Site → Site) : (d.modSite k f).jtag = d.jtag := rfl
@[simp] theorem Dev.modSite_acqs (k : Nat) (f : Site → Site) : (d.modSite k f).acqs = d.acqs := rfl
@[simp] theorem Dev.modSite_srcs (k : Nat) (f : Site → Site) : (d.modSite k f).srcs = d.srcs := rfl
@[simp] theorem Dev.modSite_engines (k : Nat) (f : Site → Site) : (d.modSite k f).engines = d.engines := rfl
@[simp] theorem Dev.modSite_nano (k : Nat) (f : Site → Site) : (d.modSite k f).nano = d.nano := rfl
@[simp] theorem Dev.modSite_nanoStaged (k : Nat) (f : Site → Site) : (d.modSite k f).nanoStaged = d.nanoStaged := rfl
@[simp] theorem Dev.modSite_mirrors (k : Nat) (f : Site → Site) : (d.modSite k f).mirrors = d.mirrors := rfl
@[simp] theorem Dev.modSite_polls (k : Nat) (f : Site → Site) : (d.modSite k f).polls = d.polls := rfl
@[simp] theorem Dev.modSite_phaseRef (k : Nat) (f : Site → Site) : (d.modSite k f).phaseRef = d.phaseRef := rfl
@[simp] theorem Dev.modSite_freeIdx (k : Nat) (f : Site → Site) : (d.modSite k f).freeIdx = d.freeIdx := rfl

/-! ### Dev.modEngine -/

@[simp] theorem Dev.modEngine_now (k : Nat) (f : Engine → Engine) : (d.modEngine k f).now = d.now := rfl
@[simp] theorem Dev.modEngine_raw (k : Nat) (f : Engine → Engine) : (d.modEngine k f).raw = d.raw := rfl
@[simp] theorem Dev.modEngine_regs (k : Nat) (f : Engine → Engine) : (d.modEngine k f).regs = d.regs := rfl
@[simp] theorem Dev.modEngine_tbase (k : Nat) (f : Engine → Engine) : (d.modEngine k f).tbase = d.tbase := rfl
@[simp] theorem Dev.modEngine_ras (k : Nat) (f : Engine → Engine) : (d.modEngine k f).ras = d.ras := rfl
@[simp] theorem Dev.modEngine_dram (k : Nat) (f : Engine → Engine) : (d.modEngine k f).dram = d.dram := rfl
@[simp] theorem Dev.modEngine_rings (k : Nat) (f : Engine → Engine) : (d.modEngine k f).rings = d.rings := rfl
@[simp] theorem Dev.modEngine_ledger (k : Nat) (f : Engine → Engine) : (d.modEngine k f).ledger = d.ledger := rfl
@[simp] theorem Dev.modEngine_ports (k : Nat) (f : Engine → Engine) : (d.modEngine k f).ports = d.ports := rfl
@[simp] theorem Dev.modEngine_lanes (k : Nat) (f : Engine → Engine) : (d.modEngine k f).lanes = d.lanes := rfl
@[simp] theorem Dev.modEngine_sites (k : Nat) (f : Engine → Engine) : (d.modEngine k f).sites = d.sites := rfl
@[simp] theorem Dev.modEngine_chans (k : Nat) (f : Engine → Engine) : (d.modEngine k f).chans = d.chans := rfl
@[simp] theorem Dev.modEngine_chanSets (k : Nat) (f : Engine → Engine) : (d.modEngine k f).chanSets = d.chanSets := rfl
@[simp] theorem Dev.modEngine_periods (k : Nat) (f : Engine → Engine) : (d.modEngine k f).periods = d.periods := rfl
@[simp] theorem Dev.modEngine_sched (k : Nat) (f : Engine → Engine) : (d.modEngine k f).sched = d.sched := rfl
@[simp] theorem Dev.modEngine_stampIns (k : Nat) (f : Engine → Engine) : (d.modEngine k f).stampIns = d.stampIns := rfl
@[simp] theorem Dev.modEngine_intervals (k : Nat) (f : Engine → Engine) : (d.modEngine k f).intervals = d.intervals := rfl
@[simp] theorem Dev.modEngine_freqs (k : Nat) (f : Engine → Engine) : (d.modEngine k f).freqs = d.freqs := rfl
@[simp] theorem Dev.modEngine_cal (k : Nat) (f : Engine → Engine) : (d.modEngine k f).cal = d.cal := rfl
@[simp] theorem Dev.modEngine_trust (k : Nat) (f : Engine → Engine) : (d.modEngine k f).trust = d.trust := rfl
@[simp] theorem Dev.modEngine_jtag (k : Nat) (f : Engine → Engine) : (d.modEngine k f).jtag = d.jtag := rfl
@[simp] theorem Dev.modEngine_acqs (k : Nat) (f : Engine → Engine) : (d.modEngine k f).acqs = d.acqs := rfl
@[simp] theorem Dev.modEngine_srcs (k : Nat) (f : Engine → Engine) : (d.modEngine k f).srcs = d.srcs := rfl
@[simp] theorem Dev.modEngine_engines (k : Nat) (f : Engine → Engine) : (d.modEngine k f).engines = d.engines.put {} k (f (d.engine k)) := rfl
@[simp] theorem Dev.modEngine_nano (k : Nat) (f : Engine → Engine) : (d.modEngine k f).nano = d.nano := rfl
@[simp] theorem Dev.modEngine_nanoStaged (k : Nat) (f : Engine → Engine) : (d.modEngine k f).nanoStaged = d.nanoStaged := rfl
@[simp] theorem Dev.modEngine_mirrors (k : Nat) (f : Engine → Engine) : (d.modEngine k f).mirrors = d.mirrors := rfl
@[simp] theorem Dev.modEngine_polls (k : Nat) (f : Engine → Engine) : (d.modEngine k f).polls = d.polls := rfl
@[simp] theorem Dev.modEngine_phaseRef (k : Nat) (f : Engine → Engine) : (d.modEngine k f).phaseRef = d.phaseRef := rfl
@[simp] theorem Dev.modEngine_freeIdx (k : Nat) (f : Engine → Engine) : (d.modEngine k f).freeIdx = d.freeIdx := rfl

/-! ### Dev.modRing -/

@[simp] theorem Dev.modRing_now (k : Nat) (f : Ring → Ring) : (d.modRing k f).now = d.now := rfl
@[simp] theorem Dev.modRing_raw (k : Nat) (f : Ring → Ring) : (d.modRing k f).raw = d.raw := rfl
@[simp] theorem Dev.modRing_regs (k : Nat) (f : Ring → Ring) : (d.modRing k f).regs = d.regs := rfl
@[simp] theorem Dev.modRing_tbase (k : Nat) (f : Ring → Ring) : (d.modRing k f).tbase = d.tbase := rfl
@[simp] theorem Dev.modRing_ras (k : Nat) (f : Ring → Ring) : (d.modRing k f).ras = d.ras := rfl
@[simp] theorem Dev.modRing_dram (k : Nat) (f : Ring → Ring) : (d.modRing k f).dram = d.dram := rfl
@[simp] theorem Dev.modRing_rings (k : Nat) (f : Ring → Ring) : (d.modRing k f).rings = d.rings.put {} k (f (d.ring k)) := rfl
@[simp] theorem Dev.modRing_ledger (k : Nat) (f : Ring → Ring) : (d.modRing k f).ledger = d.ledger := rfl
@[simp] theorem Dev.modRing_ports (k : Nat) (f : Ring → Ring) : (d.modRing k f).ports = d.ports := rfl
@[simp] theorem Dev.modRing_lanes (k : Nat) (f : Ring → Ring) : (d.modRing k f).lanes = d.lanes := rfl
@[simp] theorem Dev.modRing_sites (k : Nat) (f : Ring → Ring) : (d.modRing k f).sites = d.sites := rfl
@[simp] theorem Dev.modRing_chans (k : Nat) (f : Ring → Ring) : (d.modRing k f).chans = d.chans := rfl
@[simp] theorem Dev.modRing_chanSets (k : Nat) (f : Ring → Ring) : (d.modRing k f).chanSets = d.chanSets := rfl
@[simp] theorem Dev.modRing_periods (k : Nat) (f : Ring → Ring) : (d.modRing k f).periods = d.periods := rfl
@[simp] theorem Dev.modRing_sched (k : Nat) (f : Ring → Ring) : (d.modRing k f).sched = d.sched := rfl
@[simp] theorem Dev.modRing_stampIns (k : Nat) (f : Ring → Ring) : (d.modRing k f).stampIns = d.stampIns := rfl
@[simp] theorem Dev.modRing_intervals (k : Nat) (f : Ring → Ring) : (d.modRing k f).intervals = d.intervals := rfl
@[simp] theorem Dev.modRing_freqs (k : Nat) (f : Ring → Ring) : (d.modRing k f).freqs = d.freqs := rfl
@[simp] theorem Dev.modRing_cal (k : Nat) (f : Ring → Ring) : (d.modRing k f).cal = d.cal := rfl
@[simp] theorem Dev.modRing_trust (k : Nat) (f : Ring → Ring) : (d.modRing k f).trust = d.trust := rfl
@[simp] theorem Dev.modRing_jtag (k : Nat) (f : Ring → Ring) : (d.modRing k f).jtag = d.jtag := rfl
@[simp] theorem Dev.modRing_acqs (k : Nat) (f : Ring → Ring) : (d.modRing k f).acqs = d.acqs := rfl
@[simp] theorem Dev.modRing_srcs (k : Nat) (f : Ring → Ring) : (d.modRing k f).srcs = d.srcs := rfl
@[simp] theorem Dev.modRing_engines (k : Nat) (f : Ring → Ring) : (d.modRing k f).engines = d.engines := rfl
@[simp] theorem Dev.modRing_nano (k : Nat) (f : Ring → Ring) : (d.modRing k f).nano = d.nano := rfl
@[simp] theorem Dev.modRing_nanoStaged (k : Nat) (f : Ring → Ring) : (d.modRing k f).nanoStaged = d.nanoStaged := rfl
@[simp] theorem Dev.modRing_mirrors (k : Nat) (f : Ring → Ring) : (d.modRing k f).mirrors = d.mirrors := rfl
@[simp] theorem Dev.modRing_polls (k : Nat) (f : Ring → Ring) : (d.modRing k f).polls = d.polls := rfl
@[simp] theorem Dev.modRing_phaseRef (k : Nat) (f : Ring → Ring) : (d.modRing k f).phaseRef = d.phaseRef := rfl
@[simp] theorem Dev.modRing_freeIdx (k : Nat) (f : Ring → Ring) : (d.modRing k f).freeIdx = d.freeIdx := rfl

/-! ### Dev.modChan -/

@[simp] theorem Dev.modChan_now (k : Nat) (f : Chan → Chan) : (d.modChan k f).now = d.now := rfl
@[simp] theorem Dev.modChan_raw (k : Nat) (f : Chan → Chan) : (d.modChan k f).raw = d.raw := rfl
@[simp] theorem Dev.modChan_regs (k : Nat) (f : Chan → Chan) : (d.modChan k f).regs = d.regs := rfl
@[simp] theorem Dev.modChan_tbase (k : Nat) (f : Chan → Chan) : (d.modChan k f).tbase = d.tbase := rfl
@[simp] theorem Dev.modChan_ras (k : Nat) (f : Chan → Chan) : (d.modChan k f).ras = d.ras := rfl
@[simp] theorem Dev.modChan_dram (k : Nat) (f : Chan → Chan) : (d.modChan k f).dram = d.dram := rfl
@[simp] theorem Dev.modChan_rings (k : Nat) (f : Chan → Chan) : (d.modChan k f).rings = d.rings := rfl
@[simp] theorem Dev.modChan_ledger (k : Nat) (f : Chan → Chan) : (d.modChan k f).ledger = d.ledger := rfl
@[simp] theorem Dev.modChan_ports (k : Nat) (f : Chan → Chan) : (d.modChan k f).ports = d.ports := rfl
@[simp] theorem Dev.modChan_lanes (k : Nat) (f : Chan → Chan) : (d.modChan k f).lanes = d.lanes := rfl
@[simp] theorem Dev.modChan_sites (k : Nat) (f : Chan → Chan) : (d.modChan k f).sites = d.sites := rfl
@[simp] theorem Dev.modChan_chans (k : Nat) (f : Chan → Chan) : (d.modChan k f).chans = d.chans.put {} k (f (d.chan k)) := rfl
@[simp] theorem Dev.modChan_chanSets (k : Nat) (f : Chan → Chan) : (d.modChan k f).chanSets = d.chanSets := rfl
@[simp] theorem Dev.modChan_periods (k : Nat) (f : Chan → Chan) : (d.modChan k f).periods = d.periods := rfl
@[simp] theorem Dev.modChan_sched (k : Nat) (f : Chan → Chan) : (d.modChan k f).sched = d.sched := rfl
@[simp] theorem Dev.modChan_stampIns (k : Nat) (f : Chan → Chan) : (d.modChan k f).stampIns = d.stampIns := rfl
@[simp] theorem Dev.modChan_intervals (k : Nat) (f : Chan → Chan) : (d.modChan k f).intervals = d.intervals := rfl
@[simp] theorem Dev.modChan_freqs (k : Nat) (f : Chan → Chan) : (d.modChan k f).freqs = d.freqs := rfl
@[simp] theorem Dev.modChan_cal (k : Nat) (f : Chan → Chan) : (d.modChan k f).cal = d.cal := rfl
@[simp] theorem Dev.modChan_trust (k : Nat) (f : Chan → Chan) : (d.modChan k f).trust = d.trust := rfl
@[simp] theorem Dev.modChan_jtag (k : Nat) (f : Chan → Chan) : (d.modChan k f).jtag = d.jtag := rfl
@[simp] theorem Dev.modChan_acqs (k : Nat) (f : Chan → Chan) : (d.modChan k f).acqs = d.acqs := rfl
@[simp] theorem Dev.modChan_srcs (k : Nat) (f : Chan → Chan) : (d.modChan k f).srcs = d.srcs := rfl
@[simp] theorem Dev.modChan_engines (k : Nat) (f : Chan → Chan) : (d.modChan k f).engines = d.engines := rfl
@[simp] theorem Dev.modChan_nano (k : Nat) (f : Chan → Chan) : (d.modChan k f).nano = d.nano := rfl
@[simp] theorem Dev.modChan_nanoStaged (k : Nat) (f : Chan → Chan) : (d.modChan k f).nanoStaged = d.nanoStaged := rfl
@[simp] theorem Dev.modChan_mirrors (k : Nat) (f : Chan → Chan) : (d.modChan k f).mirrors = d.mirrors := rfl
@[simp] theorem Dev.modChan_polls (k : Nat) (f : Chan → Chan) : (d.modChan k f).polls = d.polls := rfl
@[simp] theorem Dev.modChan_phaseRef (k : Nat) (f : Chan → Chan) : (d.modChan k f).phaseRef = d.phaseRef := rfl
@[simp] theorem Dev.modChan_freeIdx (k : Nat) (f : Chan → Chan) : (d.modChan k f).freeIdx = d.freeIdx := rfl

/-! ### Dev.modAcq -/

@[simp] theorem Dev.modAcq_now (k : Nat) (f : Acq → Acq) : (d.modAcq k f).now = d.now := rfl
@[simp] theorem Dev.modAcq_raw (k : Nat) (f : Acq → Acq) : (d.modAcq k f).raw = d.raw := rfl
@[simp] theorem Dev.modAcq_regs (k : Nat) (f : Acq → Acq) : (d.modAcq k f).regs = d.regs := rfl
@[simp] theorem Dev.modAcq_tbase (k : Nat) (f : Acq → Acq) : (d.modAcq k f).tbase = d.tbase := rfl
@[simp] theorem Dev.modAcq_ras (k : Nat) (f : Acq → Acq) : (d.modAcq k f).ras = d.ras := rfl
@[simp] theorem Dev.modAcq_dram (k : Nat) (f : Acq → Acq) : (d.modAcq k f).dram = d.dram := rfl
@[simp] theorem Dev.modAcq_rings (k : Nat) (f : Acq → Acq) : (d.modAcq k f).rings = d.rings := rfl
@[simp] theorem Dev.modAcq_ledger (k : Nat) (f : Acq → Acq) : (d.modAcq k f).ledger = d.ledger := rfl
@[simp] theorem Dev.modAcq_ports (k : Nat) (f : Acq → Acq) : (d.modAcq k f).ports = d.ports := rfl
@[simp] theorem Dev.modAcq_lanes (k : Nat) (f : Acq → Acq) : (d.modAcq k f).lanes = d.lanes := rfl
@[simp] theorem Dev.modAcq_sites (k : Nat) (f : Acq → Acq) : (d.modAcq k f).sites = d.sites := rfl
@[simp] theorem Dev.modAcq_chans (k : Nat) (f : Acq → Acq) : (d.modAcq k f).chans = d.chans := rfl
@[simp] theorem Dev.modAcq_chanSets (k : Nat) (f : Acq → Acq) : (d.modAcq k f).chanSets = d.chanSets := rfl
@[simp] theorem Dev.modAcq_periods (k : Nat) (f : Acq → Acq) : (d.modAcq k f).periods = d.periods := rfl
@[simp] theorem Dev.modAcq_sched (k : Nat) (f : Acq → Acq) : (d.modAcq k f).sched = d.sched := rfl
@[simp] theorem Dev.modAcq_stampIns (k : Nat) (f : Acq → Acq) : (d.modAcq k f).stampIns = d.stampIns := rfl
@[simp] theorem Dev.modAcq_intervals (k : Nat) (f : Acq → Acq) : (d.modAcq k f).intervals = d.intervals := rfl
@[simp] theorem Dev.modAcq_freqs (k : Nat) (f : Acq → Acq) : (d.modAcq k f).freqs = d.freqs := rfl
@[simp] theorem Dev.modAcq_cal (k : Nat) (f : Acq → Acq) : (d.modAcq k f).cal = d.cal := rfl
@[simp] theorem Dev.modAcq_trust (k : Nat) (f : Acq → Acq) : (d.modAcq k f).trust = d.trust := rfl
@[simp] theorem Dev.modAcq_jtag (k : Nat) (f : Acq → Acq) : (d.modAcq k f).jtag = d.jtag := rfl
@[simp] theorem Dev.modAcq_acqs (k : Nat) (f : Acq → Acq) : (d.modAcq k f).acqs = d.acqs.put {} k (f (d.acq k)) := rfl
@[simp] theorem Dev.modAcq_srcs (k : Nat) (f : Acq → Acq) : (d.modAcq k f).srcs = d.srcs := rfl
@[simp] theorem Dev.modAcq_engines (k : Nat) (f : Acq → Acq) : (d.modAcq k f).engines = d.engines := rfl
@[simp] theorem Dev.modAcq_nano (k : Nat) (f : Acq → Acq) : (d.modAcq k f).nano = d.nano := rfl
@[simp] theorem Dev.modAcq_nanoStaged (k : Nat) (f : Acq → Acq) : (d.modAcq k f).nanoStaged = d.nanoStaged := rfl
@[simp] theorem Dev.modAcq_mirrors (k : Nat) (f : Acq → Acq) : (d.modAcq k f).mirrors = d.mirrors := rfl
@[simp] theorem Dev.modAcq_polls (k : Nat) (f : Acq → Acq) : (d.modAcq k f).polls = d.polls := rfl
@[simp] theorem Dev.modAcq_phaseRef (k : Nat) (f : Acq → Acq) : (d.modAcq k f).phaseRef = d.phaseRef := rfl
@[simp] theorem Dev.modAcq_freeIdx (k : Nat) (f : Acq → Acq) : (d.modAcq k f).freeIdx = d.freeIdx := rfl

/-! ### Dev.modSrc -/

@[simp] theorem Dev.modSrc_now (k : Nat) (f : Source → Source) : (d.modSrc k f).now = d.now := rfl
@[simp] theorem Dev.modSrc_raw (k : Nat) (f : Source → Source) : (d.modSrc k f).raw = d.raw := rfl
@[simp] theorem Dev.modSrc_regs (k : Nat) (f : Source → Source) : (d.modSrc k f).regs = d.regs := rfl
@[simp] theorem Dev.modSrc_tbase (k : Nat) (f : Source → Source) : (d.modSrc k f).tbase = d.tbase := rfl
@[simp] theorem Dev.modSrc_ras (k : Nat) (f : Source → Source) : (d.modSrc k f).ras = d.ras := rfl
@[simp] theorem Dev.modSrc_dram (k : Nat) (f : Source → Source) : (d.modSrc k f).dram = d.dram := rfl
@[simp] theorem Dev.modSrc_rings (k : Nat) (f : Source → Source) : (d.modSrc k f).rings = d.rings := rfl
@[simp] theorem Dev.modSrc_ledger (k : Nat) (f : Source → Source) : (d.modSrc k f).ledger = d.ledger := rfl
@[simp] theorem Dev.modSrc_ports (k : Nat) (f : Source → Source) : (d.modSrc k f).ports = d.ports := rfl
@[simp] theorem Dev.modSrc_lanes (k : Nat) (f : Source → Source) : (d.modSrc k f).lanes = d.lanes := rfl
@[simp] theorem Dev.modSrc_sites (k : Nat) (f : Source → Source) : (d.modSrc k f).sites = d.sites := rfl
@[simp] theorem Dev.modSrc_chans (k : Nat) (f : Source → Source) : (d.modSrc k f).chans = d.chans := rfl
@[simp] theorem Dev.modSrc_chanSets (k : Nat) (f : Source → Source) : (d.modSrc k f).chanSets = d.chanSets := rfl
@[simp] theorem Dev.modSrc_periods (k : Nat) (f : Source → Source) : (d.modSrc k f).periods = d.periods := rfl
@[simp] theorem Dev.modSrc_sched (k : Nat) (f : Source → Source) : (d.modSrc k f).sched = d.sched := rfl
@[simp] theorem Dev.modSrc_stampIns (k : Nat) (f : Source → Source) : (d.modSrc k f).stampIns = d.stampIns := rfl
@[simp] theorem Dev.modSrc_intervals (k : Nat) (f : Source → Source) : (d.modSrc k f).intervals = d.intervals := rfl
@[simp] theorem Dev.modSrc_freqs (k : Nat) (f : Source → Source) : (d.modSrc k f).freqs = d.freqs := rfl
@[simp] theorem Dev.modSrc_cal (k : Nat) (f : Source → Source) : (d.modSrc k f).cal = d.cal := rfl
@[simp] theorem Dev.modSrc_trust (k : Nat) (f : Source → Source) : (d.modSrc k f).trust = d.trust := rfl
@[simp] theorem Dev.modSrc_jtag (k : Nat) (f : Source → Source) : (d.modSrc k f).jtag = d.jtag := rfl
@[simp] theorem Dev.modSrc_acqs (k : Nat) (f : Source → Source) : (d.modSrc k f).acqs = d.acqs := rfl
@[simp] theorem Dev.modSrc_srcs (k : Nat) (f : Source → Source) : (d.modSrc k f).srcs = d.srcs.put {} k (f (d.src k)) := rfl
@[simp] theorem Dev.modSrc_engines (k : Nat) (f : Source → Source) : (d.modSrc k f).engines = d.engines := rfl
@[simp] theorem Dev.modSrc_nano (k : Nat) (f : Source → Source) : (d.modSrc k f).nano = d.nano := rfl
@[simp] theorem Dev.modSrc_nanoStaged (k : Nat) (f : Source → Source) : (d.modSrc k f).nanoStaged = d.nanoStaged := rfl
@[simp] theorem Dev.modSrc_mirrors (k : Nat) (f : Source → Source) : (d.modSrc k f).mirrors = d.mirrors := rfl
@[simp] theorem Dev.modSrc_polls (k : Nat) (f : Source → Source) : (d.modSrc k f).polls = d.polls := rfl
@[simp] theorem Dev.modSrc_phaseRef (k : Nat) (f : Source → Source) : (d.modSrc k f).phaseRef = d.phaseRef := rfl
@[simp] theorem Dev.modSrc_freeIdx (k : Nat) (f : Source → Source) : (d.modSrc k f).freeIdx = d.freeIdx := rfl

/-! ### Dev.modStampIn -/

@[simp] theorem Dev.modStampIn_now (k : Nat) (f : StampIn → StampIn) : (d.modStampIn k f).now = d.now := rfl
@[simp] theorem Dev.modStampIn_raw (k : Nat) (f : StampIn → StampIn) : (d.modStampIn k f).raw = d.raw := rfl
@[simp] theorem Dev.modStampIn_regs (k : Nat) (f : StampIn → StampIn) : (d.modStampIn k f).regs = d.regs := rfl
@[simp] theorem Dev.modStampIn_tbase (k : Nat) (f : StampIn → StampIn) : (d.modStampIn k f).tbase = d.tbase := rfl
@[simp] theorem Dev.modStampIn_ras (k : Nat) (f : StampIn → StampIn) : (d.modStampIn k f).ras = d.ras := rfl
@[simp] theorem Dev.modStampIn_dram (k : Nat) (f : StampIn → StampIn) : (d.modStampIn k f).dram = d.dram := rfl
@[simp] theorem Dev.modStampIn_rings (k : Nat) (f : StampIn → StampIn) : (d.modStampIn k f).rings = d.rings := rfl
@[simp] theorem Dev.modStampIn_ledger (k : Nat) (f : StampIn → StampIn) : (d.modStampIn k f).ledger = d.ledger := rfl
@[simp] theorem Dev.modStampIn_ports (k : Nat) (f : StampIn → StampIn) : (d.modStampIn k f).ports = d.ports := rfl
@[simp] theorem Dev.modStampIn_lanes (k : Nat) (f : StampIn → StampIn) : (d.modStampIn k f).lanes = d.lanes := rfl
@[simp] theorem Dev.modStampIn_sites (k : Nat) (f : StampIn → StampIn) : (d.modStampIn k f).sites = d.sites := rfl
@[simp] theorem Dev.modStampIn_chans (k : Nat) (f : StampIn → StampIn) : (d.modStampIn k f).chans = d.chans := rfl
@[simp] theorem Dev.modStampIn_chanSets (k : Nat) (f : StampIn → StampIn) : (d.modStampIn k f).chanSets = d.chanSets := rfl
@[simp] theorem Dev.modStampIn_periods (k : Nat) (f : StampIn → StampIn) : (d.modStampIn k f).periods = d.periods := rfl
@[simp] theorem Dev.modStampIn_sched (k : Nat) (f : StampIn → StampIn) : (d.modStampIn k f).sched = d.sched := rfl
@[simp] theorem Dev.modStampIn_stampIns (k : Nat) (f : StampIn → StampIn) : (d.modStampIn k f).stampIns = d.stampIns.put {} k (f (d.stampIn k)) := rfl
@[simp] theorem Dev.modStampIn_intervals (k : Nat) (f : StampIn → StampIn) : (d.modStampIn k f).intervals = d.intervals := rfl
@[simp] theorem Dev.modStampIn_freqs (k : Nat) (f : StampIn → StampIn) : (d.modStampIn k f).freqs = d.freqs := rfl
@[simp] theorem Dev.modStampIn_cal (k : Nat) (f : StampIn → StampIn) : (d.modStampIn k f).cal = d.cal := rfl
@[simp] theorem Dev.modStampIn_trust (k : Nat) (f : StampIn → StampIn) : (d.modStampIn k f).trust = d.trust := rfl
@[simp] theorem Dev.modStampIn_jtag (k : Nat) (f : StampIn → StampIn) : (d.modStampIn k f).jtag = d.jtag := rfl
@[simp] theorem Dev.modStampIn_acqs (k : Nat) (f : StampIn → StampIn) : (d.modStampIn k f).acqs = d.acqs := rfl
@[simp] theorem Dev.modStampIn_srcs (k : Nat) (f : StampIn → StampIn) : (d.modStampIn k f).srcs = d.srcs := rfl
@[simp] theorem Dev.modStampIn_engines (k : Nat) (f : StampIn → StampIn) : (d.modStampIn k f).engines = d.engines := rfl
@[simp] theorem Dev.modStampIn_nano (k : Nat) (f : StampIn → StampIn) : (d.modStampIn k f).nano = d.nano := rfl
@[simp] theorem Dev.modStampIn_nanoStaged (k : Nat) (f : StampIn → StampIn) : (d.modStampIn k f).nanoStaged = d.nanoStaged := rfl
@[simp] theorem Dev.modStampIn_mirrors (k : Nat) (f : StampIn → StampIn) : (d.modStampIn k f).mirrors = d.mirrors := rfl
@[simp] theorem Dev.modStampIn_polls (k : Nat) (f : StampIn → StampIn) : (d.modStampIn k f).polls = d.polls := rfl
@[simp] theorem Dev.modStampIn_phaseRef (k : Nat) (f : StampIn → StampIn) : (d.modStampIn k f).phaseRef = d.phaseRef := rfl
@[simp] theorem Dev.modStampIn_freeIdx (k : Nat) (f : StampIn → StampIn) : (d.modStampIn k f).freeIdx = d.freeIdx := rfl

/-! ### Dev.modInterval -/

@[simp] theorem Dev.modInterval_now (k : Nat) (f : Interval → Interval) : (d.modInterval k f).now = d.now := rfl
@[simp] theorem Dev.modInterval_raw (k : Nat) (f : Interval → Interval) : (d.modInterval k f).raw = d.raw := rfl
@[simp] theorem Dev.modInterval_regs (k : Nat) (f : Interval → Interval) : (d.modInterval k f).regs = d.regs := rfl
@[simp] theorem Dev.modInterval_tbase (k : Nat) (f : Interval → Interval) : (d.modInterval k f).tbase = d.tbase := rfl
@[simp] theorem Dev.modInterval_ras (k : Nat) (f : Interval → Interval) : (d.modInterval k f).ras = d.ras := rfl
@[simp] theorem Dev.modInterval_dram (k : Nat) (f : Interval → Interval) : (d.modInterval k f).dram = d.dram := rfl
@[simp] theorem Dev.modInterval_rings (k : Nat) (f : Interval → Interval) : (d.modInterval k f).rings = d.rings := rfl
@[simp] theorem Dev.modInterval_ledger (k : Nat) (f : Interval → Interval) : (d.modInterval k f).ledger = d.ledger := rfl
@[simp] theorem Dev.modInterval_ports (k : Nat) (f : Interval → Interval) : (d.modInterval k f).ports = d.ports := rfl
@[simp] theorem Dev.modInterval_lanes (k : Nat) (f : Interval → Interval) : (d.modInterval k f).lanes = d.lanes := rfl
@[simp] theorem Dev.modInterval_sites (k : Nat) (f : Interval → Interval) : (d.modInterval k f).sites = d.sites := rfl
@[simp] theorem Dev.modInterval_chans (k : Nat) (f : Interval → Interval) : (d.modInterval k f).chans = d.chans := rfl
@[simp] theorem Dev.modInterval_chanSets (k : Nat) (f : Interval → Interval) : (d.modInterval k f).chanSets = d.chanSets := rfl
@[simp] theorem Dev.modInterval_periods (k : Nat) (f : Interval → Interval) : (d.modInterval k f).periods = d.periods := rfl
@[simp] theorem Dev.modInterval_sched (k : Nat) (f : Interval → Interval) : (d.modInterval k f).sched = d.sched := rfl
@[simp] theorem Dev.modInterval_stampIns (k : Nat) (f : Interval → Interval) : (d.modInterval k f).stampIns = d.stampIns := rfl
@[simp] theorem Dev.modInterval_intervals (k : Nat) (f : Interval → Interval) : (d.modInterval k f).intervals = d.intervals.put {} k (f (d.interval k)) := rfl
@[simp] theorem Dev.modInterval_freqs (k : Nat) (f : Interval → Interval) : (d.modInterval k f).freqs = d.freqs := rfl
@[simp] theorem Dev.modInterval_cal (k : Nat) (f : Interval → Interval) : (d.modInterval k f).cal = d.cal := rfl
@[simp] theorem Dev.modInterval_trust (k : Nat) (f : Interval → Interval) : (d.modInterval k f).trust = d.trust := rfl
@[simp] theorem Dev.modInterval_jtag (k : Nat) (f : Interval → Interval) : (d.modInterval k f).jtag = d.jtag := rfl
@[simp] theorem Dev.modInterval_acqs (k : Nat) (f : Interval → Interval) : (d.modInterval k f).acqs = d.acqs := rfl
@[simp] theorem Dev.modInterval_srcs (k : Nat) (f : Interval → Interval) : (d.modInterval k f).srcs = d.srcs := rfl
@[simp] theorem Dev.modInterval_engines (k : Nat) (f : Interval → Interval) : (d.modInterval k f).engines = d.engines := rfl
@[simp] theorem Dev.modInterval_nano (k : Nat) (f : Interval → Interval) : (d.modInterval k f).nano = d.nano := rfl
@[simp] theorem Dev.modInterval_nanoStaged (k : Nat) (f : Interval → Interval) : (d.modInterval k f).nanoStaged = d.nanoStaged := rfl
@[simp] theorem Dev.modInterval_mirrors (k : Nat) (f : Interval → Interval) : (d.modInterval k f).mirrors = d.mirrors := rfl
@[simp] theorem Dev.modInterval_polls (k : Nat) (f : Interval → Interval) : (d.modInterval k f).polls = d.polls := rfl
@[simp] theorem Dev.modInterval_phaseRef (k : Nat) (f : Interval → Interval) : (d.modInterval k f).phaseRef = d.phaseRef := rfl
@[simp] theorem Dev.modInterval_freeIdx (k : Nat) (f : Interval → Interval) : (d.modInterval k f).freeIdx = d.freeIdx := rfl

/-! ### Dev.modFreq -/

@[simp] theorem Dev.modFreq_now (k : Nat) (f : Freq → Freq) : (d.modFreq k f).now = d.now := rfl
@[simp] theorem Dev.modFreq_raw (k : Nat) (f : Freq → Freq) : (d.modFreq k f).raw = d.raw := rfl
@[simp] theorem Dev.modFreq_regs (k : Nat) (f : Freq → Freq) : (d.modFreq k f).regs = d.regs := rfl
@[simp] theorem Dev.modFreq_tbase (k : Nat) (f : Freq → Freq) : (d.modFreq k f).tbase = d.tbase := rfl
@[simp] theorem Dev.modFreq_ras (k : Nat) (f : Freq → Freq) : (d.modFreq k f).ras = d.ras := rfl
@[simp] theorem Dev.modFreq_dram (k : Nat) (f : Freq → Freq) : (d.modFreq k f).dram = d.dram := rfl
@[simp] theorem Dev.modFreq_rings (k : Nat) (f : Freq → Freq) : (d.modFreq k f).rings = d.rings := rfl
@[simp] theorem Dev.modFreq_ledger (k : Nat) (f : Freq → Freq) : (d.modFreq k f).ledger = d.ledger := rfl
@[simp] theorem Dev.modFreq_ports (k : Nat) (f : Freq → Freq) : (d.modFreq k f).ports = d.ports := rfl
@[simp] theorem Dev.modFreq_lanes (k : Nat) (f : Freq → Freq) : (d.modFreq k f).lanes = d.lanes := rfl
@[simp] theorem Dev.modFreq_sites (k : Nat) (f : Freq → Freq) : (d.modFreq k f).sites = d.sites := rfl
@[simp] theorem Dev.modFreq_chans (k : Nat) (f : Freq → Freq) : (d.modFreq k f).chans = d.chans := rfl
@[simp] theorem Dev.modFreq_chanSets (k : Nat) (f : Freq → Freq) : (d.modFreq k f).chanSets = d.chanSets := rfl
@[simp] theorem Dev.modFreq_periods (k : Nat) (f : Freq → Freq) : (d.modFreq k f).periods = d.periods := rfl
@[simp] theorem Dev.modFreq_sched (k : Nat) (f : Freq → Freq) : (d.modFreq k f).sched = d.sched := rfl
@[simp] theorem Dev.modFreq_stampIns (k : Nat) (f : Freq → Freq) : (d.modFreq k f).stampIns = d.stampIns := rfl
@[simp] theorem Dev.modFreq_intervals (k : Nat) (f : Freq → Freq) : (d.modFreq k f).intervals = d.intervals := rfl
@[simp] theorem Dev.modFreq_freqs (k : Nat) (f : Freq → Freq) : (d.modFreq k f).freqs = d.freqs.put {} k (f (d.freq k)) := rfl
@[simp] theorem Dev.modFreq_cal (k : Nat) (f : Freq → Freq) : (d.modFreq k f).cal = d.cal := rfl
@[simp] theorem Dev.modFreq_trust (k : Nat) (f : Freq → Freq) : (d.modFreq k f).trust = d.trust := rfl
@[simp] theorem Dev.modFreq_jtag (k : Nat) (f : Freq → Freq) : (d.modFreq k f).jtag = d.jtag := rfl
@[simp] theorem Dev.modFreq_acqs (k : Nat) (f : Freq → Freq) : (d.modFreq k f).acqs = d.acqs := rfl
@[simp] theorem Dev.modFreq_srcs (k : Nat) (f : Freq → Freq) : (d.modFreq k f).srcs = d.srcs := rfl
@[simp] theorem Dev.modFreq_engines (k : Nat) (f : Freq → Freq) : (d.modFreq k f).engines = d.engines := rfl
@[simp] theorem Dev.modFreq_nano (k : Nat) (f : Freq → Freq) : (d.modFreq k f).nano = d.nano := rfl
@[simp] theorem Dev.modFreq_nanoStaged (k : Nat) (f : Freq → Freq) : (d.modFreq k f).nanoStaged = d.nanoStaged := rfl
@[simp] theorem Dev.modFreq_mirrors (k : Nat) (f : Freq → Freq) : (d.modFreq k f).mirrors = d.mirrors := rfl
@[simp] theorem Dev.modFreq_polls (k : Nat) (f : Freq → Freq) : (d.modFreq k f).polls = d.polls := rfl
@[simp] theorem Dev.modFreq_phaseRef (k : Nat) (f : Freq → Freq) : (d.modFreq k f).phaseRef = d.phaseRef := rfl
@[simp] theorem Dev.modFreq_freeIdx (k : Nat) (f : Freq → Freq) : (d.modFreq k f).freeIdx = d.freeIdx := rfl

/-! ### Dev.modRas -/

@[simp] theorem Dev.modRas_now (f : Ras → Ras) : (d.modRas f).now = d.now := rfl
@[simp] theorem Dev.modRas_raw (f : Ras → Ras) : (d.modRas f).raw = d.raw := rfl
@[simp] theorem Dev.modRas_regs (f : Ras → Ras) : (d.modRas f).regs = d.regs := rfl
@[simp] theorem Dev.modRas_tbase (f : Ras → Ras) : (d.modRas f).tbase = d.tbase := rfl
@[simp] theorem Dev.modRas_ras (f : Ras → Ras) : (d.modRas f).ras = f d.ras := rfl
@[simp] theorem Dev.modRas_dram (f : Ras → Ras) : (d.modRas f).dram = d.dram := rfl
@[simp] theorem Dev.modRas_rings (f : Ras → Ras) : (d.modRas f).rings = d.rings := rfl
@[simp] theorem Dev.modRas_ledger (f : Ras → Ras) : (d.modRas f).ledger = d.ledger := rfl
@[simp] theorem Dev.modRas_ports (f : Ras → Ras) : (d.modRas f).ports = d.ports := rfl
@[simp] theorem Dev.modRas_lanes (f : Ras → Ras) : (d.modRas f).lanes = d.lanes := rfl
@[simp] theorem Dev.modRas_sites (f : Ras → Ras) : (d.modRas f).sites = d.sites := rfl
@[simp] theorem Dev.modRas_chans (f : Ras → Ras) : (d.modRas f).chans = d.chans := rfl
@[simp] theorem Dev.modRas_chanSets (f : Ras → Ras) : (d.modRas f).chanSets = d.chanSets := rfl
@[simp] theorem Dev.modRas_periods (f : Ras → Ras) : (d.modRas f).periods = d.periods := rfl
@[simp] theorem Dev.modRas_sched (f : Ras → Ras) : (d.modRas f).sched = d.sched := rfl
@[simp] theorem Dev.modRas_stampIns (f : Ras → Ras) : (d.modRas f).stampIns = d.stampIns := rfl
@[simp] theorem Dev.modRas_intervals (f : Ras → Ras) : (d.modRas f).intervals = d.intervals := rfl
@[simp] theorem Dev.modRas_freqs (f : Ras → Ras) : (d.modRas f).freqs = d.freqs := rfl
@[simp] theorem Dev.modRas_cal (f : Ras → Ras) : (d.modRas f).cal = d.cal := rfl
@[simp] theorem Dev.modRas_trust (f : Ras → Ras) : (d.modRas f).trust = d.trust := rfl
@[simp] theorem Dev.modRas_jtag (f : Ras → Ras) : (d.modRas f).jtag = d.jtag := rfl
@[simp] theorem Dev.modRas_acqs (f : Ras → Ras) : (d.modRas f).acqs = d.acqs := rfl
@[simp] theorem Dev.modRas_srcs (f : Ras → Ras) : (d.modRas f).srcs = d.srcs := rfl
@[simp] theorem Dev.modRas_engines (f : Ras → Ras) : (d.modRas f).engines = d.engines := rfl
@[simp] theorem Dev.modRas_nano (f : Ras → Ras) : (d.modRas f).nano = d.nano := rfl
@[simp] theorem Dev.modRas_nanoStaged (f : Ras → Ras) : (d.modRas f).nanoStaged = d.nanoStaged := rfl
@[simp] theorem Dev.modRas_mirrors (f : Ras → Ras) : (d.modRas f).mirrors = d.mirrors := rfl
@[simp] theorem Dev.modRas_polls (f : Ras → Ras) : (d.modRas f).polls = d.polls := rfl
@[simp] theorem Dev.modRas_phaseRef (f : Ras → Ras) : (d.modRas f).phaseRef = d.phaseRef := rfl
@[simp] theorem Dev.modRas_freeIdx (f : Ras → Ras) : (d.modRas f).freeIdx = d.freeIdx := rfl

/-! ### Dev.modDram -/

@[simp] theorem Dev.modDram_now (f : Dram → Dram) : (d.modDram f).now = d.now := rfl
@[simp] theorem Dev.modDram_raw (f : Dram → Dram) : (d.modDram f).raw = d.raw := rfl
@[simp] theorem Dev.modDram_regs (f : Dram → Dram) : (d.modDram f).regs = d.regs := rfl
@[simp] theorem Dev.modDram_tbase (f : Dram → Dram) : (d.modDram f).tbase = d.tbase := rfl
@[simp] theorem Dev.modDram_ras (f : Dram → Dram) : (d.modDram f).ras = d.ras := rfl
@[simp] theorem Dev.modDram_dram (f : Dram → Dram) : (d.modDram f).dram = f d.dram := rfl
@[simp] theorem Dev.modDram_rings (f : Dram → Dram) : (d.modDram f).rings = d.rings := rfl
@[simp] theorem Dev.modDram_ledger (f : Dram → Dram) : (d.modDram f).ledger = d.ledger := rfl
@[simp] theorem Dev.modDram_ports (f : Dram → Dram) : (d.modDram f).ports = d.ports := rfl
@[simp] theorem Dev.modDram_lanes (f : Dram → Dram) : (d.modDram f).lanes = d.lanes := rfl
@[simp] theorem Dev.modDram_sites (f : Dram → Dram) : (d.modDram f).sites = d.sites := rfl
@[simp] theorem Dev.modDram_chans (f : Dram → Dram) : (d.modDram f).chans = d.chans := rfl
@[simp] theorem Dev.modDram_chanSets (f : Dram → Dram) : (d.modDram f).chanSets = d.chanSets := rfl
@[simp] theorem Dev.modDram_periods (f : Dram → Dram) : (d.modDram f).periods = d.periods := rfl
@[simp] theorem Dev.modDram_sched (f : Dram → Dram) : (d.modDram f).sched = d.sched := rfl
@[simp] theorem Dev.modDram_stampIns (f : Dram → Dram) : (d.modDram f).stampIns = d.stampIns := rfl
@[simp] theorem Dev.modDram_intervals (f : Dram → Dram) : (d.modDram f).intervals = d.intervals := rfl
@[simp] theorem Dev.modDram_freqs (f : Dram → Dram) : (d.modDram f).freqs = d.freqs := rfl
@[simp] theorem Dev.modDram_cal (f : Dram → Dram) : (d.modDram f).cal = d.cal := rfl
@[simp] theorem Dev.modDram_trust (f : Dram → Dram) : (d.modDram f).trust = d.trust := rfl
@[simp] theorem Dev.modDram_jtag (f : Dram → Dram) : (d.modDram f).jtag = d.jtag := rfl
@[simp] theorem Dev.modDram_acqs (f : Dram → Dram) : (d.modDram f).acqs = d.acqs := rfl
@[simp] theorem Dev.modDram_srcs (f : Dram → Dram) : (d.modDram f).srcs = d.srcs := rfl
@[simp] theorem Dev.modDram_engines (f : Dram → Dram) : (d.modDram f).engines = d.engines := rfl
@[simp] theorem Dev.modDram_nano (f : Dram → Dram) : (d.modDram f).nano = d.nano := rfl
@[simp] theorem Dev.modDram_nanoStaged (f : Dram → Dram) : (d.modDram f).nanoStaged = d.nanoStaged := rfl
@[simp] theorem Dev.modDram_mirrors (f : Dram → Dram) : (d.modDram f).mirrors = d.mirrors := rfl
@[simp] theorem Dev.modDram_polls (f : Dram → Dram) : (d.modDram f).polls = d.polls := rfl
@[simp] theorem Dev.modDram_phaseRef (f : Dram → Dram) : (d.modDram f).phaseRef = d.phaseRef := rfl
@[simp] theorem Dev.modDram_freeIdx (f : Dram → Dram) : (d.modDram f).freeIdx = d.freeIdx := rfl

/-! ### Dev.modLedger -/

@[simp] theorem Dev.modLedger_now (f : Ledger → Ledger) : (d.modLedger f).now = d.now := rfl
@[simp] theorem Dev.modLedger_raw (f : Ledger → Ledger) : (d.modLedger f).raw = d.raw := rfl
@[simp] theorem Dev.modLedger_regs (f : Ledger → Ledger) : (d.modLedger f).regs = d.regs := rfl
@[simp] theorem Dev.modLedger_tbase (f : Ledger → Ledger) : (d.modLedger f).tbase = d.tbase := rfl
@[simp] theorem Dev.modLedger_ras (f : Ledger → Ledger) : (d.modLedger f).ras = d.ras := rfl
@[simp] theorem Dev.modLedger_dram (f : Ledger → Ledger) : (d.modLedger f).dram = d.dram := rfl
@[simp] theorem Dev.modLedger_rings (f : Ledger → Ledger) : (d.modLedger f).rings = d.rings := rfl
@[simp] theorem Dev.modLedger_ledger (f : Ledger → Ledger) : (d.modLedger f).ledger = f d.ledger := rfl
@[simp] theorem Dev.modLedger_ports (f : Ledger → Ledger) : (d.modLedger f).ports = d.ports := rfl
@[simp] theorem Dev.modLedger_lanes (f : Ledger → Ledger) : (d.modLedger f).lanes = d.lanes := rfl
@[simp] theorem Dev.modLedger_sites (f : Ledger → Ledger) : (d.modLedger f).sites = d.sites := rfl
@[simp] theorem Dev.modLedger_chans (f : Ledger → Ledger) : (d.modLedger f).chans = d.chans := rfl
@[simp] theorem Dev.modLedger_chanSets (f : Ledger → Ledger) : (d.modLedger f).chanSets = d.chanSets := rfl
@[simp] theorem Dev.modLedger_periods (f : Ledger → Ledger) : (d.modLedger f).periods = d.periods := rfl
@[simp] theorem Dev.modLedger_sched (f : Ledger → Ledger) : (d.modLedger f).sched = d.sched := rfl
@[simp] theorem Dev.modLedger_stampIns (f : Ledger → Ledger) : (d.modLedger f).stampIns = d.stampIns := rfl
@[simp] theorem Dev.modLedger_intervals (f : Ledger → Ledger) : (d.modLedger f).intervals = d.intervals := rfl
@[simp] theorem Dev.modLedger_freqs (f : Ledger → Ledger) : (d.modLedger f).freqs = d.freqs := rfl
@[simp] theorem Dev.modLedger_cal (f : Ledger → Ledger) : (d.modLedger f).cal = d.cal := rfl
@[simp] theorem Dev.modLedger_trust (f : Ledger → Ledger) : (d.modLedger f).trust = d.trust := rfl
@[simp] theorem Dev.modLedger_jtag (f : Ledger → Ledger) : (d.modLedger f).jtag = d.jtag := rfl
@[simp] theorem Dev.modLedger_acqs (f : Ledger → Ledger) : (d.modLedger f).acqs = d.acqs := rfl
@[simp] theorem Dev.modLedger_srcs (f : Ledger → Ledger) : (d.modLedger f).srcs = d.srcs := rfl
@[simp] theorem Dev.modLedger_engines (f : Ledger → Ledger) : (d.modLedger f).engines = d.engines := rfl
@[simp] theorem Dev.modLedger_nano (f : Ledger → Ledger) : (d.modLedger f).nano = d.nano := rfl
@[simp] theorem Dev.modLedger_nanoStaged (f : Ledger → Ledger) : (d.modLedger f).nanoStaged = d.nanoStaged := rfl
@[simp] theorem Dev.modLedger_mirrors (f : Ledger → Ledger) : (d.modLedger f).mirrors = d.mirrors := rfl
@[simp] theorem Dev.modLedger_polls (f : Ledger → Ledger) : (d.modLedger f).polls = d.polls := rfl
@[simp] theorem Dev.modLedger_phaseRef (f : Ledger → Ledger) : (d.modLedger f).phaseRef = d.phaseRef := rfl
@[simp] theorem Dev.modLedger_freeIdx (f : Ledger → Ledger) : (d.modLedger f).freeIdx = d.freeIdx := rfl

/-! ### Dev.modTime -/

@[simp] theorem Dev.modTime_now (f : TimeBase → TimeBase) : (d.modTime f).now = d.now := rfl
@[simp] theorem Dev.modTime_raw (f : TimeBase → TimeBase) : (d.modTime f).raw = d.raw := rfl
@[simp] theorem Dev.modTime_regs (f : TimeBase → TimeBase) : (d.modTime f).regs = d.regs := rfl
@[simp] theorem Dev.modTime_tbase (f : TimeBase → TimeBase) : (d.modTime f).tbase = f d.tbase := rfl
@[simp] theorem Dev.modTime_ras (f : TimeBase → TimeBase) : (d.modTime f).ras = d.ras := rfl
@[simp] theorem Dev.modTime_dram (f : TimeBase → TimeBase) : (d.modTime f).dram = d.dram := rfl
@[simp] theorem Dev.modTime_rings (f : TimeBase → TimeBase) : (d.modTime f).rings = d.rings := rfl
@[simp] theorem Dev.modTime_ledger (f : TimeBase → TimeBase) : (d.modTime f).ledger = d.ledger := rfl
@[simp] theorem Dev.modTime_ports (f : TimeBase → TimeBase) : (d.modTime f).ports = d.ports := rfl
@[simp] theorem Dev.modTime_lanes (f : TimeBase → TimeBase) : (d.modTime f).lanes = d.lanes := rfl
@[simp] theorem Dev.modTime_sites (f : TimeBase → TimeBase) : (d.modTime f).sites = d.sites := rfl
@[simp] theorem Dev.modTime_chans (f : TimeBase → TimeBase) : (d.modTime f).chans = d.chans := rfl
@[simp] theorem Dev.modTime_chanSets (f : TimeBase → TimeBase) : (d.modTime f).chanSets = d.chanSets := rfl
@[simp] theorem Dev.modTime_periods (f : TimeBase → TimeBase) : (d.modTime f).periods = d.periods := rfl
@[simp] theorem Dev.modTime_sched (f : TimeBase → TimeBase) : (d.modTime f).sched = d.sched := rfl
@[simp] theorem Dev.modTime_stampIns (f : TimeBase → TimeBase) : (d.modTime f).stampIns = d.stampIns := rfl
@[simp] theorem Dev.modTime_intervals (f : TimeBase → TimeBase) : (d.modTime f).intervals = d.intervals := rfl
@[simp] theorem Dev.modTime_freqs (f : TimeBase → TimeBase) : (d.modTime f).freqs = d.freqs := rfl
@[simp] theorem Dev.modTime_cal (f : TimeBase → TimeBase) : (d.modTime f).cal = d.cal := rfl
@[simp] theorem Dev.modTime_trust (f : TimeBase → TimeBase) : (d.modTime f).trust = d.trust := rfl
@[simp] theorem Dev.modTime_jtag (f : TimeBase → TimeBase) : (d.modTime f).jtag = d.jtag := rfl
@[simp] theorem Dev.modTime_acqs (f : TimeBase → TimeBase) : (d.modTime f).acqs = d.acqs := rfl
@[simp] theorem Dev.modTime_srcs (f : TimeBase → TimeBase) : (d.modTime f).srcs = d.srcs := rfl
@[simp] theorem Dev.modTime_engines (f : TimeBase → TimeBase) : (d.modTime f).engines = d.engines := rfl
@[simp] theorem Dev.modTime_nano (f : TimeBase → TimeBase) : (d.modTime f).nano = d.nano := rfl
@[simp] theorem Dev.modTime_nanoStaged (f : TimeBase → TimeBase) : (d.modTime f).nanoStaged = d.nanoStaged := rfl
@[simp] theorem Dev.modTime_mirrors (f : TimeBase → TimeBase) : (d.modTime f).mirrors = d.mirrors := rfl
@[simp] theorem Dev.modTime_polls (f : TimeBase → TimeBase) : (d.modTime f).polls = d.polls := rfl
@[simp] theorem Dev.modTime_phaseRef (f : TimeBase → TimeBase) : (d.modTime f).phaseRef = d.phaseRef := rfl
@[simp] theorem Dev.modTime_freeIdx (f : TimeBase → TimeBase) : (d.modTime f).freeIdx = d.freeIdx := rfl

/-! ### Dev.modSched -/

@[simp] theorem Dev.modSched_now (f : Sched → Sched) : (d.modSched f).now = d.now := rfl
@[simp] theorem Dev.modSched_raw (f : Sched → Sched) : (d.modSched f).raw = d.raw := rfl
@[simp] theorem Dev.modSched_regs (f : Sched → Sched) : (d.modSched f).regs = d.regs := rfl
@[simp] theorem Dev.modSched_tbase (f : Sched → Sched) : (d.modSched f).tbase = d.tbase := rfl
@[simp] theorem Dev.modSched_ras (f : Sched → Sched) : (d.modSched f).ras = d.ras := rfl
@[simp] theorem Dev.modSched_dram (f : Sched → Sched) : (d.modSched f).dram = d.dram := rfl
@[simp] theorem Dev.modSched_rings (f : Sched → Sched) : (d.modSched f).rings = d.rings := rfl
@[simp] theorem Dev.modSched_ledger (f : Sched → Sched) : (d.modSched f).ledger = d.ledger := rfl
@[simp] theorem Dev.modSched_ports (f : Sched → Sched) : (d.modSched f).ports = d.ports := rfl
@[simp] theorem Dev.modSched_lanes (f : Sched → Sched) : (d.modSched f).lanes = d.lanes := rfl
@[simp] theorem Dev.modSched_sites (f : Sched → Sched) : (d.modSched f).sites = d.sites := rfl
@[simp] theorem Dev.modSched_chans (f : Sched → Sched) : (d.modSched f).chans = d.chans := rfl
@[simp] theorem Dev.modSched_chanSets (f : Sched → Sched) : (d.modSched f).chanSets = d.chanSets := rfl
@[simp] theorem Dev.modSched_periods (f : Sched → Sched) : (d.modSched f).periods = d.periods := rfl
@[simp] theorem Dev.modSched_sched (f : Sched → Sched) : (d.modSched f).sched = f d.sched := rfl
@[simp] theorem Dev.modSched_stampIns (f : Sched → Sched) : (d.modSched f).stampIns = d.stampIns := rfl
@[simp] theorem Dev.modSched_intervals (f : Sched → Sched) : (d.modSched f).intervals = d.intervals := rfl
@[simp] theorem Dev.modSched_freqs (f : Sched → Sched) : (d.modSched f).freqs = d.freqs := rfl
@[simp] theorem Dev.modSched_cal (f : Sched → Sched) : (d.modSched f).cal = d.cal := rfl
@[simp] theorem Dev.modSched_trust (f : Sched → Sched) : (d.modSched f).trust = d.trust := rfl
@[simp] theorem Dev.modSched_jtag (f : Sched → Sched) : (d.modSched f).jtag = d.jtag := rfl
@[simp] theorem Dev.modSched_acqs (f : Sched → Sched) : (d.modSched f).acqs = d.acqs := rfl
@[simp] theorem Dev.modSched_srcs (f : Sched → Sched) : (d.modSched f).srcs = d.srcs := rfl
@[simp] theorem Dev.modSched_engines (f : Sched → Sched) : (d.modSched f).engines = d.engines := rfl
@[simp] theorem Dev.modSched_nano (f : Sched → Sched) : (d.modSched f).nano = d.nano := rfl
@[simp] theorem Dev.modSched_nanoStaged (f : Sched → Sched) : (d.modSched f).nanoStaged = d.nanoStaged := rfl
@[simp] theorem Dev.modSched_mirrors (f : Sched → Sched) : (d.modSched f).mirrors = d.mirrors := rfl
@[simp] theorem Dev.modSched_polls (f : Sched → Sched) : (d.modSched f).polls = d.polls := rfl
@[simp] theorem Dev.modSched_phaseRef (f : Sched → Sched) : (d.modSched f).phaseRef = d.phaseRef := rfl
@[simp] theorem Dev.modSched_freeIdx (f : Sched → Sched) : (d.modSched f).freeIdx = d.freeIdx := rfl

/-! ### Dev.modTrust -/

@[simp] theorem Dev.modTrust_now (f : Trust → Trust) : (d.modTrust f).now = d.now := rfl
@[simp] theorem Dev.modTrust_raw (f : Trust → Trust) : (d.modTrust f).raw = d.raw := rfl
@[simp] theorem Dev.modTrust_regs (f : Trust → Trust) : (d.modTrust f).regs = d.regs := rfl
@[simp] theorem Dev.modTrust_tbase (f : Trust → Trust) : (d.modTrust f).tbase = d.tbase := rfl
@[simp] theorem Dev.modTrust_ras (f : Trust → Trust) : (d.modTrust f).ras = d.ras := rfl
@[simp] theorem Dev.modTrust_dram (f : Trust → Trust) : (d.modTrust f).dram = d.dram := rfl
@[simp] theorem Dev.modTrust_rings (f : Trust → Trust) : (d.modTrust f).rings = d.rings := rfl
@[simp] theorem Dev.modTrust_ledger (f : Trust → Trust) : (d.modTrust f).ledger = d.ledger := rfl
@[simp] theorem Dev.modTrust_ports (f : Trust → Trust) : (d.modTrust f).ports = d.ports := rfl
@[simp] theorem Dev.modTrust_lanes (f : Trust → Trust) : (d.modTrust f).lanes = d.lanes := rfl
@[simp] theorem Dev.modTrust_sites (f : Trust → Trust) : (d.modTrust f).sites = d.sites := rfl
@[simp] theorem Dev.modTrust_chans (f : Trust → Trust) : (d.modTrust f).chans = d.chans := rfl
@[simp] theorem Dev.modTrust_chanSets (f : Trust → Trust) : (d.modTrust f).chanSets = d.chanSets := rfl
@[simp] theorem Dev.modTrust_periods (f : Trust → Trust) : (d.modTrust f).periods = d.periods := rfl
@[simp] theorem Dev.modTrust_sched (f : Trust → Trust) : (d.modTrust f).sched = d.sched := rfl
@[simp] theorem Dev.modTrust_stampIns (f : Trust → Trust) : (d.modTrust f).stampIns = d.stampIns := rfl
@[simp] theorem Dev.modTrust_intervals (f : Trust → Trust) : (d.modTrust f).intervals = d.intervals := rfl
@[simp] theorem Dev.modTrust_freqs (f : Trust → Trust) : (d.modTrust f).freqs = d.freqs := rfl
@[simp] theorem Dev.modTrust_cal (f : Trust → Trust) : (d.modTrust f).cal = d.cal := rfl
@[simp] theorem Dev.modTrust_trust (f : Trust → Trust) : (d.modTrust f).trust = f d.trust := rfl
@[simp] theorem Dev.modTrust_jtag (f : Trust → Trust) : (d.modTrust f).jtag = d.jtag := rfl
@[simp] theorem Dev.modTrust_acqs (f : Trust → Trust) : (d.modTrust f).acqs = d.acqs := rfl
@[simp] theorem Dev.modTrust_srcs (f : Trust → Trust) : (d.modTrust f).srcs = d.srcs := rfl
@[simp] theorem Dev.modTrust_engines (f : Trust → Trust) : (d.modTrust f).engines = d.engines := rfl
@[simp] theorem Dev.modTrust_nano (f : Trust → Trust) : (d.modTrust f).nano = d.nano := rfl
@[simp] theorem Dev.modTrust_nanoStaged (f : Trust → Trust) : (d.modTrust f).nanoStaged = d.nanoStaged := rfl
@[simp] theorem Dev.modTrust_mirrors (f : Trust → Trust) : (d.modTrust f).mirrors = d.mirrors := rfl
@[simp] theorem Dev.modTrust_polls (f : Trust → Trust) : (d.modTrust f).polls = d.polls := rfl
@[simp] theorem Dev.modTrust_phaseRef (f : Trust → Trust) : (d.modTrust f).phaseRef = d.phaseRef := rfl
@[simp] theorem Dev.modTrust_freeIdx (f : Trust → Trust) : (d.modTrust f).freeIdx = d.freeIdx := rfl

/-! ### Dev.modCal -/

@[simp] theorem Dev.modCal_now (f : Cal → Cal) : (d.modCal f).now = d.now := rfl
@[simp] theorem Dev.modCal_raw (f : Cal → Cal) : (d.modCal f).raw = d.raw := rfl
@[simp] theorem Dev.modCal_regs (f : Cal → Cal) : (d.modCal f).regs = d.regs := rfl
@[simp] theorem Dev.modCal_tbase (f : Cal → Cal) : (d.modCal f).tbase = d.tbase := rfl
@[simp] theorem Dev.modCal_ras (f : Cal → Cal) : (d.modCal f).ras = d.ras := rfl
@[simp] theorem Dev.modCal_dram (f : Cal → Cal) : (d.modCal f).dram = d.dram := rfl
@[simp] theorem Dev.modCal_rings (f : Cal → Cal) : (d.modCal f).rings = d.rings := rfl
@[simp] theorem Dev.modCal_ledger (f : Cal → Cal) : (d.modCal f).ledger = d.ledger := rfl
@[simp] theorem Dev.modCal_ports (f : Cal → Cal) : (d.modCal f).ports = d.ports := rfl
@[simp] theorem Dev.modCal_lanes (f : Cal → Cal) : (d.modCal f).lanes = d.lanes := rfl
@[simp] theorem Dev.modCal_sites (f : Cal → Cal) : (d.modCal f).sites = d.sites := rfl
@[simp] theorem Dev.modCal_chans (f : Cal → Cal) : (d.modCal f).chans = d.chans := rfl
@[simp] theorem Dev.modCal_chanSets (f : Cal → Cal) : (d.modCal f).chanSets = d.chanSets := rfl
@[simp] theorem Dev.modCal_periods (f : Cal → Cal) : (d.modCal f).periods = d.periods := rfl
@[simp] theorem Dev.modCal_sched (f : Cal → Cal) : (d.modCal f).sched = d.sched := rfl
@[simp] theorem Dev.modCal_stampIns (f : Cal → Cal) : (d.modCal f).stampIns = d.stampIns := rfl
@[simp] theorem Dev.modCal_intervals (f : Cal → Cal) : (d.modCal f).intervals = d.intervals := rfl
@[simp] theorem Dev.modCal_freqs (f : Cal → Cal) : (d.modCal f).freqs = d.freqs := rfl
@[simp] theorem Dev.modCal_cal (f : Cal → Cal) : (d.modCal f).cal = f d.cal := rfl
@[simp] theorem Dev.modCal_trust (f : Cal → Cal) : (d.modCal f).trust = d.trust := rfl
@[simp] theorem Dev.modCal_jtag (f : Cal → Cal) : (d.modCal f).jtag = d.jtag := rfl
@[simp] theorem Dev.modCal_acqs (f : Cal → Cal) : (d.modCal f).acqs = d.acqs := rfl
@[simp] theorem Dev.modCal_srcs (f : Cal → Cal) : (d.modCal f).srcs = d.srcs := rfl
@[simp] theorem Dev.modCal_engines (f : Cal → Cal) : (d.modCal f).engines = d.engines := rfl
@[simp] theorem Dev.modCal_nano (f : Cal → Cal) : (d.modCal f).nano = d.nano := rfl
@[simp] theorem Dev.modCal_nanoStaged (f : Cal → Cal) : (d.modCal f).nanoStaged = d.nanoStaged := rfl
@[simp] theorem Dev.modCal_mirrors (f : Cal → Cal) : (d.modCal f).mirrors = d.mirrors := rfl
@[simp] theorem Dev.modCal_polls (f : Cal → Cal) : (d.modCal f).polls = d.polls := rfl
@[simp] theorem Dev.modCal_phaseRef (f : Cal → Cal) : (d.modCal f).phaseRef = d.phaseRef := rfl
@[simp] theorem Dev.modCal_freeIdx (f : Cal → Cal) : (d.modCal f).freeIdx = d.freeIdx := rfl

/-! ### Dev.modBurst -/

@[simp] theorem Dev.modBurst_now (k : Nat) (f : Burst → Burst) : (d.modBurst k f).now = d.now := rfl
@[simp] theorem Dev.modBurst_raw (k : Nat) (f : Burst → Burst) : (d.modBurst k f).raw = d.raw := rfl
@[simp] theorem Dev.modBurst_regs (k : Nat) (f : Burst → Burst) : (d.modBurst k f).regs = d.regs := rfl
@[simp] theorem Dev.modBurst_tbase (k : Nat) (f : Burst → Burst) : (d.modBurst k f).tbase = d.tbase := rfl
@[simp] theorem Dev.modBurst_ras (k : Nat) (f : Burst → Burst) : (d.modBurst k f).ras = d.ras := rfl
@[simp] theorem Dev.modBurst_dram (k : Nat) (f : Burst → Burst) : (d.modBurst k f).dram = d.dram := rfl
@[simp] theorem Dev.modBurst_rings (k : Nat) (f : Burst → Burst) : (d.modBurst k f).rings = d.rings := rfl
@[simp] theorem Dev.modBurst_ledger (k : Nat) (f : Burst → Burst) : (d.modBurst k f).ledger = d.ledger := rfl
@[simp] theorem Dev.modBurst_ports (k : Nat) (f : Burst → Burst) : (d.modBurst k f).ports = d.ports := rfl
@[simp] theorem Dev.modBurst_lanes (k : Nat) (f : Burst → Burst) : (d.modBurst k f).lanes = d.lanes := rfl
@[simp] theorem Dev.modBurst_sites (k : Nat) (f : Burst → Burst) : (d.modBurst k f).sites = d.sites := rfl
@[simp] theorem Dev.modBurst_chans (k : Nat) (f : Burst → Burst) : (d.modBurst k f).chans = d.chans := rfl
@[simp] theorem Dev.modBurst_chanSets (k : Nat) (f : Burst → Burst) : (d.modBurst k f).chanSets = d.chanSets := rfl
@[simp] theorem Dev.modBurst_periods (k : Nat) (f : Burst → Burst) : (d.modBurst k f).periods = d.periods := rfl
@[simp] theorem Dev.modBurst_sched (k : Nat) (f : Burst → Burst) : (d.modBurst k f).sched = d.sched := rfl
@[simp] theorem Dev.modBurst_stampIns (k : Nat) (f : Burst → Burst) : (d.modBurst k f).stampIns = d.stampIns := rfl
@[simp] theorem Dev.modBurst_intervals (k : Nat) (f : Burst → Burst) : (d.modBurst k f).intervals = d.intervals := rfl
@[simp] theorem Dev.modBurst_freqs (k : Nat) (f : Burst → Burst) : (d.modBurst k f).freqs = d.freqs := rfl
@[simp] theorem Dev.modBurst_cal (k : Nat) (f : Burst → Burst) : (d.modBurst k f).cal = d.cal := rfl
@[simp] theorem Dev.modBurst_trust (k : Nat) (f : Burst → Burst) : (d.modBurst k f).trust = d.trust := rfl
@[simp] theorem Dev.modBurst_jtag (k : Nat) (f : Burst → Burst) : (d.modBurst k f).jtag = d.jtag := rfl
@[simp] theorem Dev.modBurst_acqs (k : Nat) (f : Burst → Burst) : (d.modBurst k f).acqs = d.acqs := rfl
@[simp] theorem Dev.modBurst_srcs (k : Nat) (f : Burst → Burst) : (d.modBurst k f).srcs = d.srcs := rfl
@[simp] theorem Dev.modBurst_engines (k : Nat) (f : Burst → Burst) : (d.modBurst k f).engines = d.engines.put {} k { d.engine k with burst := (d.burst k).map f } := rfl
@[simp] theorem Dev.modBurst_nano (k : Nat) (f : Burst → Burst) : (d.modBurst k f).nano = d.nano := rfl
@[simp] theorem Dev.modBurst_nanoStaged (k : Nat) (f : Burst → Burst) : (d.modBurst k f).nanoStaged = d.nanoStaged := rfl
@[simp] theorem Dev.modBurst_mirrors (k : Nat) (f : Burst → Burst) : (d.modBurst k f).mirrors = d.mirrors := rfl
@[simp] theorem Dev.modBurst_polls (k : Nat) (f : Burst → Burst) : (d.modBurst k f).polls = d.polls := rfl
@[simp] theorem Dev.modBurst_phaseRef (k : Nat) (f : Burst → Burst) : (d.modBurst k f).phaseRef = d.phaseRef := rfl
@[simp] theorem Dev.modBurst_freeIdx (k : Nat) (f : Burst → Burst) : (d.modBurst k f).freeIdx = d.freeIdx := rfl

/-! ### Dev.modSchPort -/

@[simp] theorem Dev.modSchPort_now (k : Nat) (f : SchPort → SchPort) : (d.modSchPort k f).now = d.now := rfl
@[simp] theorem Dev.modSchPort_raw (k : Nat) (f : SchPort → SchPort) : (d.modSchPort k f).raw = d.raw := rfl
@[simp] theorem Dev.modSchPort_regs (k : Nat) (f : SchPort → SchPort) : (d.modSchPort k f).regs = d.regs := rfl
@[simp] theorem Dev.modSchPort_tbase (k : Nat) (f : SchPort → SchPort) : (d.modSchPort k f).tbase = d.tbase := rfl
@[simp] theorem Dev.modSchPort_ras (k : Nat) (f : SchPort → SchPort) : (d.modSchPort k f).ras = d.ras := rfl
@[simp] theorem Dev.modSchPort_dram (k : Nat) (f : SchPort → SchPort) : (d.modSchPort k f).dram = d.dram := rfl
@[simp] theorem Dev.modSchPort_rings (k : Nat) (f : SchPort → SchPort) : (d.modSchPort k f).rings = d.rings := rfl
@[simp] theorem Dev.modSchPort_ledger (k : Nat) (f : SchPort → SchPort) : (d.modSchPort k f).ledger = d.ledger := rfl
@[simp] theorem Dev.modSchPort_ports (k : Nat) (f : SchPort → SchPort) : (d.modSchPort k f).ports = d.ports := rfl
@[simp] theorem Dev.modSchPort_lanes (k : Nat) (f : SchPort → SchPort) : (d.modSchPort k f).lanes = d.lanes := rfl
@[simp] theorem Dev.modSchPort_sites (k : Nat) (f : SchPort → SchPort) : (d.modSchPort k f).sites = d.sites := rfl
@[simp] theorem Dev.modSchPort_chans (k : Nat) (f : SchPort → SchPort) : (d.modSchPort k f).chans = d.chans := rfl
@[simp] theorem Dev.modSchPort_chanSets (k : Nat) (f : SchPort → SchPort) : (d.modSchPort k f).chanSets = d.chanSets := rfl
@[simp] theorem Dev.modSchPort_periods (k : Nat) (f : SchPort → SchPort) : (d.modSchPort k f).periods = d.periods := rfl
@[simp] theorem Dev.modSchPort_sched (k : Nat) (f : SchPort → SchPort) : (d.modSchPort k f).sched = { d.sched with ports := d.sched.ports.put {} k (f (d.schPort k)) } := rfl
@[simp] theorem Dev.modSchPort_stampIns (k : Nat) (f : SchPort → SchPort) : (d.modSchPort k f).stampIns = d.stampIns := rfl
@[simp] theorem Dev.modSchPort_intervals (k : Nat) (f : SchPort → SchPort) : (d.modSchPort k f).intervals = d.intervals := rfl
@[simp] theorem Dev.modSchPort_freqs (k : Nat) (f : SchPort → SchPort) : (d.modSchPort k f).freqs = d.freqs := rfl
@[simp] theorem Dev.modSchPort_cal (k : Nat) (f : SchPort → SchPort) : (d.modSchPort k f).cal = d.cal := rfl
@[simp] theorem Dev.modSchPort_trust (k : Nat) (f : SchPort → SchPort) : (d.modSchPort k f).trust = d.trust := rfl
@[simp] theorem Dev.modSchPort_jtag (k : Nat) (f : SchPort → SchPort) : (d.modSchPort k f).jtag = d.jtag := rfl
@[simp] theorem Dev.modSchPort_acqs (k : Nat) (f : SchPort → SchPort) : (d.modSchPort k f).acqs = d.acqs := rfl
@[simp] theorem Dev.modSchPort_srcs (k : Nat) (f : SchPort → SchPort) : (d.modSchPort k f).srcs = d.srcs := rfl
@[simp] theorem Dev.modSchPort_engines (k : Nat) (f : SchPort → SchPort) : (d.modSchPort k f).engines = d.engines := rfl
@[simp] theorem Dev.modSchPort_nano (k : Nat) (f : SchPort → SchPort) : (d.modSchPort k f).nano = d.nano := rfl
@[simp] theorem Dev.modSchPort_nanoStaged (k : Nat) (f : SchPort → SchPort) : (d.modSchPort k f).nanoStaged = d.nanoStaged := rfl
@[simp] theorem Dev.modSchPort_mirrors (k : Nat) (f : SchPort → SchPort) : (d.modSchPort k f).mirrors = d.mirrors := rfl
@[simp] theorem Dev.modSchPort_polls (k : Nat) (f : SchPort → SchPort) : (d.modSchPort k f).polls = d.polls := rfl
@[simp] theorem Dev.modSchPort_phaseRef (k : Nat) (f : SchPort → SchPort) : (d.modSchPort k f).phaseRef = d.phaseRef := rfl
@[simp] theorem Dev.modSchPort_freeIdx (k : Nat) (f : SchPort → SchPort) : (d.modSchPort k f).freeIdx = d.freeIdx := rfl

/-! ### Dev.putDesc -/

@[simp] theorem Dev.putDesc_now (k : Nat) (x : Option Desc) : (d.putDesc k x).now = d.now := rfl
@[simp] theorem Dev.putDesc_raw (k : Nat) (x : Option Desc) : (d.putDesc k x).raw = d.raw := rfl
@[simp] theorem Dev.putDesc_regs (k : Nat) (x : Option Desc) : (d.putDesc k x).regs = d.regs := rfl
@[simp] theorem Dev.putDesc_tbase (k : Nat) (x : Option Desc) : (d.putDesc k x).tbase = d.tbase := rfl
@[simp] theorem Dev.putDesc_ras (k : Nat) (x : Option Desc) : (d.putDesc k x).ras = d.ras := rfl
@[simp] theorem Dev.putDesc_dram (k : Nat) (x : Option Desc) : (d.putDesc k x).dram = d.dram := rfl
@[simp] theorem Dev.putDesc_rings (k : Nat) (x : Option Desc) : (d.putDesc k x).rings = d.rings := rfl
@[simp] theorem Dev.putDesc_ledger (k : Nat) (x : Option Desc) : (d.putDesc k x).ledger = d.ledger := rfl
@[simp] theorem Dev.putDesc_ports (k : Nat) (x : Option Desc) : (d.putDesc k x).ports = d.ports := rfl
@[simp] theorem Dev.putDesc_lanes (k : Nat) (x : Option Desc) : (d.putDesc k x).lanes = d.lanes := rfl
@[simp] theorem Dev.putDesc_sites (k : Nat) (x : Option Desc) : (d.putDesc k x).sites = d.sites := rfl
@[simp] theorem Dev.putDesc_chans (k : Nat) (x : Option Desc) : (d.putDesc k x).chans = d.chans := rfl
@[simp] theorem Dev.putDesc_chanSets (k : Nat) (x : Option Desc) : (d.putDesc k x).chanSets = d.chanSets := rfl
@[simp] theorem Dev.putDesc_periods (k : Nat) (x : Option Desc) : (d.putDesc k x).periods = d.periods := rfl
@[simp] theorem Dev.putDesc_sched (k : Nat) (x : Option Desc) : (d.putDesc k x).sched = { d.sched with descs := d.sched.descs.put none k x } := rfl
@[simp] theorem Dev.putDesc_stampIns (k : Nat) (x : Option Desc) : (d.putDesc k x).stampIns = d.stampIns := rfl
@[simp] theorem Dev.putDesc_intervals (k : Nat) (x : Option Desc) : (d.putDesc k x).intervals = d.intervals := rfl
@[simp] theorem Dev.putDesc_freqs (k : Nat) (x : Option Desc) : (d.putDesc k x).freqs = d.freqs := rfl
@[simp] theorem Dev.putDesc_cal (k : Nat) (x : Option Desc) : (d.putDesc k x).cal = d.cal := rfl
@[simp] theorem Dev.putDesc_trust (k : Nat) (x : Option Desc) : (d.putDesc k x).trust = d.trust := rfl
@[simp] theorem Dev.putDesc_jtag (k : Nat) (x : Option Desc) : (d.putDesc k x).jtag = d.jtag := rfl
@[simp] theorem Dev.putDesc_acqs (k : Nat) (x : Option Desc) : (d.putDesc k x).acqs = d.acqs := rfl
@[simp] theorem Dev.putDesc_srcs (k : Nat) (x : Option Desc) : (d.putDesc k x).srcs = d.srcs := rfl
@[simp] theorem Dev.putDesc_engines (k : Nat) (x : Option Desc) : (d.putDesc k x).engines = d.engines := rfl
@[simp] theorem Dev.putDesc_nano (k : Nat) (x : Option Desc) : (d.putDesc k x).nano = d.nano := rfl
@[simp] theorem Dev.putDesc_nanoStaged (k : Nat) (x : Option Desc) : (d.putDesc k x).nanoStaged = d.nanoStaged := rfl
@[simp] theorem Dev.putDesc_mirrors (k : Nat) (x : Option Desc) : (d.putDesc k x).mirrors = d.mirrors := rfl
@[simp] theorem Dev.putDesc_polls (k : Nat) (x : Option Desc) : (d.putDesc k x).polls = d.polls := rfl
@[simp] theorem Dev.putDesc_phaseRef (k : Nat) (x : Option Desc) : (d.putDesc k x).phaseRef = d.phaseRef := rfl
@[simp] theorem Dev.putDesc_freeIdx (k : Nat) (x : Option Desc) : (d.putDesc k x).freeIdx = d.freeIdx := rfl

/-! ### Dev.modDesc -/

@[simp] theorem Dev.modDesc_now (k : Nat) (f : Desc → Desc) : (d.modDesc k f).now = d.now := rfl
@[simp] theorem Dev.modDesc_raw (k : Nat) (f : Desc → Desc) : (d.modDesc k f).raw = d.raw := rfl
@[simp] theorem Dev.modDesc_regs (k : Nat) (f : Desc → Desc) : (d.modDesc k f).regs = d.regs := rfl
@[simp] theorem Dev.modDesc_tbase (k : Nat) (f : Desc → Desc) : (d.modDesc k f).tbase = d.tbase := rfl
@[simp] theorem Dev.modDesc_ras (k : Nat) (f : Desc → Desc) : (d.modDesc k f).ras = d.ras := rfl
@[simp] theorem Dev.modDesc_dram (k : Nat) (f : Desc → Desc) : (d.modDesc k f).dram = d.dram := rfl
@[simp] theorem Dev.modDesc_rings (k : Nat) (f : Desc → Desc) : (d.modDesc k f).rings = d.rings := rfl
@[simp] theorem Dev.modDesc_ledger (k : Nat) (f : Desc → Desc) : (d.modDesc k f).ledger = d.ledger := rfl
@[simp] theorem Dev.modDesc_ports (k : Nat) (f : Desc → Desc) : (d.modDesc k f).ports = d.ports := rfl
@[simp] theorem Dev.modDesc_lanes (k : Nat) (f : Desc → Desc) : (d.modDesc k f).lanes = d.lanes := rfl
@[simp] theorem Dev.modDesc_sites (k : Nat) (f : Desc → Desc) : (d.modDesc k f).sites = d.sites := rfl
@[simp] theorem Dev.modDesc_chans (k : Nat) (f : Desc → Desc) : (d.modDesc k f).chans = d.chans := rfl
@[simp] theorem Dev.modDesc_chanSets (k : Nat) (f : Desc → Desc) : (d.modDesc k f).chanSets = d.chanSets := rfl
@[simp] theorem Dev.modDesc_periods (k : Nat) (f : Desc → Desc) : (d.modDesc k f).periods = d.periods := rfl
@[simp] theorem Dev.modDesc_sched (k : Nat) (f : Desc → Desc) : (d.modDesc k f).sched = { d.sched with descs := d.sched.descs.put none k ((d.desc k).map f) } := rfl
@[simp] theorem Dev.modDesc_stampIns (k : Nat) (f : Desc → Desc) : (d.modDesc k f).stampIns = d.stampIns := rfl
@[simp] theorem Dev.modDesc_intervals (k : Nat) (f : Desc → Desc) : (d.modDesc k f).intervals = d.intervals := rfl
@[simp] theorem Dev.modDesc_freqs (k : Nat) (f : Desc → Desc) : (d.modDesc k f).freqs = d.freqs := rfl
@[simp] theorem Dev.modDesc_cal (k : Nat) (f : Desc → Desc) : (d.modDesc k f).cal = d.cal := rfl
@[simp] theorem Dev.modDesc_trust (k : Nat) (f : Desc → Desc) : (d.modDesc k f).trust = d.trust := rfl
@[simp] theorem Dev.modDesc_jtag (k : Nat) (f : Desc → Desc) : (d.modDesc k f).jtag = d.jtag := rfl
@[simp] theorem Dev.modDesc_acqs (k : Nat) (f : Desc → Desc) : (d.modDesc k f).acqs = d.acqs := rfl
@[simp] theorem Dev.modDesc_srcs (k : Nat) (f : Desc → Desc) : (d.modDesc k f).srcs = d.srcs := rfl
@[simp] theorem Dev.modDesc_engines (k : Nat) (f : Desc → Desc) : (d.modDesc k f).engines = d.engines := rfl
@[simp] theorem Dev.modDesc_nano (k : Nat) (f : Desc → Desc) : (d.modDesc k f).nano = d.nano := rfl
@[simp] theorem Dev.modDesc_nanoStaged (k : Nat) (f : Desc → Desc) : (d.modDesc k f).nanoStaged = d.nanoStaged := rfl
@[simp] theorem Dev.modDesc_mirrors (k : Nat) (f : Desc → Desc) : (d.modDesc k f).mirrors = d.mirrors := rfl
@[simp] theorem Dev.modDesc_polls (k : Nat) (f : Desc → Desc) : (d.modDesc k f).polls = d.polls := rfl
@[simp] theorem Dev.modDesc_phaseRef (k : Nat) (f : Desc → Desc) : (d.modDesc k f).phaseRef = d.phaseRef := rfl
@[simp] theorem Dev.modDesc_freeIdx (k : Nat) (f : Desc → Desc) : (d.modDesc k f).freeIdx = d.freeIdx := rfl

/-! ### Parts read after an update -/

@[simp] theorem Dev.modPort_same (k : Nat) (f : Port → Port) : (d.modPort k f).port k = f (d.port k) := Tbl.get_put_same _ _ _ _
theorem Dev.modPort_ne {j k : Nat} (h : j ≠ k) (f : Port → Port) : (d.modPort k f).port j = d.port j := Tbl.get_put_ne _ _ h _
@[simp] theorem Dev.modLane_same (k : Nat) (f : Lane → Lane) : (d.modLane k f).lane k = f (d.lane k) := Tbl.get_put_same _ _ _ _
theorem Dev.modLane_ne {j k : Nat} (h : j ≠ k) (f : Lane → Lane) : (d.modLane k f).lane j = d.lane j := Tbl.get_put_ne _ _ h _
@[simp] theorem Dev.modSite_same (k : Nat) (f : Site → Site) : (d.modSite k f).site k = f (d.site k) := Tbl.get_put_same _ _ _ _
theorem Dev.modSite_ne {j k : Nat} (h : j ≠ k) (f : Site → Site) : (d.modSite k f).site j = d.site j := Tbl.get_put_ne _ _ h _
@[simp] theorem Dev.modEngine_same (k : Nat) (f : Engine → Engine) : (d.modEngine k f).engine k = f (d.engine k) := Tbl.get_put_same _ _ _ _
theorem Dev.modEngine_ne {j k : Nat} (h : j ≠ k) (f : Engine → Engine) : (d.modEngine k f).engine j = d.engine j := Tbl.get_put_ne _ _ h _
@[simp] theorem Dev.modRing_same (k : Nat) (f : Ring → Ring) : (d.modRing k f).ring k = f (d.ring k) := Tbl.get_put_same _ _ _ _
theorem Dev.modRing_ne {j k : Nat} (h : j ≠ k) (f : Ring → Ring) : (d.modRing k f).ring j = d.ring j := Tbl.get_put_ne _ _ h _
@[simp] theorem Dev.modChan_same (k : Nat) (f : Chan → Chan) : (d.modChan k f).chan k = f (d.chan k) := Tbl.get_put_same _ _ _ _
theorem Dev.modChan_ne {j k : Nat} (h : j ≠ k) (f : Chan → Chan) : (d.modChan k f).chan j = d.chan j := Tbl.get_put_ne _ _ h _
@[simp] theorem Dev.modAcq_same (k : Nat) (f : Acq → Acq) : (d.modAcq k f).acq k = f (d.acq k) := Tbl.get_put_same _ _ _ _
theorem Dev.modAcq_ne {j k : Nat} (h : j ≠ k) (f : Acq → Acq) : (d.modAcq k f).acq j = d.acq j := Tbl.get_put_ne _ _ h _
@[simp] theorem Dev.modSrc_same (k : Nat) (f : Source → Source) : (d.modSrc k f).src k = f (d.src k) := Tbl.get_put_same _ _ _ _
theorem Dev.modSrc_ne {j k : Nat} (h : j ≠ k) (f : Source → Source) : (d.modSrc k f).src j = d.src j := Tbl.get_put_ne _ _ h _
@[simp] theorem Dev.modStampIn_same (k : Nat) (f : StampIn → StampIn) : (d.modStampIn k f).stampIn k = f (d.stampIn k) := Tbl.get_put_same _ _ _ _
theorem Dev.modStampIn_ne {j k : Nat} (h : j ≠ k) (f : StampIn → StampIn) : (d.modStampIn k f).stampIn j = d.stampIn j := Tbl.get_put_ne _ _ h _
@[simp] theorem Dev.modInterval_same (k : Nat) (f : Interval → Interval) : (d.modInterval k f).interval k = f (d.interval k) := Tbl.get_put_same _ _ _ _
theorem Dev.modInterval_ne {j k : Nat} (h : j ≠ k) (f : Interval → Interval) : (d.modInterval k f).interval j = d.interval j := Tbl.get_put_ne _ _ h _
@[simp] theorem Dev.modFreq_same (k : Nat) (f : Freq → Freq) : (d.modFreq k f).freq k = f (d.freq k) := Tbl.get_put_same _ _ _ _
theorem Dev.modFreq_ne {j k : Nat} (h : j ≠ k) (f : Freq → Freq) : (d.modFreq k f).freq j = d.freq j := Tbl.get_put_ne _ _ h _
@[simp] theorem Dev.rd_wr_same (r : Reg) (w : Word) : (d.wr r w).rd r = w := Tbl.get_put_same _ _ _ _
theorem Dev.rd_wr_ne {q r : Reg} (h : q.addr ≠ r.addr) (w : Word) : (d.wr r w).rd q = d.rd q := Tbl.get_put_ne' _ _ _ h _
@[simp] theorem Dev.desc_putDesc_same (k : Nat) (x : Option Desc) : (d.putDesc k x).desc k = x := Tbl.get_put_same _ _ _ _
theorem Dev.desc_putDesc_ne {j k : Nat} (h : j ≠ k) (x : Option Desc) : (d.putDesc k x).desc j = d.desc j := Tbl.get_put_ne _ _ h _
@[simp] theorem Dev.schPort_modSchPort_same (k : Nat) (f : SchPort → SchPort) : (d.modSchPort k f).schPort k = f (d.schPort k) := Tbl.get_put_same _ _ _ _
theorem Dev.schPort_modSchPort_ne {j k : Nat} (h : j ≠ k) (f : SchPort → SchPort) : (d.modSchPort k f).schPort j = d.schPort j := Tbl.get_put_ne _ _ h _

/-! ### Registers read through an update of another part -/

@[simp] theorem Dev.modPort_rd (k : Nat) (f : Port → Port) (r : Reg) : (d.modPort k f).rd r = d.rd r := rfl
@[simp] theorem Dev.modLane_rd (k : Nat) (f : Lane → Lane) (r : Reg) : (d.modLane k f).rd r = d.rd r := rfl
@[simp] theorem Dev.modSite_rd (k : Nat) (f : Site → Site) (r : Reg) : (d.modSite k f).rd r = d.rd r := rfl
@[simp] theorem Dev.modEngine_rd (k : Nat) (f : Engine → Engine) (r : Reg) : (d.modEngine k f).rd r = d.rd r := rfl
@[simp] theorem Dev.modRing_rd (k : Nat) (f : Ring → Ring) (r : Reg) : (d.modRing k f).rd r = d.rd r := rfl
@[simp] theorem Dev.modChan_rd (k : Nat) (f : Chan → Chan) (r : Reg) : (d.modChan k f).rd r = d.rd r := rfl
@[simp] theorem Dev.modAcq_rd (k : Nat) (f : Acq → Acq) (r : Reg) : (d.modAcq k f).rd r = d.rd r := rfl
@[simp] theorem Dev.modSrc_rd (k : Nat) (f : Source → Source) (r : Reg) : (d.modSrc k f).rd r = d.rd r := rfl
@[simp] theorem Dev.modStampIn_rd (k : Nat) (f : StampIn → StampIn) (r : Reg) : (d.modStampIn k f).rd r = d.rd r := rfl
@[simp] theorem Dev.modInterval_rd (k : Nat) (f : Interval → Interval) (r : Reg) : (d.modInterval k f).rd r = d.rd r := rfl
@[simp] theorem Dev.modFreq_rd (k : Nat) (f : Freq → Freq) (r : Reg) : (d.modFreq k f).rd r = d.rd r := rfl
@[simp] theorem Dev.modRas_rd (f : Ras → Ras) (r : Reg) : (d.modRas f).rd r = d.rd r := rfl
@[simp] theorem Dev.modDram_rd (f : Dram → Dram) (r : Reg) : (d.modDram f).rd r = d.rd r := rfl
@[simp] theorem Dev.modLedger_rd (f : Ledger → Ledger) (r : Reg) : (d.modLedger f).rd r = d.rd r := rfl
@[simp] theorem Dev.modTime_rd (f : TimeBase → TimeBase) (r : Reg) : (d.modTime f).rd r = d.rd r := rfl
@[simp] theorem Dev.modSched_rd (f : Sched → Sched) (r : Reg) : (d.modSched f).rd r = d.rd r := rfl
@[simp] theorem Dev.modTrust_rd (f : Trust → Trust) (r : Reg) : (d.modTrust f).rd r = d.rd r := rfl
@[simp] theorem Dev.modCal_rd (f : Cal → Cal) (r : Reg) : (d.modCal f).rd r = d.rd r := rfl
@[simp] theorem Dev.modBurst_rd (k : Nat) (f : Burst → Burst) (r : Reg) : (d.modBurst k f).rd r = d.rd r := rfl
@[simp] theorem Dev.modSchPort_rd (k : Nat) (f : SchPort → SchPort) (r : Reg) : (d.modSchPort k f).rd r = d.rd r := rfl
@[simp] theorem Dev.putDesc_rd (k : Nat) (x : Option Desc) (r : Reg) : (d.putDesc k x).rd r = d.rd r := rfl
@[simp] theorem Dev.modDesc_rd (k : Nat) (f : Desc → Desc) (r : Reg) : (d.modDesc k f).rd r = d.rd r := rfl

/-! ### The mirror -/

@[simp] theorem State.mirror_now (s : State) : s.mirror.now = s.clock.now := rfl
@[simp] theorem State.mirror_raw (s : State) : s.mirror.raw = s.clock.raw := rfl
@[simp] theorem State.mirror_regs (s : State) : s.mirror.regs = s.dev.regs := rfl
@[simp] theorem State.mirror_tbase (s : State) : s.mirror.tbase = s.dev.tbase := rfl
@[simp] theorem State.mirror_ras (s : State) : s.mirror.ras = s.dev.ras := rfl
@[simp] theorem State.mirror_dram (s : State) : s.mirror.dram = s.dev.dram := rfl
@[simp] theorem State.mirror_rings (s : State) : s.mirror.rings = s.dev.rings := rfl
@[simp] theorem State.mirror_ledger (s : State) : s.mirror.ledger = s.dev.ledger := rfl
@[simp] theorem State.mirror_ports (s : State) : s.mirror.ports = s.dev.ports := rfl
@[simp] theorem State.mirror_lanes (s : State) : s.mirror.lanes = s.dev.lanes := rfl
@[simp] theorem State.mirror_sites (s : State) : s.mirror.sites = s.dev.sites := rfl
@[simp] theorem State.mirror_chans (s : State) : s.mirror.chans = s.dev.chans := rfl
@[simp] theorem State.mirror_chanSets (s : State) : s.mirror.chanSets = s.dev.chanSets := rfl
@[simp] theorem State.mirror_periods (s : State) : s.mirror.periods = s.dev.periods := rfl
@[simp] theorem State.mirror_sched (s : State) : s.mirror.sched = s.dev.sched := rfl
@[simp] theorem State.mirror_stampIns (s : State) : s.mirror.stampIns = s.dev.stampIns := rfl
@[simp] theorem State.mirror_intervals (s : State) : s.mirror.intervals = s.dev.intervals := rfl
@[simp] theorem State.mirror_freqs (s : State) : s.mirror.freqs = s.dev.freqs := rfl
@[simp] theorem State.mirror_cal (s : State) : s.mirror.cal = s.dev.cal := rfl
@[simp] theorem State.mirror_trust (s : State) : s.mirror.trust = s.dev.trust := rfl
@[simp] theorem State.mirror_jtag (s : State) : s.mirror.jtag = s.dev.jtag := rfl
@[simp] theorem State.mirror_acqs (s : State) : s.mirror.acqs = s.dev.acqs := rfl
@[simp] theorem State.mirror_srcs (s : State) : s.mirror.srcs = s.dev.srcs := rfl
@[simp] theorem State.mirror_engines (s : State) : s.mirror.engines = s.dev.engines := rfl
@[simp] theorem State.mirror_nano (s : State) : s.mirror.nano = s.dev.nano := rfl
@[simp] theorem State.mirror_nanoStaged (s : State) : s.mirror.nanoStaged = s.dev.nanoStaged := rfl
@[simp] theorem State.mirror_mirrors (s : State) : s.mirror.mirrors = s.dev.mirrors := rfl
@[simp] theorem State.mirror_polls (s : State) : s.mirror.polls = s.dev.polls := rfl
@[simp] theorem State.mirror_phaseRef (s : State) : s.mirror.phaseRef = s.dev.phaseRef := rfl
@[simp] theorem State.mirror_freeIdx (s : State) : s.mirror.freeIdx = s.dev.freeIdx := rfl
@[simp] theorem State.mirror_port (s : State) (k : Nat) : s.mirror.port k = s.dev.port k := rfl
@[simp] theorem State.mirror_lane (s : State) (k : Nat) : s.mirror.lane k = s.dev.lane k := rfl
@[simp] theorem State.mirror_site (s : State) (k : Nat) : s.mirror.site k = s.dev.site k := rfl
@[simp] theorem State.mirror_engine (s : State) (k : Nat) : s.mirror.engine k = s.dev.engine k := rfl
@[simp] theorem State.mirror_ring (s : State) (k : Nat) : s.mirror.ring k = s.dev.ring k := rfl
@[simp] theorem State.mirror_chan (s : State) (k : Nat) : s.mirror.chan k = s.dev.chan k := rfl
@[simp] theorem State.mirror_acq (s : State) (k : Nat) : s.mirror.acq k = s.dev.acq k := rfl
@[simp] theorem State.mirror_src (s : State) (k : Nat) : s.mirror.src k = s.dev.src k := rfl
@[simp] theorem State.mirror_stampIn (s : State) (k : Nat) : s.mirror.stampIn k = s.dev.stampIn k := rfl
@[simp] theorem State.mirror_interval (s : State) (k : Nat) : s.mirror.interval k = s.dev.interval k := rfl
@[simp] theorem State.mirror_freq (s : State) (k : Nat) : s.mirror.freq k = s.dev.freq k := rfl
@[simp] theorem State.mirror_schPort (s : State) (k : Nat) : s.mirror.schPort k = s.dev.schPort k := rfl
@[simp] theorem State.mirror_desc (s : State) (k : Nat) : s.mirror.desc k = s.dev.desc k := rfl
@[simp] theorem State.mirror_burst (s : State) (k : Nat) : s.mirror.burst k = s.dev.burst k := rfl
@[simp] theorem State.mirror_rd (s : State) (k : Reg) : s.mirror.rd k = s.dev.rd k := rfl

end Sys2Proof.Machine
end

