-- ==== Sys2Proof/Laws/Markers.lean ====
section
/-! SUPPORT. Laws of the device's alignment markers (11_lanes_and_host_link.md R376): what their count may touch and where it stands. -/
namespace Sys2Proof.Machine

/-- R376: markers counted up to a time: SEQ follows the blocks that have passed, and the last marker lies less than one interval back. -/
theorem Marks.upTo_last (m : Marks) (interval now : Nat) (hi : 0 < interval) (hn : m.time ≤ now) :
    (m.upTo interval now).time ≤ now ∧ now < (m.upTo interval now).time + interval := by
  have h := Nat.div_add_mod (now - m.time) interval
  have := Nat.mod_lt (now - m.time) hi
  simp only [Marks.upTo]
  rw [Nat.mul_comm] at h
  omega

/-- Counting on from a count changes nothing more. -/
theorem Marks.upTo_again (m : Marks) (interval now : Nat) (hi : 0 < interval) (hn : m.time ≤ now) :
    (m.upTo interval now).upTo interval now = { m.upTo interval now with seq := (m.upTo interval now).seq % 2 ^ 24 } := by
  have h := Marks.upTo_last m interval now hi hn
  have : (now - (m.upTo interval now).time) / interval = 0 := Nat.div_eq_of_lt (by omega)
  rw [Marks.upTo, this]
  simp

/-- A bundle's count of markers leaves every register as it is. -/
@[simp] theorem Dev.setMarks_regs (d : Dev) (l : Nat) (m : Marks) : (d.setMarks l m).regs = d.regs := by
  unfold Dev.setMarks; split <;> rfl

/-- A marker that a lane sends leaves every register as it is. -/
@[simp] theorem sendMarker_regs (k : Nat) (d : Dev) (l seq : Nat) : (sendMarker k d l seq).regs = d.regs := rfl

end Sys2Proof.Machine
end

