-- ==== Sys2Proof/Laws/Shared.lean ====
section
/-! SUPPORT. Laws of the operations that many commands share: what a report, a write of the device, a ledger entry and a store of a burst may
touch, said once, and for each field that they leave alone one lemma. -/
namespace Sys2Proof.Machine

/-! ### Conditional and repeated changes -/

theorem Dev.onlyIf_keeps {α : Type} (g : Dev → α) {f : Dev → Dev} {d : Dev} (c : Bool) (h : g (f d) = g d) : g (d.onlyIf c f) = g d := by
  cases c
  · rfl
  · exact h

theorem Dev.each_ind {α : Type} {p : Dev → Prop} {f : Dev → α → Dev} (h : ∀ d x, p d → p (f d x)) :
    ∀ (l : List α) (d : Dev), p d → p (d.each l f)
  | [], _, hd => hd
  | x :: xs, d, hd => Dev.each_ind h xs (f d x) (h d x hd)

theorem Dev.each_keeps {α β : Type} (g : Dev → β) {f : Dev → α → Dev} (h : ∀ d x, g (f d x) = g d) (d : Dev) (l : List α) :
    g (d.each l f) = g d := Dev.each_ind (p := fun x => g x = g d) (fun y x e => (h y x).trans e) l d rfl

/-! ### Reports (R476): the RAS block and the register file only -/

theorem fatalHold_touches (d : Dev) : ∃ ras regs, fatalHold d = { d with ras := ras, regs := regs } := by
  unfold fatalHold; dsimp only; split <;> exact ⟨_, _, rfl⟩

theorem rasEngine_touches (d : Dev) (r : RasRec) : ∃ ras, rasEngine d r = { d with ras := ras } := by
  unfold rasEngine; split
  · split <;> exact ⟨_, rfl⟩
  · exact ⟨_, rfl⟩

theorem rasAppend_touches (d : Dev) (r : RasRec) : ∃ ras regs, rasAppend d r = { d with ras := ras, regs := regs } := by
  unfold rasAppend Dev.onlyIf; dsimp only; split <;> exact ⟨_, _, rfl⟩

theorem rasReport_touches (d : Dev) (src sev isl addr sites : Nat) (e p : Option Nat) :
    ∃ ras regs, rasReport d src sev isl addr sites e p = { d with ras := ras, regs := regs } := by
  have last : ∀ (x : Dev) (r : RasRec), (∃ ras regs, x = { d with ras := ras, regs := regs }) →
      ∃ ras regs, (rasEngine x r).onlyIf (decide (sev = sevFatal)) fatalHold = { d with ras := ras, regs := regs } := by
    rintro x r ⟨a, b, rfl⟩
    obtain ⟨c, hc⟩ := rasEngine_touches { d with ras := a, regs := b } r
    rw [hc]
    unfold Dev.onlyIf
    split
    · obtain ⟨u, v, h⟩ := fatalHold_touches { d with ras := c, regs := b }
      exact ⟨u, v, h⟩
    · exact ⟨_, _, rfl⟩
  unfold rasReport
  dsimp only
  refine last _ _ ?_
  split
  · exact ⟨_, _, rfl⟩
  · obtain ⟨a, b, h⟩ := rasAppend_touches d ⟨src, sev, isl, d.now, d.timeValid, 1, addr, sites, e, p, d.raw⟩
    rw [h]
    exact ⟨_, _, rfl⟩

theorem writeReported_touches (d : Dev) (a : Nat) :
    ∃ dram ras regs, writeReported d a = { d with dram := dram, ras := ras, regs := regs } := by
  obtain ⟨u, v, h⟩ := rasReport_touches (d.modDram fun m => { m with wRefuse := (m.wRefuse + 1) % 2 ^ 64 }) 0x0A sevContained 9 a 0 none none
  exact ⟨_, u, v, h⟩

/-! ### Reads and writes of the device (R211, R212, R222, R226): the DRAM, and reports beside -/

theorem poisonRead_touches (d : Dev) (a : Nat) :
    ∃ dram ras regs, poisonRead d a = { d with dram := dram, ras := ras, regs := regs } := by
  obtain ⟨u, v, h⟩ := rasReport_touches (d.modDram fun m => { m with ueCount := (m.ueCount + 1) % 2 ^ 64 }) 0x0A sevContained 9 a (d.boltSites a)
    none none
  exact ⟨_, u, v, h⟩

/-- What a change leaves alone when it reaches the DRAM and the reports only. -/
def Dev.KeptBesides (d x : Dev) : Prop := ∃ dram ras regs, x = { d with dram := dram, ras := ras, regs := regs }

theorem Dev.KeptBesides.refl (d : Dev) : d.KeptBesides d := ⟨_, _, _, rfl⟩

theorem Dev.KeptBesides.trans {d x y : Dev} (h : d.KeptBesides x) (k : x.KeptBesides y) : d.KeptBesides y := by
  obtain ⟨_, _, _, rfl⟩ := h
  obtain ⟨a, b, c, rfl⟩ := k
  exact ⟨a, b, c, rfl⟩

theorem writeLine_kept (d : Dev) (cls a : Nat) (bs : List Byte) : d.KeptBesides (writeLine d cls a bs).2 := by
  unfold writeLine
  split
  · exact .refl d
  · split
    · exact poisonRead_touches d a
    · exact ⟨_, _, _, rfl⟩

theorem writeLines_kept (d : Dev) (cls a : Nat) (bs : List Byte) : d.KeptBesides (writeLines d cls a bs).2 := by
  have go : ∀ (l : List (Nat × List Byte)) (r : Bool × Dev), d.KeptBesides r.2 →
      d.KeptBesides (l.foldl (fun r q => let w := writeLine r.2 cls q.1 q.2; (r.1 && w.1, w.2)) r).2 := by
    intro l
    induction l with
    | nil => exact fun r h => h
    | cons q qs ih => exact fun r h => ih _ (h.trans (writeLine_kept r.2 cls q.1 q.2))
  exact go _ _ (.refl d)

theorem devTry_kept (d : Dev) (cls a : Nat) (bs : List Byte) : d.KeptBesides (devTry d cls a bs) := by
  unfold devTry
  split
  · unfold devLand
    dsimp only
    split
    · exact writeLines_kept d cls a bs
    · exact (writeLines_kept d cls a bs).trans (writeReported_touches _ a)
  · exact ⟨_, _, _, rfl⟩

theorem heldWrites_kept (d : Dev) : d.KeptBesides (heldWrites d) := by
  unfold heldWrites
  refine Dev.each_ind (p := d.KeptBesides) (fun x h k => ?_) d.dram.held _ ⟨_, _, _, rfl⟩
  cases h with
  | write cls a bs => exact k.trans (devTry_kept x cls a bs)
  | port p => exact k.trans ⟨_, _, _, rfl⟩

theorem devWrite_touches (d : Dev) (cls a : Nat) (bs : List Byte) :
    ∃ dram ras regs, devWrite d cls a bs = { d with dram := dram, ras := ras, regs := regs } := by
  unfold devWrite Dev.onlyIf
  split
  · exact (heldWrites_kept d).trans (devTry_kept _ cls a bs)
  · exact devTry_kept d cls a bs

theorem rtIssue_kept (d : Dev) (a : Nat) : d.KeptBesides (rtIssue d a) := by
  unfold rtIssue wqDrained Dev.onlyIf
  dsimp only
  split
  · exact .refl d
  · split
    · exact ⟨_, _, _, rfl⟩
    · split <;> exact ⟨_, _, _, rfl⟩

/-- R210, R222: reads for the device's real-time readers. -/
theorem readsDone_kept (d : Dev) (ls : List (Nat × Bool)) : d.KeptBesides (readsDone d ls) := by
  refine Dev.each_ind (p := d.KeptBesides) (fun x l k => k.trans ((rtIssue_kept x l.1).trans ?_)) ls d (.refl d)
  unfold Dev.onlyIf
  split
  · exact poisonRead_touches _ _
  · exact .refl _

/-! ### Ledger entries (R272, R273): the ledger's positions beside -/

theorem ledgerRaw_touches (d : Dev) (bs : List Byte) :
    ∃ dram ras regs l, ledgerRaw d bs = { d with dram := dram, ras := ras, regs := regs, ledger := l } := by
  unfold ledgerRaw
  obtain ⟨a, b, c, h⟩ := devWrite_touches d clsRealTime (32 * (d.ledger.wpos % 2 ^ 25)) bs
  rw [h]
  exact ⟨_, _, _, _, rfl⟩

theorem ledgerTv_touches (d : Dev) (tv : Bool) (kind uclass site unit time aux w2 w3 : Nat) :
    ∃ dram ras regs l, ledgerTv d tv kind uclass site unit time aux w2 w3 = { d with dram := dram, ras := ras, regs := regs, ledger := l } := by
  have gap : ∃ dram ras regs l, ledgerGap d = { d with dram := dram, ras := ras, regs := regs, ledger := l } := by
    unfold ledgerGap
    split
    · obtain ⟨a, b, c, l, h⟩ := ledgerRaw_touches d (ledgerBytes 0x13 ucEvent d.timeValid 0 0 d.now 0 d.ledger.gap 0)
      rw [h]
      exact ⟨_, _, _, _, rfl⟩
    · exact ⟨_, _, _, _, rfl⟩
  obtain ⟨a, b, c, l, h⟩ := gap
  unfold ledgerTv ledgerPutTv
  dsimp only
  rw [h]
  split
  · exact ⟨_, _, _, _, rfl⟩
  · split
    · obtain ⟨a', b', c', l', h'⟩ := ledgerRaw_touches { d with dram := a, ras := b, regs := c, ledger := l }
        (ledgerBytes kind uclass tv site unit time aux w2 w3)
      exact ⟨a', b', c', l', h'⟩
    · exact ⟨_, _, _, _, rfl⟩

theorem ledger_touches (d : Dev) (kind uclass site unit time aux w2 w3 : Nat) :
    ∃ dram ras regs l, ledger d kind uclass site unit time aux w2 w3 = { d with dram := dram, ras := ras, regs := regs, ledger := l } :=
  ledgerTv_touches d d.timeValid kind uclass site unit time aux w2 w3

/-! ### Bursts: the engines only -/

theorem setBurst_touches (d : Dev) (e : Nat) (b : Burst) : ∃ engines, setBurst d e b = { d with engines := engines } := ⟨_, rfl⟩
theorem programFault_touches (d : Dev) (e : Nat) (b : Burst) (code pc : Nat) (st : Bool) :
    ∃ engines, programFault d e b code pc st = { d with engines := engines } := ⟨_, rfl⟩

/-- What an engine's prefetcher may touch: its burst, the DRAM with its reports, and the ring whose F follows. -/
theorem prefetch_touches (d : Dev) (e : Nat) :
    ∃ dram ras regs rings engines, prefetch d e = { d with dram := dram, ras := ras, regs := regs, rings := rings, engines := engines } := by
  unfold prefetch
  split
  · exact ⟨_, _, _, _, _, rfl⟩
  · rename_i b _
    dsimp only
    split
    · obtain ⟨u, v, w, h⟩ := readsDone_kept _ _
      rw [h]
      exact ⟨_, _, _, _, _, rfl⟩
    · obtain ⟨u, v, w, h⟩ := readsDone_kept _ _
      rw [h]
      exact ⟨_, _, _, _, _, rfl⟩

/-- Everything an Asell instruction's command can do: nothing, a program fault at the instruction, the words of a routine of which a host has
rewritten one, or what its routine gives. -/
theorem runOpcode_cases (d : Dev) (e op : Nat) (run : Dev → Burst → Word64 → Nat → Except Stop Burst) :
    runOpcode d e op run = d ∨
    (∃ b code, readyBurst d e = some b ∧ runOpcode d e op run = programFault d e b code b.pc b.inStream) ∨
    (∃ b h row, readyBurst d e = some b ∧ fetchWord d b b.pc = .ok h ∧ opcodeAbsent d e (hOpc h) = false ∧ hOpc h = op ∧ opRow op = some row ∧
      (runsLining d e op && !b.redirected) = false ∧ headerField row h = false ∧
      ((rewritten d e op = true ∧ runOpcode d e op run = runWords (setBurst d e (beginMicro d e op b h (extWords h))) e 1024) ∨
        (rewritten d e op = false ∧ runOpcode d e op run = finishInstr d e b h (run d b h (b.pc + 1))))) := by
  unfold runOpcode
  split
  · exact .inl rfl
  · rename_i b hb
    split
    · exact .inr (.inl ⟨b, _, hb, rfl⟩)
    · exact .inl rfl
    · rename_i h hf
      by_cases ha : opcodeAbsent d e (hOpc h) = true
      · rw [if_pos ha]; exact .inr (.inl ⟨b, _, hb, rfl⟩)
      rw [if_neg ha]
      by_cases ho : hOpc h ≠ op
      · rw [if_pos ho]; exact .inl rfl
      rw [if_neg ho]
      split
      · exact .inl rfl
      · rename_i row hr
        by_cases hl : runsLining d e op = true ∧ (!b.redirected) = true
        · rw [if_pos hl]; exact .inl rfl
        rw [if_neg hl]
        by_cases hh : headerField row h = true
        · rw [if_pos hh]; exact .inr (.inl ⟨b, _, hb, rfl⟩)
        rw [if_neg hh]
        refine .inr (.inr ⟨b, h, row, hb, hf, by simpa using ha, by simpa using ho, hr, by simpa using hl, by simpa using hh, ?_⟩)
        by_cases hw : rewritten d e op = true
        · exact .inl ⟨hw, if_pos hw⟩
        · exact .inr ⟨by simpa using hw, if_neg hw⟩

/-! ### What they leave alone, field by field -/

@[simp] theorem rasReport_now (d : Dev) (src sev isl addr sites : Nat) (e p : Option Nat) : (rasReport d src sev isl addr sites e p).now = d.now := by
  obtain ⟨_, _, h⟩ := rasReport_touches d src sev isl addr sites e p; rw [h]
@[simp] theorem rasReport_raw (d : Dev) (src sev isl addr sites : Nat) (e p : Option Nat) : (rasReport d src sev isl addr sites e p).raw = d.raw := by
  obtain ⟨_, _, h⟩ := rasReport_touches d src sev isl addr sites e p; rw [h]
@[simp] theorem rasReport_tbase (d : Dev) (src sev isl addr sites : Nat) (e p : Option Nat) : (rasReport d src sev isl addr sites e p).tbase = d.tbase := by
  obtain ⟨_, _, h⟩ := rasReport_touches d src sev isl addr sites e p; rw [h]
@[simp] theorem rasReport_dram (d : Dev) (src sev isl addr sites : Nat) (e p : Option Nat) : (rasReport d src sev isl addr sites e p).dram = d.dram := by
  obtain ⟨_, _, h⟩ := rasReport_touches d src sev isl addr sites e p; rw [h]
@[simp] theorem rasReport_rings (d : Dev) (src sev isl addr sites : Nat) (e p : Option Nat) : (rasReport d src sev isl addr sites e p).rings = d.rings := by
  obtain ⟨_, _, h⟩ := rasReport_touches d src sev isl addr sites e p; rw [h]
@[simp] theorem rasReport_ledger (d : Dev) (src sev isl addr sites : Nat) (e p : Option Nat) : (rasReport d src sev isl addr sites e p).ledger = d.ledger := by
  obtain ⟨_, _, h⟩ := rasReport_touches d src sev isl addr sites e p; rw [h]
@[simp] theorem rasReport_ports (d : Dev) (src sev isl addr sites : Nat) (e p : Option Nat) : (rasReport d src sev isl addr sites e p).ports = d.ports := by
  obtain ⟨_, _, h⟩ := rasReport_touches d src sev isl addr sites e p; rw [h]
@[simp] theorem rasReport_lanes (d : Dev) (src sev isl addr sites : Nat) (e p : Option Nat) : (rasReport d src sev isl addr sites e p).lanes = d.lanes := by
  obtain ⟨_, _, h⟩ := rasReport_touches d src sev isl addr sites e p; rw [h]
@[simp] theorem rasReport_sites (d : Dev) (src sev isl addr sites : Nat) (e p : Option Nat) : (rasReport d src sev isl addr sites e p).sites = d.sites := by
  obtain ⟨_, _, h⟩ := rasReport_touches d src sev isl addr sites e p; rw [h]
@[simp] theorem rasReport_chans (d : Dev) (src sev isl addr sites : Nat) (e p : Option Nat) : (rasReport d src sev isl addr sites e p).chans = d.chans := by
  obtain ⟨_, _, h⟩ := rasReport_touches d src sev isl addr sites e p; rw [h]
@[simp] theorem rasReport_chanSets (d : Dev) (src sev isl addr sites : Nat) (e p : Option Nat) : (rasReport d src sev isl addr sites e p).chanSets = d.chanSets := by
  obtain ⟨_, _, h⟩ := rasReport_touches d src sev isl addr sites e p; rw [h]
@[simp] theorem rasReport_periods (d : Dev) (src sev isl addr sites : Nat) (e p : Option Nat) : (rasReport d src sev isl addr sites e p).periods = d.periods := by
  obtain ⟨_, _, h⟩ := rasReport_touches d src sev isl addr sites e p; rw [h]
@[simp] theorem rasReport_sched (d : Dev) (src sev isl addr sites : Nat) (e p : Option Nat) : (rasReport d src sev isl addr sites e p).sched = d.sched := by
  obtain ⟨_, _, h⟩ := rasReport_touches d src sev isl addr sites e p; rw [h]
@[simp] theorem rasReport_stampIns (d : Dev) (src sev isl addr sites : Nat) (e p : Option Nat) : (rasReport d src sev isl addr sites e p).stampIns = d.stampIns := by
  obtain ⟨_, _, h⟩ := rasReport_touches d src sev isl addr sites e p; rw [h]
@[simp] theorem rasReport_intervals (d : Dev) (src sev isl addr sites : Nat) (e p : Option Nat) : (rasReport d src sev isl addr sites e p).intervals = d.intervals := by
  obtain ⟨_, _, h⟩ := rasReport_touches d src sev isl addr sites e p; rw [h]
@[simp] theorem rasReport_freqs (d : Dev) (src sev isl addr sites : Nat) (e p : Option Nat) : (rasReport d src sev isl addr sites e p).freqs = d.freqs := by
  obtain ⟨_, _, h⟩ := rasReport_touches d src sev isl addr sites e p; rw [h]
@[simp] theorem rasReport_cal (d : Dev) (src sev isl addr sites : Nat) (e p : Option Nat) : (rasReport d src sev isl addr sites e p).cal = d.cal := by
  obtain ⟨_, _, h⟩ := rasReport_touches d src sev isl addr sites e p; rw [h]
@[simp] theorem rasReport_trust (d : Dev) (src sev isl addr sites : Nat) (e p : Option Nat) : (rasReport d src sev isl addr sites e p).trust = d.trust := by
  obtain ⟨_, _, h⟩ := rasReport_touches d src sev isl addr sites e p; rw [h]
@[simp] theorem rasReport_jtag (d : Dev) (src sev isl addr sites : Nat) (e p : Option Nat) : (rasReport d src sev isl addr sites e p).jtag = d.jtag := by
  obtain ⟨_, _, h⟩ := rasReport_touches d src sev isl addr sites e p; rw [h]
@[simp] theorem rasReport_acqs (d : Dev) (src sev isl addr sites : Nat) (e p : Option Nat) : (rasReport d src sev isl addr sites e p).acqs = d.acqs := by
  obtain ⟨_, _, h⟩ := rasReport_touches d src sev isl addr sites e p; rw [h]
@[simp] theorem rasReport_srcs (d : Dev) (src sev isl addr sites : Nat) (e p : Option Nat) : (rasReport d src sev isl addr sites e p).srcs = d.srcs := by
  obtain ⟨_, _, h⟩ := rasReport_touches d src sev isl addr sites e p; rw [h]
@[simp] theorem rasReport_engines (d : Dev) (src sev isl addr sites : Nat) (e p : Option Nat) : (rasReport d src sev isl addr sites e p).engines = d.engines := by
  obtain ⟨_, _, h⟩ := rasReport_touches d src sev isl addr sites e p; rw [h]
@[simp] theorem rasReport_nano (d : Dev) (src sev isl addr sites : Nat) (e p : Option Nat) : (rasReport d src sev isl addr sites e p).nano = d.nano := by
  obtain ⟨_, _, h⟩ := rasReport_touches d src sev isl addr sites e p; rw [h]
@[simp] theorem rasReport_nanoStaged (d : Dev) (src sev isl addr sites : Nat) (e p : Option Nat) : (rasReport d src sev isl addr sites e p).nanoStaged = d.nanoStaged := by
  obtain ⟨_, _, h⟩ := rasReport_touches d src sev isl addr sites e p; rw [h]
@[simp] theorem rasReport_mirrors (d : Dev) (src sev isl addr sites : Nat) (e p : Option Nat) : (rasReport d src sev isl addr sites e p).mirrors = d.mirrors := by
  obtain ⟨_, _, h⟩ := rasReport_touches d src sev isl addr sites e p; rw [h]
@[simp] theorem rasReport_polls (d : Dev) (src sev isl addr sites : Nat) (e p : Option Nat) : (rasReport d src sev isl addr sites e p).polls = d.polls := by
  obtain ⟨_, _, h⟩ := rasReport_touches d src sev isl addr sites e p; rw [h]
@[simp] theorem rasReport_phaseRef (d : Dev) (src sev isl addr sites : Nat) (e p : Option Nat) : (rasReport d src sev isl addr sites e p).phaseRef = d.phaseRef := by
  obtain ⟨_, _, h⟩ := rasReport_touches d src sev isl addr sites e p; rw [h]
@[simp] theorem rasReport_freeIdx (d : Dev) (src sev isl addr sites : Nat) (e p : Option Nat) : (rasReport d src sev isl addr sites e p).freeIdx = d.freeIdx := by
  obtain ⟨_, _, h⟩ := rasReport_touches d src sev isl addr sites e p; rw [h]

@[simp] theorem devWrite_now (d : Dev) (cls a : Nat) (bs : List Byte) : (devWrite d cls a bs).now = d.now := by
  obtain ⟨_, _, _, h⟩ := devWrite_touches d cls a bs; rw [h]
@[simp] theorem devWrite_raw (d : Dev) (cls a : Nat) (bs : List Byte) : (devWrite d cls a bs).raw = d.raw := by
  obtain ⟨_, _, _, h⟩ := devWrite_touches d cls a bs; rw [h]
@[simp] theorem devWrite_tbase (d : Dev) (cls a : Nat) (bs : List Byte) : (devWrite d cls a bs).tbase = d.tbase := by
  obtain ⟨_, _, _, h⟩ := devWrite_touches d cls a bs; rw [h]
@[simp] theorem devWrite_rings (d : Dev) (cls a : Nat) (bs : List Byte) : (devWrite d cls a bs).rings = d.rings := by
  obtain ⟨_, _, _, h⟩ := devWrite_touches d cls a bs; rw [h]
@[simp] theorem devWrite_ledger (d : Dev) (cls a : Nat) (bs : List Byte) : (devWrite d cls a bs).ledger = d.ledger := by
  obtain ⟨_, _, _, h⟩ := devWrite_touches d cls a bs; rw [h]
@[simp] theorem devWrite_ports (d : Dev) (cls a : Nat) (bs : List Byte) : (devWrite d cls a bs).ports = d.ports := by
  obtain ⟨_, _, _, h⟩ := devWrite_touches d cls a bs; rw [h]
@[simp] theorem devWrite_lanes (d : Dev) (cls a : Nat) (bs : List Byte) : (devWrite d cls a bs).lanes = d.lanes := by
  obtain ⟨_, _, _, h⟩ := devWrite_touches d cls a bs; rw [h]
@[simp] theorem devWrite_sites (d : Dev) (cls a : Nat) (bs : List Byte) : (devWrite d cls a bs).sites = d.sites := by
  obtain ⟨_, _, _, h⟩ := devWrite_touches d cls a bs; rw [h]
@[simp] theorem devWrite_chans (d : Dev) (cls a : Nat) (bs : List Byte) : (devWrite d cls a bs).chans = d.chans := by
  obtain ⟨_, _, _, h⟩ := devWrite_touches d cls a bs; rw [h]
@[simp] theorem devWrite_chanSets (d : Dev) (cls a : Nat) (bs : List Byte) : (devWrite d cls a bs).chanSets = d.chanSets := by
  obtain ⟨_, _, _, h⟩ := devWrite_touches d cls a bs; rw [h]
@[simp] theorem devWrite_periods (d : Dev) (cls a : Nat) (bs : List Byte) : (devWrite d cls a bs).periods = d.periods := by
  obtain ⟨_, _, _, h⟩ := devWrite_touches d cls a bs; rw [h]
@[simp] theorem devWrite_sched (d : Dev) (cls a : Nat) (bs : List Byte) : (devWrite d cls a bs).sched = d.sched := by
  obtain ⟨_, _, _, h⟩ := devWrite_touches d cls a bs; rw [h]
@[simp] theorem devWrite_stampIns (d : Dev) (cls a : Nat) (bs : List Byte) : (devWrite d cls a bs).stampIns = d.stampIns := by
  obtain ⟨_, _, _, h⟩ := devWrite_touches d cls a bs; rw [h]
@[simp] theorem devWrite_intervals (d : Dev) (cls a : Nat) (bs : List Byte) : (devWrite d cls a bs).intervals = d.intervals := by
  obtain ⟨_, _, _, h⟩ := devWrite_touches d cls a bs; rw [h]
@[simp] theorem devWrite_freqs (d : Dev) (cls a : Nat) (bs : List Byte) : (devWrite d cls a bs).freqs = d.freqs := by
  obtain ⟨_, _, _, h⟩ := devWrite_touches d cls a bs; rw [h]
@[simp] theorem devWrite_cal (d : Dev) (cls a : Nat) (bs : List Byte) : (devWrite d cls a bs).cal = d.cal := by
  obtain ⟨_, _, _, h⟩ := devWrite_touches d cls a bs; rw [h]
@[simp] theorem devWrite_trust (d : Dev) (cls a : Nat) (bs : List Byte) : (devWrite d cls a bs).trust = d.trust := by
  obtain ⟨_, _, _, h⟩ := devWrite_touches d cls a bs; rw [h]
@[simp] theorem devWrite_jtag (d : Dev) (cls a : Nat) (bs : List Byte) : (devWrite d cls a bs).jtag = d.jtag := by
  obtain ⟨_, _, _, h⟩ := devWrite_touches d cls a bs; rw [h]
@[simp] theorem devWrite_acqs (d : Dev) (cls a : Nat) (bs : List Byte) : (devWrite d cls a bs).acqs = d.acqs := by
  obtain ⟨_, _, _, h⟩ := devWrite_touches d cls a bs; rw [h]
@[simp] theorem devWrite_srcs (d : Dev) (cls a : Nat) (bs : List Byte) : (devWrite d cls a bs).srcs = d.srcs := by
  obtain ⟨_, _, _, h⟩ := devWrite_touches d cls a bs; rw [h]
@[simp] theorem devWrite_engines (d : Dev) (cls a : Nat) (bs : List Byte) : (devWrite d cls a bs).engines = d.engines := by
  obtain ⟨_, _, _, h⟩ := devWrite_touches d cls a bs; rw [h]
@[simp] theorem devWrite_nano (d : Dev) (cls a : Nat) (bs : List Byte) : (devWrite d cls a bs).nano = d.nano := by
  obtain ⟨_, _, _, h⟩ := devWrite_touches d cls a bs; rw [h]
@[simp] theorem devWrite_nanoStaged (d : Dev) (cls a : Nat) (bs : List Byte) : (devWrite d cls a bs).nanoStaged = d.nanoStaged := by
  obtain ⟨_, _, _, h⟩ := devWrite_touches d cls a bs; rw [h]
@[simp] theorem devWrite_mirrors (d : Dev) (cls a : Nat) (bs : List Byte) : (devWrite d cls a bs).mirrors = d.mirrors := by
  obtain ⟨_, _, _, h⟩ := devWrite_touches d cls a bs; rw [h]
@[simp] theorem devWrite_polls (d : Dev) (cls a : Nat) (bs : List Byte) : (devWrite d cls a bs).polls = d.polls := by
  obtain ⟨_, _, _, h⟩ := devWrite_touches d cls a bs; rw [h]
@[simp] theorem devWrite_phaseRef (d : Dev) (cls a : Nat) (bs : List Byte) : (devWrite d cls a bs).phaseRef = d.phaseRef := by
  obtain ⟨_, _, _, h⟩ := devWrite_touches d cls a bs; rw [h]
@[simp] theorem devWrite_freeIdx (d : Dev) (cls a : Nat) (bs : List Byte) : (devWrite d cls a bs).freeIdx = d.freeIdx := by
  obtain ⟨_, _, _, h⟩ := devWrite_touches d cls a bs; rw [h]

@[simp] theorem ledger_now (d : Dev) (kind uclass site unit time aux w2 w3 : Nat) : (ledger d kind uclass site unit time aux w2 w3).now = d.now := by
  obtain ⟨_, _, _, _, h⟩ := ledger_touches d kind uclass site unit time aux w2 w3; rw [h]
@[simp] theorem ledger_raw (d : Dev) (kind uclass site unit time aux w2 w3 : Nat) : (ledger d kind uclass site unit time aux w2 w3).raw = d.raw := by
  obtain ⟨_, _, _, _, h⟩ := ledger_touches d kind uclass site unit time aux w2 w3; rw [h]
@[simp] theorem ledger_tbase (d : Dev) (kind uclass site unit time aux w2 w3 : Nat) : (ledger d kind uclass site unit time aux w2 w3).tbase = d.tbase := by
  obtain ⟨_, _, _, _, h⟩ := ledger_touches d kind uclass site unit time aux w2 w3; rw [h]
@[simp] theorem ledger_rings (d : Dev) (kind uclass site unit time aux w2 w3 : Nat) : (ledger d kind uclass site unit time aux w2 w3).rings = d.rings := by
  obtain ⟨_, _, _, _, h⟩ := ledger_touches d kind uclass site unit time aux w2 w3; rw [h]
@[simp] theorem ledger_ports (d : Dev) (kind uclass site unit time aux w2 w3 : Nat) : (ledger d kind uclass site unit time aux w2 w3).ports = d.ports := by
  obtain ⟨_, _, _, _, h⟩ := ledger_touches d kind uclass site unit time aux w2 w3; rw [h]
@[simp] theorem ledger_lanes (d : Dev) (kind uclass site unit time aux w2 w3 : Nat) : (ledger d kind uclass site unit time aux w2 w3).lanes = d.lanes := by
  obtain ⟨_, _, _, _, h⟩ := ledger_touches d kind uclass site unit time aux w2 w3; rw [h]
@[simp] theorem ledger_sites (d : Dev) (kind uclass site unit time aux w2 w3 : Nat) : (ledger d kind uclass site unit time aux w2 w3).sites = d.sites := by
  obtain ⟨_, _, _, _, h⟩ := ledger_touches d kind uclass site unit time aux w2 w3; rw [h]
@[simp] theorem ledger_chans (d : Dev) (kind uclass site unit time aux w2 w3 : Nat) : (ledger d kind uclass site unit time aux w2 w3).chans = d.chans := by
  obtain ⟨_, _, _, _, h⟩ := ledger_touches d kind uclass site unit time aux w2 w3; rw [h]
@[simp] theorem ledger_chanSets (d : Dev) (kind uclass site unit time aux w2 w3 : Nat) : (ledger d kind uclass site unit time aux w2 w3).chanSets = d.chanSets := by
  obtain ⟨_, _, _, _, h⟩ := ledger_touches d kind uclass site unit time aux w2 w3; rw [h]
@[simp] theorem ledger_periods (d : Dev) (kind uclass site unit time aux w2 w3 : Nat) : (ledger d kind uclass site unit time aux w2 w3).periods = d.periods := by
  obtain ⟨_, _, _, _, h⟩ := ledger_touches d kind uclass site unit time aux w2 w3; rw [h]
@[simp] theorem ledger_sched (d : Dev) (kind uclass site unit time aux w2 w3 : Nat) : (ledger d kind uclass site unit time aux w2 w3).sched = d.sched := by
  obtain ⟨_, _, _, _, h⟩ := ledger_touches d kind uclass site unit time aux w2 w3; rw [h]
@[simp] theorem ledger_stampIns (d : Dev) (kind uclass site unit time aux w2 w3 : Nat) : (ledger d kind uclass site unit time aux w2 w3).stampIns = d.stampIns := by
  obtain ⟨_, _, _, _, h⟩ := ledger_touches d kind uclass site unit time aux w2 w3; rw [h]
@[simp] theorem ledger_intervals (d : Dev) (kind uclass site unit time aux w2 w3 : Nat) : (ledger d kind uclass site unit time aux w2 w3).intervals = d.intervals := by
  obtain ⟨_, _, _, _, h⟩ := ledger_touches d kind uclass site unit time aux w2 w3; rw [h]
@[simp] theorem ledger_freqs (d : Dev) (kind uclass site unit time aux w2 w3 : Nat) : (ledger d kind uclass site unit time aux w2 w3).freqs = d.freqs := by
  obtain ⟨_, _, _, _, h⟩ := ledger_touches d kind uclass site unit time aux w2 w3; rw [h]
@[simp] theorem ledger_cal (d : Dev) (kind uclass site unit time aux w2 w3 : Nat) : (ledger d kind uclass site unit time aux w2 w3).cal = d.cal := by
  obtain ⟨_, _, _, _, h⟩ := ledger_touches d kind uclass site unit time aux w2 w3; rw [h]
@[simp] theorem ledger_trust (d : Dev) (kind uclass site unit time aux w2 w3 : Nat) : (ledger d kind uclass site unit time aux w2 w3).trust = d.trust := by
  obtain ⟨_, _, _, _, h⟩ := ledger_touches d kind uclass site unit time aux w2 w3; rw [h]
@[simp] theorem ledger_jtag (d : Dev) (kind uclass site unit time aux w2 w3 : Nat) : (ledger d kind uclass site unit time aux w2 w3).jtag = d.jtag := by
  obtain ⟨_, _, _, _, h⟩ := ledger_touches d kind uclass site unit time aux w2 w3; rw [h]
@[simp] theorem ledger_acqs (d : Dev) (kind uclass site unit time aux w2 w3 : Nat) : (ledger d kind uclass site unit time aux w2 w3).acqs = d.acqs := by
  obtain ⟨_, _, _, _, h⟩ := ledger_touches d kind uclass site unit time aux w2 w3; rw [h]
@[simp] theorem ledger_srcs (d : Dev) (kind uclass site unit time aux w2 w3 : Nat) : (ledger d kind uclass site unit time aux w2 w3).srcs = d.srcs := by
  obtain ⟨_, _, _, _, h⟩ := ledger_touches d kind uclass site unit time aux w2 w3; rw [h]
@[simp] theorem ledger_engines (d : Dev) (kind uclass site unit time aux w2 w3 : Nat) : (ledger d kind uclass site unit time aux w2 w3).engines = d.engines := by
  obtain ⟨_, _, _, _, h⟩ := ledger_touches d kind uclass site unit time aux w2 w3; rw [h]
@[simp] theorem ledger_nano (d : Dev) (kind uclass site unit time aux w2 w3 : Nat) : (ledger d kind uclass site unit time aux w2 w3).nano = d.nano := by
  obtain ⟨_, _, _, _, h⟩ := ledger_touches d kind uclass site unit time aux w2 w3; rw [h]
@[simp] theorem ledger_nanoStaged (d : Dev) (kind uclass site unit time aux w2 w3 : Nat) : (ledger d kind uclass site unit time aux w2 w3).nanoStaged = d.nanoStaged := by
  obtain ⟨_, _, _, _, h⟩ := ledger_touches d kind uclass site unit time aux w2 w3; rw [h]
@[simp] theorem ledger_mirrors (d : Dev) (kind uclass site unit time aux w2 w3 : Nat) : (ledger d kind uclass site unit time aux w2 w3).mirrors = d.mirrors := by
  obtain ⟨_, _, _, _, h⟩ := ledger_touches d kind uclass site unit time aux w2 w3; rw [h]
@[simp] theorem ledger_polls (d : Dev) (kind uclass site unit time aux w2 w3 : Nat) : (ledger d kind uclass site unit time aux w2 w3).polls = d.polls := by
  obtain ⟨_, _, _, _, h⟩ := ledger_touches d kind uclass site unit time aux w2 w3; rw [h]
@[simp] theorem ledger_phaseRef (d : Dev) (kind uclass site unit time aux w2 w3 : Nat) : (ledger d kind uclass site unit time aux w2 w3).phaseRef = d.phaseRef := by
  obtain ⟨_, _, _, _, h⟩ := ledger_touches d kind uclass site unit time aux w2 w3; rw [h]
@[simp] theorem ledger_freeIdx (d : Dev) (kind uclass site unit time aux w2 w3 : Nat) : (ledger d kind uclass site unit time aux w2 w3).freeIdx = d.freeIdx := by
  obtain ⟨_, _, _, _, h⟩ := ledger_touches d kind uclass site unit time aux w2 w3; rw [h]

@[simp] theorem setBurst_now (d : Dev) (e : Nat) (b : Burst) : (setBurst d e b).now = d.now := rfl
@[simp] theorem setBurst_raw (d : Dev) (e : Nat) (b : Burst) : (setBurst d e b).raw = d.raw := rfl
@[simp] theorem setBurst_regs (d : Dev) (e : Nat) (b : Burst) : (setBurst d e b).regs = d.regs := rfl
@[simp] theorem setBurst_tbase (d : Dev) (e : Nat) (b : Burst) : (setBurst d e b).tbase = d.tbase := rfl
@[simp] theorem setBurst_ras (d : Dev) (e : Nat) (b : Burst) : (setBurst d e b).ras = d.ras := rfl
@[simp] theorem setBurst_dram (d : Dev) (e : Nat) (b : Burst) : (setBurst d e b).dram = d.dram := rfl
@[simp] theorem setBurst_rings (d : Dev) (e : Nat) (b : Burst) : (setBurst d e b).rings = d.rings := rfl
@[simp] theorem setBurst_ledger (d : Dev) (e : Nat) (b : Burst) : (setBurst d e b).ledger = d.ledger := rfl
@[simp] theorem setBurst_ports (d : Dev) (e : Nat) (b : Burst) : (setBurst d e b).ports = d.ports := rfl
@[simp] theorem setBurst_lanes (d : Dev) (e : Nat) (b : Burst) : (setBurst d e b).lanes = d.lanes := rfl
@[simp] theorem setBurst_sites (d : Dev) (e : Nat) (b : Burst) : (setBurst d e b).sites = d.sites := rfl
@[simp] theorem setBurst_chans (d : Dev) (e : Nat) (b : Burst) : (setBurst d e b).chans = d.chans := rfl
@[simp] theorem setBurst_chanSets (d : Dev) (e : Nat) (b : Burst) : (setBurst d e b).chanSets = d.chanSets := rfl
@[simp] theorem setBurst_periods (d : Dev) (e : Nat) (b : Burst) : (setBurst d e b).periods = d.periods := rfl
@[simp] theorem setBurst_sched (d : Dev) (e : Nat) (b : Burst) : (setBurst d e b).sched = d.sched := rfl
@[simp] theorem setBurst_stampIns (d : Dev) (e : Nat) (b : Burst) : (setBurst d e b).stampIns = d.stampIns := rfl
@[simp] theorem setBurst_intervals (d : Dev) (e : Nat) (b : Burst) : (setBurst d e b).intervals = d.intervals := rfl
@[simp] theorem setBurst_freqs (d : Dev) (e : Nat) (b : Burst) : (setBurst d e b).freqs = d.freqs := rfl
@[simp] theorem setBurst_cal (d : Dev) (e : Nat) (b : Burst) : (setBurst d e b).cal = d.cal := rfl
@[simp] theorem setBurst_trust (d : Dev) (e : Nat) (b : Burst) : (setBurst d e b).trust = d.trust := rfl
@[simp] theorem setBurst_jtag (d : Dev) (e : Nat) (b : Burst) : (setBurst d e b).jtag = d.jtag := rfl
@[simp] theorem setBurst_acqs (d : Dev) (e : Nat) (b : Burst) : (setBurst d e b).acqs = d.acqs := rfl
@[simp] theorem setBurst_srcs (d : Dev) (e : Nat) (b : Burst) : (setBurst d e b).srcs = d.srcs := rfl
@[simp] theorem setBurst_nano (d : Dev) (e : Nat) (b : Burst) : (setBurst d e b).nano = d.nano := rfl
@[simp] theorem setBurst_nanoStaged (d : Dev) (e : Nat) (b : Burst) : (setBurst d e b).nanoStaged = d.nanoStaged := rfl
@[simp] theorem setBurst_mirrors (d : Dev) (e : Nat) (b : Burst) : (setBurst d e b).mirrors = d.mirrors := rfl
@[simp] theorem setBurst_polls (d : Dev) (e : Nat) (b : Burst) : (setBurst d e b).polls = d.polls := rfl
@[simp] theorem setBurst_phaseRef (d : Dev) (e : Nat) (b : Burst) : (setBurst d e b).phaseRef = d.phaseRef := rfl
@[simp] theorem setBurst_freeIdx (d : Dev) (e : Nat) (b : Burst) : (setBurst d e b).freeIdx = d.freeIdx := rfl

@[simp] theorem programFault_now (d : Dev) (e : Nat) (b : Burst) (code pc : Nat) (st : Bool) : (programFault d e b code pc st).now = d.now := rfl
@[simp] theorem programFault_raw (d : Dev) (e : Nat) (b : Burst) (code pc : Nat) (st : Bool) : (programFault d e b code pc st).raw = d.raw := rfl
@[simp] theorem programFault_regs (d : Dev) (e : Nat) (b : Burst) (code pc : Nat) (st : Bool) : (programFault d e b code pc st).regs = d.regs := rfl
@[simp] theorem programFault_tbase (d : Dev) (e : Nat) (b : Burst) (code pc : Nat) (st : Bool) : (programFault d e b code pc st).tbase = d.tbase := rfl
@[simp] theorem programFault_ras (d : Dev) (e : Nat) (b : Burst) (code pc : Nat) (st : Bool) : (programFault d e b code pc st).ras = d.ras := rfl
@[simp] theorem programFault_dram (d : Dev) (e : Nat) (b : Burst) (code pc : Nat) (st : Bool) : (programFault d e b code pc st).dram = d.dram := rfl
@[simp] theorem programFault_rings (d : Dev) (e : Nat) (b : Burst) (code pc : Nat) (st : Bool) : (programFault d e b code pc st).rings = d.rings := rfl
@[simp] theorem programFault_ledger (d : Dev) (e : Nat) (b : Burst) (code pc : Nat) (st : Bool) : (programFault d e b code pc st).ledger = d.ledger := rfl
@[simp] theorem programFault_ports (d : Dev) (e : Nat) (b : Burst) (code pc : Nat) (st : Bool) : (programFault d e b code pc st).ports = d.ports := rfl
@[simp] theorem programFault_lanes (d : Dev) (e : Nat) (b : Burst) (code pc : Nat) (st : Bool) : (programFault d e b code pc st).lanes = d.lanes := rfl
@[simp] theorem programFault_sites (d : Dev) (e : Nat) (b : Burst) (code pc : Nat) (st : Bool) : (programFault d e b code pc st).sites = d.sites := rfl
@[simp] theorem programFault_chans (d : Dev) (e : Nat) (b : Burst) (code pc : Nat) (st : Bool) : (programFault d e b code pc st).chans = d.chans := rfl
@[simp] theorem programFault_chanSets (d : Dev) (e : Nat) (b : Burst) (code pc : Nat) (st : Bool) : (programFault d e b code pc st).chanSets = d.chanSets := rfl
@[simp] theorem programFault_periods (d : Dev) (e : Nat) (b : Burst) (code pc : Nat) (st : Bool) : (programFault d e b code pc st).periods = d.periods := rfl
@[simp] theorem programFault_sched (d : Dev) (e : Nat) (b : Burst) (code pc : Nat) (st : Bool) : (programFault d e b code pc st).sched = d.sched := rfl
@[simp] theorem programFault_stampIns (d : Dev) (e : Nat) (b : Burst) (code pc : Nat) (st : Bool) : (programFault d e b code pc st).stampIns = d.stampIns := rfl
@[simp] theorem programFault_intervals (d : Dev) (e : Nat) (b : Burst) (code pc : Nat) (st : Bool) : (programFault d e b code pc st).intervals = d.intervals := rfl
@[simp] theorem programFault_freqs (d : Dev) (e : Nat) (b : Burst) (code pc : Nat) (st : Bool) : (programFault d e b code pc st).freqs = d.freqs := rfl
@[simp] theorem programFault_cal (d : Dev) (e : Nat) (b : Burst) (code pc : Nat) (st : Bool) : (programFault d e b code pc st).cal = d.cal := rfl
@[simp] theorem programFault_trust (d : Dev) (e : Nat) (b : Burst) (code pc : Nat) (st : Bool) : (programFault d e b code pc st).trust = d.trust := rfl
@[simp] theorem programFault_jtag (d : Dev) (e : Nat) (b : Burst) (code pc : Nat) (st : Bool) : (programFault d e b code pc st).jtag = d.jtag := rfl
@[simp] theorem programFault_acqs (d : Dev) (e : Nat) (b : Burst) (code pc : Nat) (st : Bool) : (programFault d e b code pc st).acqs = d.acqs := rfl
@[simp] theorem programFault_srcs (d : Dev) (e : Nat) (b : Burst) (code pc : Nat) (st : Bool) : (programFault d e b code pc st).srcs = d.srcs := rfl
@[simp] theorem programFault_nano (d : Dev) (e : Nat) (b : Burst) (code pc : Nat) (st : Bool) : (programFault d e b code pc st).nano = d.nano := rfl
@[simp] theorem programFault_nanoStaged (d : Dev) (e : Nat) (b : Burst) (code pc : Nat) (st : Bool) : (programFault d e b code pc st).nanoStaged = d.nanoStaged := rfl
@[simp] theorem programFault_mirrors (d : Dev) (e : Nat) (b : Burst) (code pc : Nat) (st : Bool) : (programFault d e b code pc st).mirrors = d.mirrors := rfl
@[simp] theorem programFault_polls (d : Dev) (e : Nat) (b : Burst) (code pc : Nat) (st : Bool) : (programFault d e b code pc st).polls = d.polls := rfl
@[simp] theorem programFault_phaseRef (d : Dev) (e : Nat) (b : Burst) (code pc : Nat) (st : Bool) : (programFault d e b code pc st).phaseRef = d.phaseRef := rfl
@[simp] theorem programFault_freeIdx (d : Dev) (e : Nat) (b : Burst) (code pc : Nat) (st : Bool) : (programFault d e b code pc st).freeIdx = d.freeIdx := rfl

/-! ### Routines of the package (R86, R110) -/

theorem entry_has_cluster_form (n : Nat) : bit ((0xD0000000 : Word) ||| BitVec.ofNat 32 n) 31 = true := by
  simp only [bit, BitVec.getLsbD_or]
  rw [show (0xD0000000 : Word).getLsbD 31 = true from by decide, Bool.true_or]

/-- An opcode whose directory entry is the package's, in an engine that runs clusters and whose horizontal store the host has not written. -/
abbrev Dev.packaged (d : Dev) (e k : Nat) : Prop :=
  d.ucode ≠ 0 ∧ k < 64 ∧ (opRow k).isSome = true ∧ (d.engine e).dir.get none k = none ∧ (d.engine e).liningOnly = [] ∧
    d.flag (.ENG_CTL e) 1 = false ∧ (d.engine e).hstore.cells = []

theorem packaged_entry {d : Dev} {e k : Nat} (h : d.packaged e k) : bit (d.dirEntry e k) 31 = true := by
  obtain ⟨h1, h2, h3, h4, -⟩ := h
  unfold Dev.dirEntry Dev.stdDir
  rw [h4, Option.getD_none, if_pos ⟨h2, h1, h3⟩]
  exact entry_has_cluster_form _

/-- A packaged opcode is present, runs its cluster form, and is not rewritten. -/
theorem packaged_runs {d : Dev} {e k : Nat} (h : d.packaged e k) :
    d.present e k = true ∧ runsLining d e k = false ∧ rewritten d e k = false := by
  have p := packaged_entry h
  obtain ⟨-, -, -, h4, h5, h6, h7⟩ := h
  have r : runsLining d e k = false := by unfold runsLining; rw [p, h5, h6]; simp
  refine ⟨by unfold Dev.present; rw [p]; rfl, r, ?_⟩
  unfold rewritten
  rw [h4]
  simp [startMicro, r, changedAt, changedForm, h7, Tbl.get, lookup]

end Sys2Proof.Machine
end

