-- ==== Sys2Proof/Laws/Memory.lean ====
section
/-! SUPPORT. Laws of the DRAM's contents: every operation keeps the canonical form, and says which bytes it changes. -/
namespace Sys2Proof.Machine

theorem memPut_wf {m : List Host.Cell} (h : Memory.wf m = true) (a : Nat) (b : Byte) : Memory.wf (memPut m a b) = true := by
  unfold memPut; split
  · exact canonical_erase a h
  · next hb => exact canonical_insert hb (Nat.zero_le a) h

theorem memWrite_wf {m : List Host.Cell} (h : Memory.wf m = true) (a : Nat) (bs : List Byte) : Memory.wf (memWrite m a bs) = true := by
  induction bs generalizing m a with
  | nil => exact h
  | cons b bs ih => exact ih (memPut_wf h a b) (a + 1)

theorem memPut_same (m : List Host.Cell) (a : Nat) (b : Byte) : lookup 0 a (memPut m a b) = b := by
  unfold memPut; split
  · next h => simp [h]
  · simp

theorem memPut_ne (m : List Host.Cell) {a x : Nat} (h : x ≠ a) (b : Byte) : lookup 0 x (memPut m a b) = lookup 0 x m := by
  unfold memPut; split
  · exact lookup_erase_ne 0 h m
  · exact lookup_insert_ne 0 h b m

/-- A byte below or above the bytes written keeps its value. -/
theorem memWrite_outside (m : List Host.Cell) (a x : Nat) (bs : List Byte) (h : x < a ∨ a + bs.length ≤ x) :
    lookup 0 x (memWrite m a bs) = lookup 0 x m := by
  induction bs generalizing m a with
  | nil => rfl
  | cons b bs ih =>
    simp only [List.length_cons] at h
    rw [memWrite, ih _ _ (by omega), memPut_ne m (by omega)]

/-- A byte written is the byte read back. -/
theorem memWrite_inside (m : List Host.Cell) (a i : Nat) (bs : List Byte) (h : i < bs.length) :
    lookup 0 (a + i) (memWrite m a bs) = bs[i] := by
  induction bs generalizing m a i with
  | nil => simp at h
  | cons b bs ih =>
    rw [memWrite]
    cases i with
    | zero =>
      rw [memWrite_outside _ _ _ _ (by omega)]
      exact memPut_same m a b
    | succ i => simpa [Nat.add_assoc, Nat.add_comm 1 i] using ih (memPut m a b) (a + 1) i (by simpa using h)

/-- R212: all that a write within one line can do: it lands whole, or no byte changes. -/
theorem writeLine_cases (d : Dev) (cls a : Nat) (bs : List Byte) :
    ((writeLine d cls a bs).1 = true ∧ (writeLine d cls a bs).2.dram.mem = memWrite d.dram.mem a bs) ∨
    ((writeLine d cls a bs).1 = false ∧ (writeLine d cls a bs).2.dram.mem = d.dram.mem) := by
  unfold writeLine; split
  · exact .inr ⟨rfl, rfl⟩
  · split
    · exact .inr ⟨rfl, by simp [poisonRead]⟩
    · exact .inl ⟨rfl, rfl⟩

theorem writeLine_wf {d : Dev} (h : Memory.wf d.dram.mem = true) (cls a : Nat) (bs : List Byte) :
    Memory.wf (writeLine d cls a bs).2.dram.mem = true := by
  rcases writeLine_cases d cls a bs with h' | h'
  · rw [h'.2]; exact memWrite_wf h a bs
  · rw [h'.2]; exact h

theorem writeLines_wf {d : Dev} (h : Memory.wf d.dram.mem = true) (cls a : Nat) (bs : List Byte) :
    Memory.wf (writeLines d cls a bs).2.dram.mem = true := by
  unfold writeLines
  suffices ∀ (l : List (Nat × List Byte)) (r : Bool × Dev), Memory.wf r.2.dram.mem = true →
      Memory.wf (l.foldl (fun r p => let q := writeLine r.2 cls p.1 p.2; (r.1 && q.1, q.2)) r).2.dram.mem = true from
    this _ _ h
  intro l
  induction l with
  | nil => exact fun _ h => h
  | cons p l ih => exact fun r hr => ih _ (writeLine_wf hr cls p.1 p.2)

theorem poisonRead_mem (d : Dev) (a : Nat) : (poisonRead d a).dram.mem = d.dram.mem := by simp [poisonRead]

theorem devTry_wf {d : Dev} (h : Memory.wf d.dram.mem = true) (cls a : Nat) (bs : List Byte) :
    Memory.wf (devTry d cls a bs).dram.mem = true := by
  unfold devTry
  split
  · unfold devLand
    dsimp only
    split
    · exact writeLines_wf h cls a bs
    · simpa [writeReported] using writeLines_wf h cls a bs
  · exact h

theorem heldWrites_wf {d : Dev} (h : Memory.wf d.dram.mem = true) : Memory.wf (heldWrites d).dram.mem = true := by
  unfold heldWrites
  refine Dev.each_ind (p := fun x => Memory.wf x.dram.mem = true) (fun x w k => ?_) d.dram.held _ h
  cases w with
  | write cls a bs => exact devTry_wf k cls a bs
  | port p => exact k

/-- R211, R212, R226: a write of the device's own writers keeps the canonical form. -/
theorem devWrite_wf {d : Dev} (h : Memory.wf d.dram.mem = true) (cls a : Nat) (bs : List Byte) :
    Memory.wf (devWrite d cls a bs).dram.mem = true := by
  unfold devWrite Dev.onlyIf
  split
  · exact devTry_wf (heldWrites_wf h) cls a bs
  · exact devTry_wf h cls a bs

/-- A wipe keeps the canonical form. -/
theorem zeroRange_wf {d : Dev} (h : Memory.wf d.dram.mem = true) (a n : Nat) : Memory.wf (zeroRange d a n).dram.mem = true :=
  canonical_filter _ h

theorem lookup_filter {α : Type} (z : α) (p : Nat → Bool) (k : Nat) (l : List (Nat × α)) :
    lookup z k (l.filter fun c => p c.1) = if p k = true then lookup z k l else z := by
  induction l with
  | nil => simp [lookup]
  | cons c cs ih =>
    by_cases hc : p c.1 = true
    · rw [List.filter_cons_of_pos (p := fun c : Nat × α => p c.1) hc]
      by_cases hk : c.1 = k
      · subst hk; simp [lookup, hc]
      · simp [lookup, hk, ih]
    · rw [List.filter_cons_of_neg (p := fun c : Nat × α => p c.1) hc, ih]
      by_cases hk : c.1 = k
      · subst hk; simp [hc]
      · simp [lookup, hk]

/-- R207: a wiped byte reads 0, and every other byte keeps its value. -/
theorem zeroRange_byte (d : Dev) (a n x : Nat) :
    (zeroRange d a n).dram.byte x = if a ≤ x ∧ x < a + n then 0 else d.dram.byte x := by
  unfold zeroRange Dev.modDram Dram.byte
  rw [lookup_filter (0 : Byte) (fun y => !(decide (a ≤ y) && decide (y < a + n)))]
  by_cases h : a ≤ x ∧ x < a + n <;> simp [h]

/-- R452: the memory of the reset state has the canonical form. -/
theorem reset_mem_wf : Memory.wf State.reset.dev.dram.mem = true := rfl

end Sys2Proof.Machine
end

