-- ==== Sys2Proof/Laws/Ops.lean ====
section
/-! SUPPORT. Laws of the shared operations: commands that act now or at their due time, the clock, and accesses of registers. -/
namespace Sys2Proof.Machine

/-! ### The clock (10_time_base_and_alignment.md R335, R336) -/

@[simp] theorem Clock.cycle_raw (c : Clock) : c.cycle.raw = c.raw + 1 := rfl
@[simp] theorem Clock.cycle_cb (c : Clock) : c.cycle.cb = c.cb := rfl

theorem Clock.le_cycle_now (c : Clock) : c.now ≤ c.cycle.now := by unfold Clock.cycle; dsimp only; omega

theorem Clock.le_advanceTo_raw (c : Clock) (t : Nat) : c.raw ≤ (c.advanceTo t).raw := by
  unfold Clock.advanceTo; split
  · exact Nat.le_refl _
  · exact Nat.le_max_left _ _

theorem Clock.advanceTo_now (c : Clock) (t : Nat) : (c.advanceTo t).now = max c.now t := by
  by_cases h : t ≤ c.now
  · simp [Clock.advanceTo, h]
  · simp only [Clock.advanceTo, h, if_false]; omega

theorem Clock.le_advanceTo_now (c : Clock) (t : Nat) : c.now ≤ (c.advanceTo t).now := by rw [c.advanceTo_now]; omega

@[simp] theorem Clock.advanceTo_cb (c : Clock) (t : Nat) : (c.advanceTo t).cb = c.cb := by unfold Clock.advanceTo; split <;> rfl

/-! ### Commands that act now or when they fall due -/

/-- While a power fail holds the device, a guarded effect changes nothing (14_power_reset_and_trust.md R450). -/
theorem live_failed (s t : State) (h : s.dev.trust.failed = true) : live s t = .next s := by simp [live, h]

/-- A device that no power fail holds takes the effect. -/
theorem live_runs (s t : State) (h : s.dev.trust.failed = false) : live s t = .next t := by simp [live, h]

theorem act_eq (s : State) (f : Dev → Dev) (h : s.dev.trust.failed = false) : act s f = .next { s with dev := f s.mirror } := live_runs s _ h

/-- All that a command with a due time can do to the clock and the queue: it completes, neither goes back, and the queue stays. -/
theorem actAt_cases (s : State) (t : Option Nat) (f : Dev → Dev) :
    ∃ u, actAt s t f = .next u ∧ u.pending = s.pending ∧ s.clock.raw ≤ u.clock.raw ∧ s.clock.now ≤ u.clock.now ∧
      u.clock.cb = s.clock.cb := by
  cases hf : s.dev.trust.failed with
  | true => exact ⟨s, by cases t <;> exact live_failed s _ hf, rfl, Nat.le_refl _, Nat.le_refl _, rfl⟩
  | false => cases t with
    | none => exact ⟨_, live_runs s _ hf, rfl, Nat.le_refl _, Nat.le_refl _, rfl⟩
    | some t => exact ⟨_, live_runs s _ hf, rfl, s.clock.le_advanceTo_raw t, s.clock.le_advanceTo_now t, s.clock.advanceTo_cb t⟩

/-- A command whose due time has come acts now. -/
theorem actAt_due (s : State) (t : Option Nat) (f : Dev → Dev) (h : ∀ x, t = some x → x ≤ s.clock.now) : actAt s t f = act s f := by
  cases t with
  | none => rfl
  | some x => have := h x rfl; simp [actAt, actWith, act, Clock.advanceTo, this]

/-- A reading whose period since the last one has passed is made now, and is the last one from now on. -/
theorem polled_due (s : State) (k period : Nat) (f : Dev → Dev) (h : ∀ t, s.dev.polls.get none k = some t → t + period ≤ s.clock.now) :
    polled s k period f = act s fun d => f { d with polls := d.polls.put none k (some d.now) } := by
  unfold polled
  refine actAt_due s _ _ fun x hx => ?_
  obtain ⟨t, ht, rfl⟩ := Option.map_eq_some_iff.mp hx
  exact h t ht

/-! ### Accesses of registers (12_register_interface.md R414, R420) -/

/-- A write that passes the access checks has its effect, unless it crosses a fenced seam. -/
theorem regCommand_admits (d : Dev) (p : Nat) (r : Reg) (w : Word) (f : Dev → Word → Dev) (h : d.accepts p = true)
    (hr : d.ready = true ∨ earlyBlock r.addr = true) (ho : d.mayWrite p r w = true) :
    regCommand d p r w f = if d.writeCut r.addr then d else f d w := by
  rcases hr with hr | hr <;> simp [regCommand, ifAccepted, h, hostWrite, hr, ho]

/-- A write by a port that does not own the register sets its OWNER flag and nothing else. -/
theorem regCommand_denied (d : Dev) (p : Nat) (r : Reg) (w : Word) (f : Dev → Word → Dev) (h : d.accepts p = true)
    (hr : d.ready = true ∨ earlyBlock r.addr = true) (ho : d.mayWrite p r w = false) :
    regCommand d p r w f = d.raise (.LNK_PERR p) 28 := by
  rcases hr with hr | hr <;> simp [regCommand, ifAccepted, h, hostWrite, hr, ho, perr]

/-- A write before READY outside the early blocks has no effect. -/
theorem regCommand_early (d : Dev) (p : Nat) (r : Reg) (w : Word) (f : Dev → Word → Dev) (hr : d.ready = false)
    (hb : earlyBlock r.addr = false) : regCommand d p r w f = d := by
  simp [regCommand, ifAccepted, hostWrite, hr, hb]

/-- An access that is not accepted does nothing: of a port that is down, or of which a submission is held or a write waits. -/
theorem regCommand_turned_away (d : Dev) (p : Nat) (r : Reg) (w : Word) (f : Dev → Word → Dev) (h : d.accepts p = false) :
    regCommand d p r w f = d := by
  simp [regCommand, ifAccepted, h]

/-- A port's accesses are accepted exactly while it is up and nothing of it is held or waits. -/
theorem accepts_iff (d : Dev) (p : Nat) :
    d.accepts p = true ↔ d.portUp p = true ∧ (d.schPort p).held = none ∧ (d.port p).waitWrite = none := by
  simp [Dev.accepts, and_assoc]

end Sys2Proof.Machine
end

