-- ==== Sys2Proof/Safety.lean ====
section
/-! DEFINITION. Safety: what counts as a safe run: every step answers a next state, and the commands waiting are well formed. -/
namespace Sys2Proof

/-- The outcome is a next state. -/
def Completes (o : Host.Outcome Machine.State Machine.Fault Machine.Refusal) : Prop := ∃ t, o = .next t

/-- Every command that waits is well formed. -/
def WfQueue (s : Machine.State) : Prop := s.pending.all Instr.wf = true

/-- The state after at most `n` steps, stopping where a step answers no next state. -/
def run : Nat → Machine.State → Machine.State
  | 0, s => s
  | n + 1, s => match Machine.step s with
    | .next t => run n t
    | _ => s

/-- A run of `n` steps meets neither a fault nor a refusal. -/
def SafeRun (n : Nat) (s : Machine.State) : Prop := ∀ k, k < n → Completes (Machine.step (run k s))

end Sys2Proof
end

