-- ==== Sys2Proof/Tests/Slice0.lean ====
section
/-! SUPPORT. Tests: an ill-formed command for each check of WellFormed; single steps with results that the spec writes out; and for
every statement a state and operands that meet its hypotheses, at the ends of their ranges. -/
namespace Sys2Proof.Tests
open Sys2Proof Sys2Proof.Machine Sys2Proof.Claims
set_option maxRecDepth 100000
set_option Elab.async false
set_option linter.unusedVariables false

/-! ### Well-formed commands -/

def ann : AnnounceMsg :=
  { priority1 := 1, clockClass := 6, accuracy := 0, variance := 0, priority2 := 2, gmid := 77, steps := 0, sender := 5, domain := 0, logSync := 1, udp := false, logAnnounce := 1 }

theorem test_wf_announce : ann.wf = true ∧ (Instr.ptpAnnounce ann).wf = true := by decide
theorem test_wf_announce_refuses :
    ({ ann with priority1 := 256 }).wf = false ∧ ({ ann with clockClass := 256 }).wf = false ∧ ({ ann with accuracy := 256 }).wf = false ∧
    ({ ann with variance := 65536 }).wf = false ∧ ({ ann with priority2 := 256 }).wf = false ∧ ({ ann with gmid := 2 ^ 64 }).wf = false ∧
    ({ ann with steps := 65536 }).wf = false ∧ ({ ann with sender := 2 ^ 80 }).wf = false ∧ ({ ann with domain := 256 }).wf = false ∧
    ({ ann with logSync := 128 }).wf = false ∧ ({ ann with logSync := -129 }).wf = false ∧
    ({ ann with logAnnounce := 128 }).wf = false ∧ ({ ann with logAnnounce := -129 }).wf = false := by decide
theorem test_wf_sync_refuses :
    (Instr.ptpSync 0 65536 0 none 0).wf = false ∧ (Instr.ptpSync 0 0 4294967296 none 0).wf = false ∧ (Instr.ptpFollowUp 0 65536 0 0).wf = false := by
  decide
theorem test_wf_delay_resp_refuses :
    (Instr.ptpDelayResp 0 65536 0 0 0).wf = false ∧ (Instr.ptpDelayResp 0 0 0 0 128).wf = false ∧ (Instr.ptpDelayResp 0 0 0 0 (-129)).wf = false := by
  decide
theorem test_wf_drained_refuses :
    (Instr.compareResultReturn 0 [(32, 0)]).wf = false ∧ (Instr.captureSampleArrival 0 0 [(32, 0)]).wf = false ∧
    (Instr.compareResultReturn 0 [(31, 0)]).wf = true ∧ (Instr.captureSampleArrival 0 0 [(31, 0)]).wf = true := by decide
theorem test_wf_stamp_drained : (Instr.stampDequeue 0 [(32, 0)]).wf = false ∧ (Instr.stampDequeue 0 [(31, 0)]).wf = true ∧
    (Instr.stampLineTimeout 0 [(32, 0)]).wf = false ∧ (Instr.stampLineTimeout 0 [(31, 0)]).wf = true := by decide
theorem test_wf_lengths_refused :
    (Instr.islandMonitorSample (List.replicate 40 (0, 0))).wf = false ∧ (Instr.vinSample 0 0 [0, 0, 0, 0, 0, 0, 0] (List.replicate 41 0)).wf = false ∧
    (Instr.vinSample 0 0 (List.replicate 8 0) (List.replicate 40 0)).wf = false ∧ (Instr.vinSample 0 0 (List.replicate 8 0) (List.replicate 41 0)).wf = true ∧
    (Instr.samplePreload [true] []).wf = false ∧ (Instr.extest [] [true]).wf = false ∧ (Instr.extestPulse [true] []).wf = false ∧
    (Instr.extestTrain [] [false]).wf = false := by decide
theorem test_wf_packet_types_refused :
    (Instr.regRd 0 0 { type := 2 }).wf = false ∧ (Instr.regWr 0 0 { type := 1 }).wf = false ∧ (Instr.memRd 0 0 { type := 4 }).wf = false ∧
    (Instr.memWr 0 0 { type := 3 }).wf = false ∧ (Instr.strm 0 0 { type := 6 }).wf = false ∧ (Instr.dbell 0 0 { type := 5 }).wf = false ∧
    (Instr.qrd 0 0 { type := 0 }).wf = false := by decide
theorem test_wf_packet_length_refused :
    (Instr.memWr 0 0 { type := 4, blocks := List.replicate 2048 0 }).wf = false ∧ (Instr.memWr 0 0 { type := 4, blocks := List.replicate 2047 0 }).wf = true := by
  decide +kernel

/-! ### States of the tests -/

/-- READY is 1 and every port is up. -/
def ready : Dev := ((List.range 8).foldl (fun d p => d.set (.LNK_PSTAT p) 31 29 2) State.reset.dev).raise .GLB_STAT 31
def on (f : Dev → Dev) (t : Nat := 0) : State := { State.reset with clock := { State.reset.clock with now := t, tb := t }, dev := f ready }
def dn (p : Nat) (d : Dev) : Dev := d.set (.LNK_PSTAT p) 31 27 0
def up (p v : Nat) (d : Dev) : Dev := d.set (.LNK_PSTAT p) 31 27 (8 + v)
def lane (l st : Nat) (d : Dev) : Dev := d.set (.LAN_STAT l) 31 28 st
def memOf (base : Nat) (ws : List Nat) : List Host.Cell :=
  (List.range (8 * ws.length)).filterMap fun i => let b := BitVec.ofNat 8 ((ws.getD (i / 8) 0) / 2 ^ (8 * (i % 8))); if b = 0 then none else some (base + i, b)
def word (op : Nat) (form : Nat := 0) (flags : Nat := 0) (imm : Nat := 0) (rest : Nat := 0) : Nat :=
  op * 2 ^ 58 + form * 2 ^ 37 + flags * 2 ^ 32 + imm + rest
def hd (n : Nat) : Word64 := BitVec.ofNat 64 n
def bst : Burst := { slot := 0, site := 0, load := 0, entry := 0, base := 4096, n := 1, codeOff := 0, codeWords := 64, tableOff := 1024, tableCount := 0, maskOff := 1024, maskCount := 0, padOff := 1024, uopOff := 1024, uopCount := 0, defaultTs := 0 }
/-- A microcode package is loaded, and engine 0 runs burst `b` over the code words `ws`. -/
def eng (ws : List Nat) (b : Burst := bst) (f : Dev → Dev := id) : State := on fun d =>
  let d := ((d.raise (.CUF_TSVALID 0 0) 0).set (.ENG_STAT 0) 31 28 4).set .GLB_VERUCODE 31 16 1
  f { d.modEngine 0 fun x => { x with burst := some b } with dram := { d.dram with mem := memOf 4096 ws } }
/-- A host has put a directory entry of its own for an opcode, or from 64 on for a user routine. -/
def dirS (k : Nat) (w : Word) (d : Dev) : Dev := d.modEngine 0 fun x => { x with dir := x.dir.put none k (some w) }
def sym (n : Nat) : BitVec 512 := BitVec.ofNat 512 n
def m0 : Micro := { routine := 4, lining := false, upc := 0 }
def ur : UserRoutine := { number := 4, digest := 0, hAddr := some 0, hWords := 1, mpBase := none, mpCount := 0, nano := 0, nWords := 0, extWords := 1, service := false, twin := [] }
def hst (w : BitVec 176) (d : Dev) : Dev := d.modEngine 0 fun x => { x with hstore := x.hstore.put none 0 (some w) }
def nx (o : Host.Outcome State Fault Refusal) : State := match o with | .next t => t | _ => State.reset
def vecS : State := eng [word 1 1 0 1, 2, 3]
def dsc : Desc := { handle := 1, port := 0, load := 0, entry := 0, site := 0, prio := 0, start := 0, miss := false, under := false, aff := 0, engine := 0, event := 0, startT := 0, user := 0, place := .engine 0, accept := 0 }
def ldb : Loadable := { site := 0, base := 4096, n := 1, defaultTs := 0, attr := 0, buildId := 0, entryCount := 1, tableCount := 0, maskCount := 0, uopCount := 0, codeOff := 64, codeWords := 8, tableOff := 128, maskOff := 128, entryOff := 0, symreqOff := 0, uopOff := 128, padOff := 128, total := 128, digest := 0, routines := [] }
def dcl : Decl := { en := true, chans := 1, owner := 0 }
def sited (d : Dev) : Dev := d.modSite 0 fun x => { x with decl := dcl }
def dis (st : Nat) (b : Burst) (x : Desc) (f : Dev → Dev := id) (t : Nat := 0) : State := on (fun d => f ((((sited d).putDesc b.slot (some x)).set (.ENG_STAT 0) 31 28 st).modEngine 0 fun y => { y with burst := some b })) t
def win : Win := { chan := 0, slot := 0, opens := 0, closes := 0, cmp := 1, suppressed := false }
def flt : Flight := { t0 := 0, num := some 0, after := 0 }
def fly (f : Flight) (b : Burst := bst) (g : Dev → Dev := id) : State := dis 4 b dsc fun d => g (d.modSite 0 fun x => { x with flight := [f] })
def run0 : VecRun := { kind := .numbered, syms := 1, ts := 0, count := 1, first := 7 }
def D (d : Dev) (slot : Nat) (x : Desc) : Dev := d.putDesc slot (some x)
def reg0 (l : Loadable) (d : Dev) : Dev := d.modSched fun x => { x with registry := x.registry.put none 0 (some l) }
def dispOn (d : Dev) : Dev := d.raise .SCH_CTL 31
def hdrMem (base : Nat) : List Host.Cell := memOf base [0x4C455341 + 2 ^ 48, 1, 0, 1 + 2 ^ 16, 128, 1, 0, 0, 192, 0, 0, 0, 200]
def bolt0 (d : Dev) : Dev := d.modDram fun x => { x with bolts := x.bolts.put {} 0 { alloc := true, site := 0 } }
def acqOn (u : Nat) (st : Nat) (f : AcqCfg → AcqCfg := id) (d : Dev) : Dev :=
  ((d.raise (.ACQ_SPER 7) 31).set (.ACQ_STAT u) 31 29 st).modAcq u fun a => { a with cfg := f { a.cfg with stream := true, strm := 7 } }
def srcUp (f : Source → Source := id) (d : Dev) : Dev := ((d.raise (.SRC_SPER 7) 31).set (.LAN_STAT 23) 31 28 6).modSrc 7 f
def seg0 : Segment := { start := 0, len := 4, next := 0, rate := 0, passes := 1, ends := true, jump := false }
def ply : Play := { entry := 0, seg := seg0, pos := 0, left := 0, lines := [], fetched := 0, urgent := false }
def stp : Stamp := { time := 0, eidx := 0, rising := true, lk := false, tv := false, mrg := false }
def inOn (i : Nat) (f : StampIn → StampIn := id) (d : Dev) : Dev := ((sited d).raise (.TDC_IN i) 31).modStampIn i f
def tb (f : TimeBase → TimeBase) (d : Dev) : Dev := d.modTime f
def ptpS (f : Ptp → Ptp := id) (d : Dev) : Dev := tb (fun t => { t with ptp := f { t.ptp with en := true, best := some ann } }) (d.raise (.LAN_CTL 28) 31)
def trs (f : Trust → Trust) (d : Dev) : Dev := d.modTrust f
def rep (sev : Nat) (d : Dev := ready) : Dev := rasReport d 9 sev 3 77 5 (some 4) (some 6)
def op0 : CalOp := { run := true, qty := 3, target := 1, passes := true }
def calS (o : CalOp) (d : Dev) : Dev := (d.modCal fun x => { x with op := some o }).set .CAL_STAT 31 30 3
def xtalOp : CalOp := { op0 with qty := 5 }
/-- XTAL: 256 samples over 10 degrees. -/
def xtalS : State := on fun d => (calS xtalOp d).modCal fun c => { c with samples := (1280, 0) :: List.replicate 255 (0, 0) }

/-! ### Hypotheses by evaluation -/

def isOk {α β : Type} [DecidableEq α] (x : Except β α) (v : α) : Bool :=
  match x with
  | .ok w => decide (w = v)
  | .error _ => false

def isError {α β : Type} [DecidableEq β] (x : Except β α) (v : β) : Bool :=
  match x with
  | .error w => decide (w = v)
  | .ok _ => false

theorem ok_of {α β : Type} [DecidableEq α] {x : Except β α} {v : α} (c : isOk x v = true) : x = .ok v := by
  cases x with
  | ok w => exact congrArg _ (of_decide_eq_true c)
  | error w => cases c

theorem error_of {α β : Type} [DecidableEq β] {x : Except β α} {v : β} (c : isError x v = true) : x = .error v := by
  cases x with
  | error w => exact congrArg _ (of_decide_eq_true c)
  | ok w => cases c

def fits (s : State) (e : Fin 16) (op : Nat) (b : Burst) (h : Word64) : Bool :=
  decide (readyBurst s.mirror e = some b ∧ hOpc h = op) && isOk (fetchWord s.mirror b b.pc) h && (opRow op).any fun row => headerField row h == false

/-- An opcode that the host's directory entry names. -/
theorem dispatches_of {s : State} {e : Fin 16} {op : Nat} {b : Burst} {h : Word64}
    (c : (fits s e op b h && decide (s.mirror.present e op = true ∧ runsLining s.mirror e op = false)) = true) : Dispatches s e op b h := by
  simp only [fits, Bool.and_eq_true, decide_eq_true_eq, Option.any_eq_true, beq_iff_eq] at c
  exact ⟨c.1.1.1.1, ok_of c.1.1.2, c.1.1.1.2, c.2.1, .inl c.2.2, c.1.2⟩

/-- An opcode of the package. -/
theorem executes_of {s : State} {e : Fin 16} {op : Nat} {b : Burst} {h : Word64}
    (c : (fits s e op b h && decide (s.mirror.packaged e op)) = true) : Executes s e op b h := by
  simp only [fits, Bool.and_eq_true, decide_eq_true_eq, Option.any_eq_true, beq_iff_eq] at c
  have r := packaged_runs c.2
  exact ⟨⟨c.1.1.1.1, ok_of c.1.1.2, c.1.1.1.2, r.1, .inl r.2.1, c.1.2⟩, r.2.2⟩

theorem carries_of {s : State} {b : Burst} {h : Word64} {v : Option (BitVec 512)} {next : Nat}
    (c : (isOk (readOne s.mirror b h (b.pc + 1)) (v, next) && decide (v = none ∨ s.mirror.tsValid b.site (headerTs b h) = true)) = true) :
    Carries s b h v next := by
  simp only [Bool.and_eq_true, decide_eq_true_eq] at c
  exact ⟨ok_of c.1, c.2⟩

theorem holds_of {s : State} {b : Burst} {h : Word64} {pc : Nat} {v : BitVec 512} {next : Nat}
    (c : (isOk (readRun s.mirror b (hForm h) 1 0 pc b.image []) ([v], next) && decide (s.mirror.tsValid b.site (headerTs b h) = true)) = true) :
    Holds s b h pc v next := by
  simp only [Bool.and_eq_true, decide_eq_true_eq] at c
  exact ⟨ok_of c.1, c.2⟩

/-- A host has put a directory entry of its own for RPT, and a word of its own where that points. -/
def rwS : State := eng [word 2 1 0 0, 1] bst fun d => (dirS 2 0x80000C00 d).modEngine 0 fun x => { x with hstore := x.hstore.put none 3072 (some 0) }

theorem vecS_standard : ∀ op, rewritten vecS.mirror 0 op = false := by
  have e1 : (vecS.dev.engine 0).mptr.cells = [] := by decide +kernel
  have e2 : (vecS.dev.engine 0).hstore.cells = [] := by decide +kernel
  have e3 : vecS.dev.nano.cells = [] := by decide +kernel
  have e4 : (vecS.dev.engine 0).dir.cells = [] := by decide +kernel
  intro op
  cases r : (startMicro vecS.mirror 0 op).1 <;> simp [rewritten, changedAt, changedForm, Tbl.get, e1, e2, e3, e4, lookup, r]

theorem and3 {p q r k : Prop} (h : p ∧ q ∧ r) (l : k) : p ∧ q ∧ r ∧ k := ⟨h.1, h.2.1, h.2.2, l⟩

theorem none_all {α : Type} {o : Option α} {P : α → Prop} (h : o = none) : ∀ t, o = some t → P t := by
  intro t e
  rw [h] at e
  cases e

theorem le_all {o : Option Nat} {n : Nat} (h : o.all (· ≤ n) = true) : ∀ t, o = some t → t ≤ n := by
  intro t e
  rw [e] at h
  exact of_decide_eq_true h

/-! ### Single steps

Expected values are the spec's own: Table 2.10, 02_asell_programs.md "what a lagged test sees", Table 11.12, 10_time_base_and_alignment.md
"a compact target near the wrap", 12_register_interface.md "an aliased mailbox address", R505, Table 1.1 and FIPS 180-4. -/

/-- A burst of the example's site, of 20 channels, after one instruction. -/
def after (run : Dev → Burst → Word64 → Nat → Except Stop Burst) (ws : List Nat) (b : Burst) : Option Burst :=
  let h := hd (ws.headD 0)
  let s := eng ws b (dirS (hOpc h) 0x80000000)
  (finishInstr s.mirror 0 b h (run s.mirror b h 1)).burst 0
def bst20 : Burst := { bst with n := 20, codeWords := 44 }

theorem test_tset : (after rTset [0x3000000000000004] bst20).map (fun b => (b.pc, b.dts, b.next)) = some (1, 4, 0) := by decide +kernel
theorem test_loop : (after rLoop [0x10000000000003E7] bst20).map (fun b => (b.pc, b.loops)) = some (1, [⟨1, false, 999⟩]) := by decide +kernel
theorem test_rpt : (after rRpt [0x08000020000000F9, 0, 0] bst20).map (fun b => (b.pc, b.next)) = some (3, 250) := by decide +kernel
theorem test_vec : (after rVec [0x0400002000000007] bst20).map (fun b => (b.pc, b.next)) = some (17, 8) := by decide +kernel
theorem test_endl : (after rEndl [0x1400002000000000] { bst20 with loops := [⟨0, false, 0⟩] }).map (fun b => (b.pc, b.next, b.loops)) =
    some (3, 1, []) := by decide +kernel
theorem test_match : (after rMatch [0x2800002000000005, 99999] bst20).map (fun b => (b.pc, b.queue.map (·.count))) =
    some (4, [100000]) := by decide +kernel
theorem test_call : (after rCall [0x1800000000000004] bst20).map (fun b => (b.pc, b.calls)) = some (4, [⟨1, false, 0⟩]) := by decide +kernel
theorem test_ret : (after rRet [0x1C00000000000000] { bst20 with calls := [⟨37, false, 0⟩] }).map (fun b => (b.pc, b.calls)) = some (37, []) := by
  decide +kernel
theorem test_halt : (after rHalt [0xFC00002000000000] bst20).map (fun b => (b.pc, b.next, b.fin)) = some (3, 1, some (.halt 0)) := by
  decide +kernel

/-- A JIF on FAIL_ANY with CLR, no vector, after 40,000 and after 41,000 numbered vectors, with a fail on vector 39,500. -/
theorem test_jif_lagged : (after rJif [word 9 0 8 63 (2 ^ 43)] { bst with next := 40000, returned := 39900, fails := [(39500, 1)] }).map
    (fun b => (b.pc, b.clrAny)) = some (1, 38975) := by decide +kernel
theorem test_jif_branches : (after rJif [word 9 0 8 63 (2 ^ 43)] { bst with next := 41000, returned := 40900, fails := [(39500, 1)], clrAny := 38975 }).map
    (fun b => (b.pc, b.clrAny)) = some (63, 39975) := by decide +kernel

theorem test_compact_near_wrap :
    let now := 31604937987072 * (nano1 / 256)
    compactDiff now 1074612409344 = -256000000000 ∧ compactDiff now 231100781568 = -512000000000 ∧ compactDiff now 487100781568 = 331511627776 := by
  decide +kernel

theorem test_alias : canonAddr 0x905100 = some (Reg.addr (.MBX_SEL 0)) ∧ canonAddr 0x430F04 = some (Reg.addr (.ACQ_STAT 3)) := by decide +kernel
theorem test_alias_owner : (nx (exec (.registerWrite 4 0x905100 0) (on id))).dev.flag (.LNK_PERR 4) 28 = true := by decide +kernel

/-- The chain of HP1: a completion of 7 words, a response of 1, the first 2 words of a compare packet; then the flush and the third word. -/
def flushS : State := on fun d => d.modPort 1 fun x =>
  { x with chain := marked [BitVec.ofNat 64 (kCompletion * 2 ^ 40), 0, 0, 0, 0, 0, 0] ++ marked [0] ++ [⟨0, false⟩, ⟨0, false⟩], area := [⟨0, true⟩]
           evIn := some 0 }
theorem test_evflush : (let x := (nx (exec (.evflush 1 0) flushS)).dev.port 1; (x.chain, x.evDisc, x.evDiscCpl, x.evDiscard)) = ([], 10, 1, true) := by
  decide +kernel
theorem test_flushed_word : (let x := (nx (exec (.eventWordEnter 1) (on fun d => d.modPort 1 fun x =>
    { x with area := [⟨0, true⟩], evDisc := 10, evDiscard := true }))).dev.port 1; (x.chain, x.evDisc, x.evDiscard)) = ([], 11, false) := by
  decide +kernel

theorem test_idcode : (nx (exec .idcode State.reset)).dev.jtag.out = 0x19128567 := by decide +kernel
theorem test_identity : State.reset.dev.rd .GLB_ID = 0x0A1A9128 := by decide +kernel
theorem test_sha256 : sha256 [0x61, 0x62, 0x63] =
    78287233127892744762064256752147977895291281102938609026632374073081434896570 := by decide +kernel

/-! ### Witnesses of the statements' hypotheses -/

theorem test_witness_stepRunsFrontCommand :
    ∃ (c : Instr) (cs : List Instr) (s : State), s.pending = c :: cs :=
  ⟨.idcode, [], { State.reset with pending := [.idcode] }, by decide +kernel⟩

theorem test_witness_emptyQueueIsOneCycle :
    (∃ (s : State), s.pending = []) ∧
    (∃ (s : State), s.pending = []) :=
  ⟨⟨State.reset, by decide +kernel⟩,
    ⟨{ State.reset with dev := trs (fun t => { t with failed := true }) State.reset.dev }, by decide +kernel⟩⟩

theorem test_witness_everyCommandCompletes :
    ∃ (c : Instr) (s : State), s.dev.trust.failed = true ∧ c ≠ .powerOnReset :=
  ⟨.idle 0, on (trs fun t => { t with failed := true }), by decide, nofun⟩

theorem test_witness_clockNeverGoesBack :
    (∃ (s : State) (t : State), step s = .next t ∧ (∀ r low, s.pending.head? ≠ some (.powerFail r low)) ∧ s.pending.head? ≠ some .powerOnReset ∧
      (∀ p w, s.pending.head? ≠ some (.lifecycleTransition p w true))) ∧
    (∃ (s : State) (t : State), step s = .next t ∧ (∀ r low, s.pending.head? ≠ some (.powerFail r low)) ∧ s.pending.head? ≠ some .powerOnReset ∧
      (∀ p w, s.pending.head? ≠ some (.lifecycleTransition p w true)) ∧ s.pending.head? ≠ some .stepApply ∧
      (∀ a b, s.pending.head? ≠ some (.releasePoint a b))) :=
  ⟨⟨State.reset, nx (step State.reset), rfl, fun _ _ h => (nomatch h), nofun, fun _ _ h => (nomatch h)⟩,
    ⟨State.reset, nx (step State.reset), rfl, fun _ _ h => (nomatch h), nofun, fun _ _ h => (nomatch h), nofun, fun _ _ h => (nomatch h)⟩⟩

theorem test_witness_anchorNotAheadOfCounter :
    ∃ (s : State) (t : State), s.clock.cb ≤ s.clock.raw ∧ step s = .next t :=
  ⟨State.reset, nx (step State.reset), ⟨by decide +kernel, rfl⟩⟩

theorem test_witness_vectorAndLoopInstructions :
    (∃ (s : State) (e : Fin 16) (b : Burst) (h : Word64) (vs : List (BitVec 512)) (next : Nat), Executes s e 0x01 b h ∧ hFlag h 0 = false ∧
      s.mirror.tsValid b.site (headerTs b h) = true ∧ readRun s.mirror b (hForm h) (hImm h % 65536 + 1) 0 (b.pc + 1) b.image [] = .ok (vs, next)) ∧
    (∃ (s : State) (e : Fin 16) (b : Burst) (h : Word64) (vs : List (BitVec 512)) (next : Nat), Executes s e 0x01 b h ∧ hFlag h 0 = false ∧
      s.mirror.tsValid b.site (headerTs b h) = true ∧ readRun s.mirror b (hForm h) (hImm h % 65536 + 1) 0 (b.pc + 1) b.image [] = .ok (vs, next)) ∧
    (∃ (s : State) (e : Fin 16) (b : Burst) (h : Word64) (sets : List Nat) (vs : List (BitVec 512)) (next : Nat), Executes s e 0x01 b h ∧
      hFlag h 0 = true ∧ ptsSets s.mirror b (b.pc + 1) (hImm h % 65536 + 1) = .ok sets ∧ (∀ t ∈ sets, s.mirror.tsValid b.site t = true) ∧
      readRun s.mirror b (hForm h) (hImm h % 65536 + 1) 0 (b.pc + 1 + (hImm h % 65536 + 1 + 7) / 8) b.image [] = .ok (vs, next)) ∧
    (∃ (s : State) (e : Fin 16) (b : Burst) (h : Word64) (v : BitVec 512) (next : Nat), Executes s e 0x02 b h ∧ Holds s b h (b.pc + 1) v next) ∧
    (∃ (s : State) (e : Fin 16) (b : Burst) (h : Word64) (v : Option (BitVec 512)) (next : Nat), Executes s e 0x04 b h ∧ Carries s b h v next ∧
      b.loops.length < 16) ∧
    (∃ (s : State) (e : Fin 16) (b : Burst) (h : Word64) (v : Option (BitVec 512)) (next : Nat), Executes s e 0x04 b h ∧ Carries s b h v next ∧
      b.loops.length < 16) ∧
    (∃ (s : State) (e : Fin 16) (b : Burst) (h : Word64) (v : Option (BitVec 512)) (next : Nat) (l : LoopF) (ls : List LoopF),
      Executes s e 0x05 b h ∧ Carries s b h v next ∧ b.loops = l :: ls ∧ l.ctr = 0) ∧
    (∃ (s : State) (e : Fin 16) (b : Burst) (h : Word64) (v : Option (BitVec 512)) (next : Nat) (l : LoopF) (ls : List LoopF),
      Executes s e 0x05 b h ∧ Carries s b h v next ∧ b.loops = l :: ls ∧ l.ctr ≠ 0 ∧
      (l.stream = true → b.inStream = true → longBody l next = true → s.mirror.markValid b.site = true ∧ (s.mirror.ring b.site).m ≤ 8 * l.start)) :=
  ⟨⟨eng [word 1 1 0 1, 2, 3], 0, bst, hd (word 1 1 0 1), [sym 2, sym 3], 3, executes_of (by decide +kernel), by decide +kernel, by decide +kernel,
      ok_of (by decide +kernel)⟩,
    ⟨eng [word 1 1 0 0, 9], 0, bst, hd (word 1 1 0 0), [sym 9], 2, executes_of (by decide +kernel), by decide +kernel, by decide +kernel,
      ok_of (by decide +kernel)⟩,
    ⟨eng [word 1 1 1 1, 0, 2, 3], 0, bst, hd (word 1 1 1 1), [0, 0], [sym 2, sym 3], 4, executes_of (by decide +kernel), by decide +kernel,
      ok_of (by decide +kernel), by decide +kernel, ok_of (by decide +kernel)⟩,
    ⟨eng [word 2 1 0 4294967295, 7], 0, bst, hd (word 2 1 0 4294967295), sym 7, 2, executes_of (by decide +kernel), holds_of (by decide +kernel)⟩,
    ⟨eng [word 4 0 0 4294967295], 0, bst, hd (word 4 0 0 4294967295), none, 1, executes_of (by decide +kernel), carries_of (by decide +kernel),
      by decide +kernel⟩,
    ⟨eng [word 4 1 0 3, 5], 0, bst, hd (word 4 1 0 3), some (sym 5), 2, executes_of (by decide +kernel), carries_of (by decide +kernel),
      by decide +kernel⟩,
    ⟨eng [0, word 5] { bst with pc := 1, loops := [⟨0, false, 0⟩] }, 0, { bst with pc := 1, loops := [⟨0, false, 0⟩] }, hd (word 5), none, 2,
      ⟨0, false, 0⟩, [], executes_of (by decide +kernel), carries_of (by decide +kernel), by decide +kernel⟩,
    ⟨eng [0, word 5 1, 6] { bst with pc := 1, loops := [⟨0, false, 1⟩] }, 0, { bst with pc := 1, loops := [⟨0, false, 1⟩] }, hd (word 5 1),
      some (sym 6), 3, ⟨0, false, 1⟩, [], executes_of (by decide +kernel), carries_of (by decide +kernel), by decide +kernel⟩⟩

theorem test_witness_transferInstructions :
    (∃ (s : State) (e : Fin 16) (b : Burst) (h : Word64) (v : Option (BitVec 512)) (next : Nat) (t : Nat), Executes s e 0x06 b h ∧
      Carries s b h v next ∧ (b.inStream = false ∨ hFlag h 0 = true) ∧ b.calls.length < 32 ∧
      (if hFlag h 0 then absTarget b (hImm h) else relTarget b b.pc (hImm h)) = .ok t) ∧
    (∃ (s : State) (e : Fin 16) (b : Burst) (h : Word64) (v : Option (BitVec 512)) (next : Nat) (t : Nat), Executes s e 0x06 b h ∧
      Carries s b h v next ∧ (b.inStream = false ∨ hFlag h 0 = true) ∧ b.calls.length < 32 ∧
      (if hFlag h 0 then absTarget b (hImm h) else relTarget b b.pc (hImm h)) = .ok t) ∧
    (∃ (s : State) (e : Fin 16) (b : Burst) (h : Word64) (v : Option (BitVec 512)) (next : Nat) (f : Frame) (fs : List Frame),
      Executes s e 0x07 b h ∧ Carries s b h v next ∧ b.calls = f :: fs) ∧
    (∃ (s : State) (e : Fin 16) (b : Burst) (h : Word64) (v : Option (BitVec 512)) (next : Nat) (t : Nat), Executes s e 0x08 b h ∧
      Carries s b h v next ∧ b.inStream = false ∧ hFlags h % 4 ≤ b.loops.length ∧ relTarget b b.pc (hImm h) = .ok t) ∧
    (∃ (s : State) (e : Fin 16) (b : Burst) (h : Word64), Executes s e 0x12 b h ∧ b.inStream = false ∧ s.mirror.ringOn b.site = true ∧
      b.calls.length < 32) :=
  ⟨⟨eng [word 6 0 0 63], 0, bst, hd (word 6 0 0 63), none, 1, 63, executes_of (by decide +kernel), carries_of (by decide +kernel),
      by decide +kernel, by decide +kernel, ok_of (by decide +kernel)⟩,
    ⟨eng [word 6 0 1 5], 0, bst, hd (word 6 0 1 5), none, 1, 5, executes_of (by decide +kernel), carries_of (by decide +kernel), by decide +kernel,
      by decide +kernel, ok_of (by decide +kernel)⟩,
    ⟨eng [word 7] { bst with loops := [⟨0, false, 0⟩, ⟨1, false, 0⟩], calls := [⟨9, false, 1⟩] }, 0,
      { bst with loops := [⟨0, false, 0⟩, ⟨1, false, 0⟩], calls := [⟨9, false, 1⟩] }, hd (word 7), none, 1, ⟨9, false, 1⟩, [],
      executes_of (by decide +kernel), carries_of (by decide +kernel), by decide +kernel⟩,
    ⟨eng [0, word 8 0 1 4294967295] { bst with pc := 1, loops := [⟨0, false, 7⟩] }, 0, { bst with pc := 1, loops := [⟨0, false, 7⟩] },
      hd (word 8 0 1 4294967295), none, 2, 0, executes_of (by decide +kernel), carries_of (by decide +kernel), by decide +kernel, by decide +kernel,
      ok_of (by decide +kernel)⟩,
    ⟨eng [word 0x12] bst (fun d => d.raise (.DRC_SRCFG 0) 31), 0, bst, hd (word 0x12), executes_of (by decide +kernel), by decide +kernel⟩⟩

theorem test_witness_setAndCaptureInstructions :
    (∃ (s : State) (e : Fin 16) (b : Burst) (h : Word64) (v : Option (BitVec 512)) (next : Nat), Executes s e 0x0C b h ∧
      readOne s.mirror b h (b.pc + 1) = .ok (v, next) ∧ (v = none ∨ s.mirror.tsValid b.site (if hTsv h then hTs h else hImm h % 64) = true)) ∧
    (∃ (s : State) (e : Fin 16) (b : Burst) (h : Word64) (v : Option (BitVec 512)) (next : Nat), Executes s e 0x0C b h ∧
      readOne s.mirror b h (b.pc + 1) = .ok (v, next) ∧ (v = none ∨ s.mirror.tsValid b.site (if hTsv h then hTs h else hImm h % 64) = true)) ∧
    (∃ (s : State) (e : Fin 16) (b : Burst) (h : Word64) (v : Option (BitVec 512)) (next : Nat), Executes s e 0x0D b h ∧ Carries s b h v next) ∧
    (∃ (s : State) (e : Fin 16) (b : Burst) (h : Word64) (v : Option (BitVec 512)) (next : Nat), Executes s e 0x0E b h ∧ Carries s b h v next) :=
  ⟨⟨eng [word 0x0C 0 0 63], 0, bst, hd (word 0x0C 0 0 63), none, 1, executes_of (by decide +kernel), ok_of (by decide +kernel), by decide +kernel⟩,
    ⟨eng [word 0x0C 1 0 0, 5], 0, bst, hd (word 0x0C 1 0 0), some (sym 5), 2, executes_of (by decide +kernel), ok_of (by decide +kernel),
      by decide +kernel⟩,
    ⟨eng [word 0x0D 1 0 2, 1], 0, bst, hd (word 0x0D 1 0 2), some (sym 1), 2, executes_of (by decide +kernel), carries_of (by decide +kernel)⟩,
    ⟨eng [word 0x0E 1 0 0, 1] { bst with capOn := true }, 0, { bst with capOn := true }, hd (word 0x0E 1 0 0), some (sym 1), 2,
      executes_of (by decide +kernel), carries_of (by decide +kernel)⟩⟩

theorem test_witness_actionAndUserInstructions :
    (∃ (s : State) (e : Fin 16) (b : Burst) (h : Word64) (v : Option (BitVec 512)) (next : Nat), Executes s e 0x0F b h ∧ Carries s b h v next ∧
      unitOwned s.mirror b (hImm h % 16) = true) ∧
    (∃ (s : State) (e : Fin 16) (b : Burst) (h : Word64) (v : Option (BitVec 512)) (next : Nat), Executes s e 0x10 b h ∧ Carries s b h v next ∧
      sourceOwned s.mirror b (hImm h % 8) = true) ∧
    (∃ (s : State) (e : Fin 16) (b : Burst) (h : Word64) (v : Option (BitVec 512)) (next : Nat), Executes s e 0x11 b h ∧ Carries s b h v next) ∧
    (∃ (s : State) (e : Fin 16) (b : Burst) (h : Word64) (v : Option (BitVec 512)) (next : Nat), Executes s e 0x3F b h ∧ Carries s b h v next) ∧
    (∃ (s : State) (e : Fin 16) (b : Burst) (h : Word64) (u : UserRoutine), Executes s e 0x13 b h ∧ s.mirror.present e (64 + hImm h % 256) = true ∧
      (s.mirror.engine e).user.find? (·.number = hImm h % 256) = some u) ∧
    (∃ (s : State) (e : Fin 16) (n : Nat) (b : Burst) (m : Micro) (b' : _), s.mirror.burst e = some b ∧ b.micro = some m ∧ b.fin = none ∧
      bits (nextWord s.mirror e m) 131 129 ≤ b.room (s.mirror.yokeFenced b.site) ∧ wordsStop s.mirror e b m = false ∧
      takesService s.mirror e m = false ∧ reservedWord m.lining (nextWord s.mirror e m) = false ∧
      (b.stopEvent = none ∨ bit (nextWord s.mirror e m) 57 = false) ∧
      issueWord s.mirror e b m (nextWord s.mirror e m) (Config.freeNat s.dev.freeIdx % 2 ^ 64) = .ok b' ∧ b'.micro.isSome = true) ∧
    (∃ (s : State) (e : Fin 16) (n : Nat) (b : Burst) (m : Micro) (b' : _), s.mirror.burst e = some b ∧ b.micro = some m ∧ b.fin = none ∧
      bits (nextWord s.mirror e m) 131 129 ≤ b.room (s.mirror.yokeFenced b.site) ∧ wordsStop s.mirror e b m = false ∧
      takesService s.mirror e m = false ∧ reservedWord m.lining (nextWord s.mirror e m) = false ∧
      (b.stopEvent = none ∨ bit (nextWord s.mirror e m) 57 = false) ∧
      issueWord s.mirror e b m (nextWord s.mirror e m) (Config.freeNat s.dev.freeIdx % 2 ^ 64) = .ok b' ∧ b'.micro = none) :=
  ⟨⟨eng [word 0x0F 0 1 15], 0, bst, hd (word 0x0F 0 1 15), none, 1, executes_of (by decide +kernel), carries_of (by decide +kernel),
      by decide +kernel⟩,
    ⟨eng [word 0x10 1 2 0xFFFF0007, 3], 0, bst, hd (word 0x10 1 2 0xFFFF0007), some (sym 3), 2, executes_of (by decide +kernel),
      carries_of (by decide +kernel), by decide +kernel⟩,
    ⟨eng [word 0x11 0 0 4294967295], 0, bst, hd (word 0x11 0 0 4294967295), none, 1, executes_of (by decide +kernel), carries_of (by decide +kernel)⟩,
    ⟨eng [word 0x3F 0 0 65535], 0, bst, hd (word 0x3F 0 0 65535), none, 1, executes_of (by decide +kernel), carries_of (by decide +kernel)⟩,
    ⟨eng [word 0x13 0 0 4] bst (fun d => (dirS 68 0x80000000 d).modEngine 0 fun x => { x with user := [ur] }), 0, bst, hd (word 0x13 0 0 4), ur,
      executes_of (by decide +kernel), by decide +kernel⟩,
    ⟨eng [] { bst with micro := some m0 } (hst 0), 0, 0, { bst with micro := some m0 }, m0,
      { bst with micro := some { m0 with upc := 1, cycles := 1, safe := false } },
      and3 (by decide +kernel) (and3 (by decide +kernel) ⟨by decide +kernel, by decide +kernel, ok_of (by decide +kernel), by decide +kernel⟩)⟩,
    ⟨eng [] { bst with micro := some m0 } (hst (5 * 2 ^ 153)), 0, 0, { bst with micro := some m0 }, m0,
      microReturn { bst with micro := some m0 } { m0 with cycles := 1, safe := false },
      and3 (by decide +kernel) (and3 (by decide +kernel) ⟨by decide +kernel, by decide +kernel, ok_of (by decide +kernel), by decide +kernel⟩)⟩⟩

theorem test_witness_jumpInstructions :
    (∃ (s : State) (e : Fin 16) (b : Burst) (h : Word64) (v : Option (BitVec 512)) (next : Nat) (t : Nat), Executes s e 0x09 b h ∧
      Carries s b h v next ∧ b.inStream = false ∧ condCheck s.mirror b false h = .ok () ∧ isCompare (hCond h) = false ∧
      hFlags h % 4 ≤ b.loops.length ∧ relTarget b b.pc (hImm h) = .ok t) ∧
    (∃ (s : State) (e : Fin 16) (b : Burst) (h : Word64) (v : Option (BitVec 512)) (next : Nat) (t : Nat), Executes s e 0x09 b h ∧
      Carries s b h v next ∧ b.inStream = false ∧ condCheck s.mirror b false h = .ok () ∧ isCompare (hCond h) = false ∧
      hFlags h % 4 ≤ b.loops.length ∧ relTarget b b.pc (hImm h) = .ok t) ∧
    (∃ (s : State) (e : Fin 16) (b : Burst) (h : Word64) (v : Option (BitVec 512)) (next : Nat) (t : Nat), Executes s e 0x09 b h ∧
      Carries s b h v next ∧ b.inStream = false ∧ condCheck s.mirror b false h = .ok () ∧ isCompare (hCond h) = true ∧ hFlag h 2 = false ∧
      b.next ≤ b.returned + 1024 ∧ hFlags h % 4 ≤ b.loops.length ∧ relTarget b b.pc (hImm h) = .ok t) ∧
    (∃ (s : State) (e : Fin 16) (b : Burst) (h : Word64) (v : Option (BitVec 512)) (next : Nat) (t : Nat), Executes s e 0x09 b h ∧
      Carries s b h v next ∧ b.inStream = false ∧ condCheck s.mirror b false h = .ok () ∧ isCompare (hCond h) = true ∧ hFlag h 2 = false ∧
      b.next ≤ b.returned + 1024 ∧ hFlags h % 4 ≤ b.loops.length ∧ relTarget b b.pc (hImm h) = .ok t) ∧
    (∃ (s : State) (e : Fin 16) (b : Burst) (h : Word64) (v : Option (BitVec 512)) (next : Nat), Executes s e 0x09 b h ∧ Carries s b h v next ∧
      b.inStream = false ∧ condCheck s.mirror b false h = .ok () ∧ isCompare (hCond h) = true ∧ hFlag h 2 = true) ∧
    (∃ (s : State) (e : Fin 16) (b : Burst) (h : Word64) (v : Option (BitVec 512)) (next : Nat), Executes s e 0x09 b h ∧ Carries s b h v next ∧
      b.inStream = false ∧ condCheck s.mirror b false h = .ok () ∧ isCompare (hCond h) = true ∧ hFlag h 2 = true) ∧
    (∃ (s : State) (e : Fin 16) (extra : Nat) (b : Burst) (j : Nat) (h : Word64) (at_ : Nat) (next : Nat) (copies : Bool) (t : Nat),
      s.mirror.burst e = some b ∧ b.wait = some (.jif j h at_ next copies) ∧ j ≤ b.returned ∧ b.fin = none ∧ hFlags h % 4 ≤ b.loops.length ∧
      relTarget b at_ (hImm h) = .ok t) ∧
    (∃ (s : State) (e : Fin 16) (extra : Nat) (b : Burst) (j : Nat) (h : Word64) (at_ : Nat) (next : Nat) (copies : Bool) (t : Nat),
      s.mirror.burst e = some b ∧ b.wait = some (.jif j h at_ next copies) ∧ j ≤ b.returned ∧ b.fin = none ∧ hFlags h % 4 ≤ b.loops.length ∧
      relTarget b at_ (hImm h) = .ok t) :=
  ⟨⟨eng [word 9 0 0 63], 0, bst, hd (word 9 0 0 63), none, 1, 63, executes_of (by decide +kernel), carries_of (by decide +kernel),
      by decide +kernel, ok_of (by decide +kernel), by decide +kernel, by decide +kernel, ok_of (by decide +kernel)⟩,
    ⟨eng [0, word 9 0 1 4294967295 (3*2^43)] { bst with pc := 1, loops := [⟨0, false, 2⟩], matched := true }, 0,
      { bst with pc := 1, loops := [⟨0, false, 2⟩], matched := true }, hd (word 9 0 1 4294967295 (3*2^43)), none, 2, 0,
      executes_of (by decide +kernel), carries_of (by decide +kernel), by decide +kernel, ok_of (by decide +kernel), by decide +kernel,
      by decide +kernel, ok_of (by decide +kernel)⟩,
    ⟨eng [word 9 0 8 63 (1*2^43)] { bst with next := 1025, returned := 1, fails := [(0, 1)] }, 0,
      { bst with next := 1025, returned := 1, fails := [(0, 1)] }, hd (word 9 0 8 63 (1*2^43)), none, 1, 63, executes_of (by decide +kernel),
      carries_of (by decide +kernel), by decide +kernel, ok_of (by decide +kernel),
      and3 (by decide +kernel) ⟨by decide +kernel, ok_of (by decide +kernel)⟩⟩,
    ⟨eng [word 9 1 0 63 (2*2^43), 4] { bst with next := 1024, maskCount := 1 }, 0, { bst with next := 1024, maskCount := 1 },
      hd (word 9 1 0 63 (2*2^43)), some (sym 4), 2, 63, executes_of (by decide +kernel), carries_of (by decide +kernel), by decide +kernel,
      ok_of (by decide +kernel), and3 (by decide +kernel) ⟨by decide +kernel, ok_of (by decide +kernel)⟩⟩,
    ⟨eng [word 9 1 4 63 (1*2^43), 4], 0, bst, hd (word 9 1 4 63 (1*2^43)), some (sym 4), 2, executes_of (by decide +kernel),
      carries_of (by decide +kernel), by decide +kernel, ok_of (by decide +kernel), by decide +kernel⟩,
    ⟨eng [word 9 1 4 63 (1*2^43), 4] { bst with next := 3, returned := 2 }, 0, { bst with next := 3, returned := 2 }, hd (word 9 1 4 63 (1*2^43)),
      some (sym 4), 2, executes_of (by decide +kernel), carries_of (by decide +kernel), by decide +kernel, ok_of (by decide +kernel),
      by decide +kernel⟩,
    ⟨eng [] { bst with wait := some (.jif 3 (hd (word 9 1 4 63 (1*2^43))) 0 2 false), returned := 3, next := 4, fails := [(2, 1)] }, 0, 9,
      { bst with wait := some (.jif 3 (hd (word 9 1 4 63 (1*2^43))) 0 2 false), returned := 3, next := 4, fails := [(2, 1)] }, 3,
      hd (word 9 1 4 63 (1*2^43)), 0, 2, false, 63, and3 (by decide +kernel) ⟨by decide +kernel, by decide +kernel, ok_of (by decide +kernel)⟩⟩,
    ⟨eng [] { bst with wait := some (.jif 0 (hd (word 9 1 4 63 (1*2^43))) 0 2 true), next := 1 }, 0, 0,
      { bst with wait := some (.jif 0 (hd (word 9 1 4 63 (1*2^43))) 0 2 true), next := 1 }, 0, hd (word 9 1 4 63 (1*2^43)), 0, 2, true, 63,
      and3 (by decide +kernel) ⟨by decide +kernel, by decide +kernel, ok_of (by decide +kernel)⟩⟩⟩

theorem test_witness_matchAndWaitInstructions :
    (∃ (s : State) (e : Fin 16) (b : Burst) (h : Word64) (x : Word64) (v : BitVec 512) (next : Nat), Executes s e 0x0A b h ∧
      condCheck s.mirror b true h = .ok () ∧ fetchWord s.mirror b (b.pc + 1) = .ok x ∧ bits x 63 40 = 0 ∧ Holds s b h (b.pc + 2) v next) ∧
    (∃ (s : State) (e : Fin 16) (k : Nat) (b : Burst) (first : Nat) (t : Nat) (h : Word64) (at_ : Nat) (next : Nat), s.mirror.burst e = some b ∧
      b.wait = some (.matching first t h at_ next) ∧ b.fin = none ∧ b.matchHit = none ∧ first + t ≤ b.returned ∧ matchJumps h false = false) ∧
    (∃ (s : State) (e : Fin 16) (k : Nat) (b : Burst) (first : Nat) (t : Nat) (h : Word64) (at_ : Nat) (next : Nat) (a : Nat),
      s.mirror.burst e = some b ∧ b.wait = some (.matching first t h at_ next) ∧ b.fin = none ∧ b.matchHit = none ∧ first + t ≤ b.returned ∧
      matchJumps h false = true ∧ relTarget b at_ (hImm h) = .ok a) ∧
    (∃ (s : State) (e : Fin 16) (k : Nat) (b : Burst) (first : Nat) (t : Nat) (h : Word64) (at_ : Nat) (next : Nat) (v : Nat) (n : Nat),
      s.mirror.burst e = some b ∧ b.wait = some (.matching first t h at_ next) ∧ b.fin = none ∧ b.matchHit = some v ∧
      n = min (t - b.unissued) (max k (max (v - first + 1) (t - min (matchLeft b.queue) b.engineSide))) ∧ matchJumps h true = false) ∧
    (∃ (s : State) (e : Fin 16) (k : Nat) (b : Burst) (first : Nat) (t : Nat) (h : Word64) (at_ : Nat) (next : Nat) (v : Nat) (n : Nat) (a : Nat),
      s.mirror.burst e = some b ∧ b.wait = some (.matching first t h at_ next) ∧ b.fin = none ∧ b.matchHit = some v ∧
      n = min (t - b.unissued) (max k (max (v - first + 1) (t - min (matchLeft b.queue) b.engineSide))) ∧ matchJumps h true = true ∧
      relTarget b at_ (hImm h) = .ok a) ∧
    (∃ (s : State) (e : Fin 16) (b : Burst) (h : Word64) (e0 : Word64) (e1 : Word64) (v : BitVec 512) (next : Nat), Executes s e 0x0B b h ∧
      hFlags h % 4 ≠ 2 ∧ fetchWord s.mirror b (b.pc + 1) = .ok e0 ∧ fetchWord s.mirror b (b.pc + 2) = .ok e1 ∧ bits e1 63 32 = 0 ∧
      Holds s b h (b.pc + 3) v next) ∧
    (∃ (s : State) (e : Fin 16) (b : Burst) (h : Word64) (e0 : Word64) (e1 : Word64) (v : BitVec 512) (next : Nat), Executes s e 0x0B b h ∧
      hFlags h % 4 ≠ 2 ∧ fetchWord s.mirror b (b.pc + 1) = .ok e0 ∧ fetchWord s.mirror b (b.pc + 2) = .ok e1 ∧ bits e1 63 32 = 0 ∧
      Holds s b h (b.pc + 3) v next) ∧
    (∃ (s : State) (e : Fin 16) (b : Burst) (h : Word64) (v : BitVec 512) (next : Nat), Executes s e 0x0B b h ∧ hFlags h % 4 = 2 ∧
      Holds s b h (b.pc + 1) v next) ∧
    (∃ (s : State) (e : Fin 16) (b : Burst) (h : Word64) (v : BitVec 512) (next : Nat), Executes s e 0x0B b h ∧ hFlags h % 4 = 2 ∧
      Holds s b h (b.pc + 1) v next) ∧
    (∃ (s : State) (e : Fin 16) (b : Burst), s.dev.burst e = some b ∧ waitOver b = true ∧ b.nextT0 * halfPs ≤ s.clock.now) ∧
    (∃ (s : State) (e : Fin 16) (b : Burst) (n : Nat) (dl : Nat), s.dev.burst e = some b ∧ b.wait = some (.event n (some dl) none) ∧ dl ≤ s.clock.now) :=
  ⟨⟨eng [word 10 1 0 5, 1099511627775, 6] { bst with acts := [.mark 1] }, 0, { bst with acts := [.mark 1] }, hd (word 10 1 0 5), 1099511627775,
      sym 6, 3, executes_of (by decide +kernel), ok_of (by decide +kernel), ok_of (by decide +kernel), by decide +kernel, holds_of (by decide +kernel)⟩,
    ⟨eng [] { bst with wait := some (.matching 2 3 (hd (word 10 1 2 5)) 0 3), returned := 5 }, 0, 0,
      { bst with wait := some (.matching 2 3 (hd (word 10 1 2 5)) 0 3), returned := 5 }, 2, 3, hd (word 10 1 2 5), 0, 3, by decide +kernel⟩,
    ⟨eng [] { bst with wait := some (.matching 2 3 (hd (word 10 1 0 5)) 0 3), returned := 5 }, 0, 0,
      { bst with wait := some (.matching 2 3 (hd (word 10 1 0 5)) 0 3), returned := 5 }, 2, 3, hd (word 10 1 0 5), 0, 3, 5,
      and3 (by decide +kernel) ⟨by decide +kernel, by decide +kernel, by decide +kernel, ok_of (by decide +kernel)⟩⟩,
    ⟨eng [] { bst with wait := some (.matching 2 3 (hd (word 10 1 4 5)) 0 3), matchHit := some 3 }, 0, 0,
      { bst with wait := some (.matching 2 3 (hd (word 10 1 4 5)) 0 3), matchHit := some 3 }, 2, 3, hd (word 10 1 4 5), 0, 3, 3, 3, by decide +kernel⟩,
    ⟨eng [] { bst with wait := some (.matching 2 3 (hd (word 10 1 1 5)) 0 3), matchHit := some 4 }, 0, 0,
      { bst with wait := some (.matching 2 3 (hd (word 10 1 1 5)) 0 3), matchHit := some 4 }, 2, 3, hd (word 10 1 1 5), 0, 3, 4, 3, 5,
      and3 (by decide +kernel) ⟨by decide +kernel, by decide +kernel, by decide +kernel, ok_of (by decide +kernel)⟩⟩,
    ⟨eng [word 11 1 1 0, 281474976710656+7, 4294967295, 8], 0, bst, hd (word 11 1 1 0), hd (281474976710656+7), 4294967295, sym 8, 4,
      executes_of (by decide +kernel), by decide +kernel, ok_of (by decide +kernel), ok_of (by decide +kernel), by decide +kernel,
      holds_of (by decide +kernel)⟩,
    ⟨eng [word 11 1 0 0, 0, 0, 8], 0, bst, hd (word 11 1 0 0), 0, 0, sym 8, 4, executes_of (by decide +kernel), by decide +kernel,
      ok_of (by decide +kernel), ok_of (by decide +kernel), by decide +kernel, holds_of (by decide +kernel)⟩,
    ⟨eng [word 11 1 2 271, 8], 0, bst, hd (word 11 1 2 271), sym 8, 2, executes_of (by decide +kernel), by decide +kernel,
      holds_of (by decide +kernel)⟩,
    ⟨eng [word 11 1 2 0, 8] { bst with gotEvents := [(0, 5)] }, 0, { bst with gotEvents := [(0, 5)] }, hd (word 11 1 2 0), sym 8, 2,
      executes_of (by decide +kernel), by decide +kernel, holds_of (by decide +kernel)⟩,
    ⟨(let s := eng [] { bst with wait := some (.time false (10 * halfPs)), waitFirst := some 0, nextT0 := 10, lastEnd := some 10 }; { s with clock := { s.clock with now := 10 * halfPs, tb := 10 * halfPs } }),
      0, { bst with wait := some (.time false (10 * halfPs)), waitFirst := some 0, nextT0 := 10, lastEnd := some 10 }, by decide +kernel⟩,
    ⟨eng [] { bst with wait := some (.event 15 (some 0) none) }, 0, { bst with wait := some (.event 15 (some 0) none) }, 15, 0, by decide +kernel⟩⟩

theorem test_witness_programFaults :
    (∃ (i : Instr) (op : Nat) (e : Fin 16) (s : State) (b : Burst),
      (i, op) ∈ [(Instr.rpt e, 0x02), (.loop e, 0x04), (.endl e, 0x05), (.call e, 0x06), (.ret e, 0x07), (.jmp e, 0x08), (.jif e, 0x09), (.matchStart e, 0x0A), (.waitt e, 0x0B), (.tset e, 0x0C), (.capon e, 0x0D), (.capoff e, 0x0E), (.trig e, 0x0F), (.wave e, 0x10), (.mark e, 0x11), (.stream e, 0x12), (.halt e, 0x3F), (.vec e none, 0x01)] ∧
      readyBurst s.mirror e = some b ∧ b.inStream = false ∧ b.codeWords ≤ b.pc) ∧
    (∃ (i : Instr) (op : Nat) (e : Fin 16) (s : State) (b : Burst),
      (i, op) ∈ [(Instr.rpt e, 0x02), (.loop e, 0x04), (.endl e, 0x05), (.call e, 0x06), (.ret e, 0x07), (.jmp e, 0x08), (.jif e, 0x09), (.matchStart e, 0x0A), (.waitt e, 0x0B), (.tset e, 0x0C), (.capon e, 0x0D), (.capoff e, 0x0E), (.trig e, 0x0F), (.wave e, 0x10), (.mark e, 0x11), (.stream e, 0x12), (.halt e, 0x3F), (.vec e none, 0x01)] ∧
      readyBurst s.mirror e = some b ∧ b.inStream = false ∧ b.codeWords ≤ b.pc) ∧
    (∃ (i : Instr) (op : Nat) (e : Fin 16) (s : State) (b : Burst) (h : Word64),
      (i, op) ∈ [(Instr.rpt e, 0x02), (.loop e, 0x04), (.endl e, 0x05), (.call e, 0x06), (.ret e, 0x07), (.jmp e, 0x08), (.jif e, 0x09), (.matchStart e, 0x0A), (.waitt e, 0x0B), (.tset e, 0x0C), (.capon e, 0x0D), (.capoff e, 0x0E), (.trig e, 0x0F), (.wave e, 0x10), (.mark e, 0x11), (.stream e, 0x12), (.halt e, 0x3F), (.vec e none, 0x01)] ∧
      readyBurst s.mirror e = some b ∧ fetchWord s.mirror b b.pc = .ok h ∧ opcodeAbsent s.mirror e (hOpc h) = true) ∧
    (∃ (i : Instr) (op : Nat) (e : Fin 16) (s : State) (b : Burst) (h : Word64),
      (i, op) ∈ [(Instr.rpt e, 0x02), (.loop e, 0x04), (.endl e, 0x05), (.call e, 0x06), (.ret e, 0x07), (.jmp e, 0x08), (.jif e, 0x09), (.matchStart e, 0x0A), (.waitt e, 0x0B), (.tset e, 0x0C), (.capon e, 0x0D), (.capoff e, 0x0E), (.trig e, 0x0F), (.wave e, 0x10), (.mark e, 0x11), (.stream e, 0x12), (.halt e, 0x3F), (.vec e none, 0x01)] ∧
      readyBurst s.mirror e = some b ∧ fetchWord s.mirror b b.pc = .ok h ∧ opcodeAbsent s.mirror e (hOpc h) = true) ∧
    (∃ (i : Instr) (op : Nat) (e : Fin 16) (s : State) (b : Burst) (h : Word64),
      (i, op) ∈ [(Instr.rpt e, 0x02), (.loop e, 0x04), (.endl e, 0x05), (.call e, 0x06), (.ret e, 0x07), (.jmp e, 0x08), (.jif e, 0x09), (.matchStart e, 0x0A), (.waitt e, 0x0B), (.tset e, 0x0C), (.capon e, 0x0D), (.capoff e, 0x0E), (.trig e, 0x0F), (.wave e, 0x10), (.mark e, 0x11), (.stream e, 0x12), (.halt e, 0x3F), (.vec e none, 0x01)] ∧
      readyBurst s.mirror e = some b ∧ fetchWord s.mirror b b.pc = .ok h ∧ opcodeAbsent s.mirror e (hOpc h) = false ∧ hOpc h = op ∧
      (runsLining s.mirror e op = false ∨ b.redirected = true) ∧ (∀ row, opRow op = some row → headerField row h = true)) ∧
    (∃ (i : Instr) (op : Nat) (e : Fin 16) (s : State) (b : Burst) (h : Word64),
      (i, op) ∈ [(Instr.rpt e, 0x02), (.loop e, 0x04), (.endl e, 0x05), (.call e, 0x06), (.ret e, 0x07), (.jmp e, 0x08), (.jif e, 0x09), (.matchStart e, 0x0A), (.waitt e, 0x0B), (.tset e, 0x0C), (.capon e, 0x0D), (.capoff e, 0x0E), (.trig e, 0x0F), (.wave e, 0x10), (.mark e, 0x11), (.stream e, 0x12), (.halt e, 0x3F), (.vec e none, 0x01)] ∧
      readyBurst s.mirror e = some b ∧ fetchWord s.mirror b b.pc = .ok h ∧ opcodeAbsent s.mirror e (hOpc h) = false ∧ hOpc h = op ∧
      (runsLining s.mirror e op = false ∨ b.redirected = true) ∧ (∀ row, opRow op = some row → headerField row h = true)) ∧
    (∃ (i : Instr) (op : Nat) (e : Fin 16) (s : State) (b : Burst) (h : Word64),
      (i, op) ∈ [(Instr.rpt e, 0x02), (.loop e, 0x04), (.endl e, 0x05), (.call e, 0x06), (.ret e, 0x07), (.jmp e, 0x08), (.jif e, 0x09), (.matchStart e, 0x0A), (.waitt e, 0x0B), (.tset e, 0x0C), (.capon e, 0x0D), (.capoff e, 0x0E), (.trig e, 0x0F), (.wave e, 0x10), (.mark e, 0x11), (.stream e, 0x12), (.halt e, 0x3F), (.vec e none, 0x01)] ∧
      readyBurst s.mirror e = some b ∧ fetchWord s.mirror b b.pc = .ok h ∧ Dispatches s e op b h ∧ rewritten s.mirror e op = true) :=
  ⟨⟨.rpt 0, 2, 0, eng [] { bst with pc := 64 }, { bst with pc := 64 }, by decide +kernel⟩,
    ⟨.vec 0 none, 1, 0, eng [] { bst with pc := 65 }, { bst with pc := 65 }, by decide +kernel⟩,
    ⟨.rpt 0, 2, 0, eng [word 3], bst, hd (word 3), by decide +kernel, by decide +kernel, ok_of (by decide +kernel), by decide +kernel⟩,
    ⟨.halt 0, 0x3F, 0, eng [word 0], bst, hd (word 0), by decide +kernel, by decide +kernel, ok_of (by decide +kernel), by decide +kernel⟩,
    ⟨.rpt 0, 2, 0, eng [word 2 0] bst (dirS 2 0x80000000), bst, hd (word 2 0), by decide +kernel, by decide +kernel, ok_of (by decide +kernel),
      by decide +kernel⟩,
    ⟨.halt 0, 0x3F, 0, eng [word 0x3F 0 0 65536] bst (dirS 0x3F 0x80000000), bst, hd (word 0x3F 0 0 65536), by decide +kernel, by decide +kernel,
      ok_of (by decide +kernel), by decide +kernel⟩,
    ⟨.rpt 0, 2, 0, rwS, bst, hd (word 2 1 0 0), by decide, by decide +kernel, ok_of (by decide +kernel), dispatches_of (by decide +kernel),
      by decide +kernel⟩⟩

theorem test_witness_asellFrame :
    (∃ (i : Instr) (e : Fin 16) (s : State) (t : State) (b : Burst),
      i ∈ [Instr.vec e none, .rpt e, .loop e, .endl e, .call e, .ret e, .jmp e, .jif e, .matchStart e, .waitt e, .tset e, .capon e, .capoff e, .trig e, .wave e, .mark e, .stream e, .halt e] ∧
      s.dev.burst e = some b ∧ b.stopEvent = none ∧ (∀ op, rewritten s.mirror e op = false) ∧ exec i s = .next t) ∧
    (∃ (i : Instr) (e : Fin 16) (s : State) (t : State) (b : Burst) (a : Nat),
      i ∈ [Instr.vec e none, .rpt e, .loop e, .endl e, .call e, .ret e, .jmp e, .jif e, .matchStart e, .waitt e, .tset e, .capon e, .capoff e, .trig e, .wave e, .mark e, .stream e, .halt e] ∧
      s.dev.burst e = some b ∧ b.stopEvent = none ∧ (∀ op, rewritten s.mirror e op = false) ∧ exec i s = .next t) ∧
    (∃ (i : Instr) (e : Fin 16) (s : State) (t : State) (b : Burst) (k : Nat),
      i ∈ [Instr.vec e none, .rpt e, .loop e, .endl e, .call e, .ret e, .jmp e, .jif e, .matchStart e, .waitt e, .tset e, .capon e, .capoff e, .trig e, .wave e, .mark e, .stream e, .halt e] ∧
      s.dev.burst e = some b ∧ b.stopEvent = none ∧ (∀ op, rewritten s.mirror e op = false) ∧ exec i s = .next t ∧ k ≠ e.val) ∧
    (∃ (i : Instr) (e : Fin 16) (s : State) (t : State) (b : Burst) (k : Nat),
      i ∈ [Instr.vec e none, .rpt e, .loop e, .endl e, .call e, .ret e, .jmp e, .jif e, .matchStart e, .waitt e, .tset e, .capon e, .capoff e, .trig e, .wave e, .mark e, .stream e, .halt e] ∧
      s.dev.burst e = some b ∧ b.stopEvent = none ∧ (∀ op, rewritten s.mirror e op = false) ∧ exec i s = .next t ∧ k ≠ b.site) ∧
    (∃ (i : Instr) (e : Fin 16) (s : State) (t : State) (b : Burst) (r : Reg),
      i ∈ [Instr.vec e none, .rpt e, .loop e, .endl e, .call e, .ret e, .jmp e, .jif e, .matchStart e, .waitt e, .tset e, .capon e, .capoff e, .trig e, .wave e, .mark e, .stream e, .halt e] ∧
      s.dev.burst e = some b ∧ b.stopEvent = none ∧ (∀ op, rewritten s.mirror e op = false) ∧ exec i s = .next t ∧ r.addr ≠ (Reg.ENG_STAT e).addr ∧
      r.addr ≠ Reg.RAS_STAT.addr) ∧
    (∃ (i : Instr) (e : Fin 16) (s : State) (t : State) (b : Burst),
      i ∈ [Instr.vec e none, .rpt e, .loop e, .endl e, .call e, .ret e, .jmp e, .jif e, .matchStart e, .waitt e, .tset e, .capon e, .capoff e, .trig e, .wave e, .mark e, .stream e, .halt e] ∧
      s.dev.burst e = some b ∧ b.stopEvent = none ∧ (∀ op, rewritten s.mirror e op = false) ∧ exec i s = .next t ∧
      (∀ a, s.dev.dram.poisoned a = false)) :=
  ⟨⟨.vec 0 none, 0, vecS, nx (exec (.vec 0 none) vecS), bst, by decide +kernel, by decide +kernel, rfl, vecS_standard, rfl⟩,
    ⟨.vec 0 none, 0, vecS, nx (exec (.vec 0 none) vecS), bst, 4096, by decide +kernel, by decide +kernel, rfl, vecS_standard, rfl⟩,
    ⟨.vec 0 none, 0, vecS, nx (exec (.vec 0 none) vecS), bst, 1, by decide +kernel, by decide +kernel, rfl, vecS_standard, rfl, by decide⟩,
    ⟨.vec 0 none, 0, vecS, nx (exec (.vec 0 none) vecS), bst, 1, by decide +kernel, by decide +kernel, rfl, vecS_standard, rfl, by decide⟩,
    ⟨.vec 0 none, 0, vecS, nx (exec (.vec 0 none) vecS), bst, .GLB_STAT, by decide +kernel, by decide +kernel, rfl, vecS_standard, rfl, by decide⟩,
    ⟨.vec 0 none, 0, vecS, nx (exec (.vec 0 none) vecS), bst, by decide +kernel, by decide +kernel, rfl, vecS_standard, rfl, fun _ => rfl⟩⟩

theorem test_witness_engineTrapsAndInterrupts1 :
    (∃ (s : State) (e : Fin 16) (b : Burst), consumesPoison s.mirror e = true ∧ s.dev.burst e = some b) ∧
    (∃ (s : State) (e : Fin 16) (b : Burst), reservedNow s.mirror e = true ∧ s.dev.burst e = some b) ∧
    (∃ (s : State) (e : Fin 16) (b : Burst) (store : Fin 4) (addr : Fin 8192) (k : Nat), routineNow s.mirror e = some k ∧ s.dev.burst e = some b ∧
      (store = 0 → bit (s.mirror.dirEntry e k) 28 = false)) ∧
    (∃ (s : State) (e : Fin 16) (b : Burst) (store : Fin 4) (addr : Fin 8192) (k : Nat), routineNow s.mirror e = some k ∧ s.dev.burst e = some b ∧
      (store = 0 → bit (s.mirror.dirEntry e k) 28 = false)) ∧
    (∃ (s : State) (e : Fin 16) (b : Burst) (addr : Fin 4096) (k : Nat), routineNow s.mirror e = some k ∧ runsLining s.mirror e k = false ∧
      bit (s.mirror.dirEntry e k) 28 = true ∧ s.dev.burst e = some b) ∧
    (∃ (s : State) (e : Fin 16) (b : Burst) (h : Word64), readyBurst s.mirror e = some b ∧ fetchWord s.mirror b b.pc = .ok h ∧
      runsLining s.mirror e (hOpc h) = true ∧ b.redirected = false) ∧
    (∃ (s : State) (e : Fin 16), s.mirror.seamFenced 32 = true) ∧
    (∃ (s : State) (e : Fin 16),
      let d := trapped ((pauseService s.mirror e).modEngine e fun x => { x with hostAbort := false, armReq := false }) e 0x06; let d := if s.dev.engState e = 1 ∨ s.dev.engState e = 2 then d.set (.ENG_STAT e) 31 28 5 else d;
      (s.dev.engine e).hostAbort = true ∧ s.mirror.seamFenced 32 = false ∧ s.dev.burst e = none) ∧
    (∃ (s : State) (e : Fin 16) (b : Burst),
      let d := trapped ((pauseService s.mirror e).modEngine e fun x => { x with hostAbort := false, armReq := false }) e 0x06; let d := if s.dev.engState e = 1 ∨ s.dev.engState e = 2 then d.set (.ENG_STAT e) 31 28 5 else d;
      (s.dev.engine e).hostAbort = true ∧ s.mirror.seamFenced 32 = false ∧ s.dev.burst e = some b ∧ b.fin.isSome = true) ∧
    (∃ (s : State) (e : Fin 16) (b : Burst),
      let d := trapped ((pauseService s.mirror e).modEngine e fun x => { x with hostAbort := false, armReq := false }) e 0x06; let d := if s.dev.engState e = 1 ∨ s.dev.engState e = 2 then d.set (.ENG_STAT e) 31 28 5 else d;
      (s.dev.engine e).hostAbort = true ∧ s.mirror.seamFenced 32 = false ∧ s.dev.burst e = some b ∧ b.fin = none ∧ atSafePoint s.mirror e b = true) ∧
    (∃ (s : State) (e : Fin 16) (b : Burst),
      let d := trapped ((pauseService s.mirror e).modEngine e fun x => { x with hostAbort := false, armReq := false }) e 0x06; let d := if s.dev.engState e = 1 ∨ s.dev.engState e = 2 then d.set (.ENG_STAT e) 31 28 5 else d;
      (s.dev.engine e).hostAbort = true ∧ s.mirror.seamFenced 32 = false ∧ s.dev.burst e = some b ∧ b.fin = none ∧ atSafePoint s.mirror e b = false) ∧
    (∃ (s : State) (e : Fin 16), (s.dev.engine e).armReq = true ∧ (s.dev.engine e).hostAbort = false) :=
  ⟨⟨eng [word 2] bst (fun d => { d with dram := { d.dram with poison := [64] } }), 0, bst, by decide +kernel⟩,
    ⟨eng [] { bst with micro := some m0 } (hst (-1)), 0, { bst with micro := some m0 }, by decide +kernel⟩,
    ⟨eng [word 2] bst (dirS 2 0x80000000), 0, bst, 0, 0, 2, by decide +kernel⟩,
    ⟨eng [] { bst with micro := some m0 } (hst 0), 0, { bst with micro := some m0 }, 3, 8191, 4, by decide +kernel⟩,
    ⟨eng [word 2] bst (fun d => d.modEngine 0 fun x => { x with dir := x.dir.put none 2 (some 0xD0000000) }), 0, bst, 4095, 2, by decide +kernel⟩,
    ⟨eng [word 2] bst (dirS 2 0x40000000), 0, bst, hd (word 2), by decide +kernel, ok_of (by decide +kernel), by decide +kernel⟩,
    ⟨on (fun d => (d.raise (.RAS_SEAMFENCE 1) 0).modEngine 3 fun x => { x with hostAbort := true }), 3, by decide +kernel⟩,
    ⟨on (fun d => d.modEngine 3 fun x => { x with hostAbort := true, armReq := true }), 3, by dsimp only; decide +kernel⟩,
    ⟨eng [] { bst with fin := some (.halt 0) } (fun d => d.modEngine 0 fun x => { x with hostAbort := true }), 0,
      { bst with fin := some (.halt 0) }, by dsimp only; decide +kernel⟩,
    ⟨eng [] bst (fun d => (d.modEngine 0 fun x => { x with hostAbort := true }).set (.ENG_STAT 0) 31 28 1), 0, bst, by dsimp only; decide +kernel⟩,
    ⟨eng [] { bst with unissued := 1 } (fun d => d.modEngine 0 fun x => { x with hostAbort := true }), 0, { bst with unissued := 1 },
      by dsimp only; decide +kernel⟩,
    ⟨eng [] bst fun d => d.modEngine 0 fun x => { x with armReq := true }, 0, by decide +kernel⟩⟩

theorem test_witness_engineTrapsAndInterrupts2 :
    (∃ (s : State) (e : Fin 16), (s.dev.engState e = 0 ∨ s.dev.engState e = 7) ∧ (s.dev.engine e).armReq = false ∧
      (s.dev.engine e).hostAbort = false ∧ (s.dev.burst e).bind (·.micro) = none) ∧
    (∃ (s : State) (e : Fin 16) (m : Micro), (s.dev.engine e).armReq = false ∧ (s.dev.engine e).hostAbort = false ∧
      (s.dev.burst e).bind (·.micro) = some m ∧ bit (s.mirror.dirEntry e m.routine) 29 = true) ∧
    (∃ (s : State) (e : Fin 16),
      ((s.dev.engine e).armReq = true ∨ (s.dev.engine e).hostAbort = true ∨ ((s.dev.burst e).bind (·.micro) = none ∧ s.dev.engState e ≠ 0 ∧ s.dev.engState e ≠ 7) ∨ (∃ m, (s.dev.burst e).bind (·.micro) = some m ∧ bit (s.mirror.dirEntry e m.routine) 29 = false))) :=
  ⟨⟨on id, 15, by decide +kernel⟩,
    ⟨eng [] { bst with micro := some m0 } (dirS 4 0xA0000000), 0, m0, by decide +kernel⟩,
    ⟨eng [], 0, by decide +kernel⟩⟩

theorem test_witness_controlStoreWrites :
    (∃ (s : State) (e : Fin 16) (r : Prod Nat (Nat × Nat)), s.dev.flag (.ENG_CTL e) 0 = true ∧
      ((s.dev.engine e).repairs.find? (fun r => standardWord r.1 r.2.1) = some r) ∧
      (((s.dev.engine e).repairs.erase r).any (fun q => q.2.2 = r.2.2) = false)) ∧
    (∃ (s : State) (p : Prod Nat (Nat × Nat)), s.dev.trust.package = some p ∧ s.dev.trust.bootPkg = true ∧
      (∀ e, e < 16 → s.dev.dispatched e = false ∧ s.dev.burst e = none)) ∧
    (∃ (s : State) (k : Fin 73728) (w : Word), k.val < 65536 ∧ k.val % 4096 < 3072 ∧ s.dev.accepts 0 = true ∧ s.dev.ready = true ∧
      s.mirror.seamFenced 32 = false) ∧
    (∃ (s : State) (k : Fin 73728) (w : Word), k.val < 65536 ∧ k.val % 4096 < 3072 ∧ s.dev.accepts 0 = true ∧ s.dev.ready = true ∧
      s.mirror.seamFenced 32 = false) ∧
    (∃ (s : State) (k : Fin 73728) (w : Word), 65536 ≤ k.val ∧ k.val < 65536 + 6144 ∧ s.dev.accepts 0 = true ∧ s.dev.ready = true ∧
      s.mirror.seamFenced 32 = false) ∧
    (∃ (s : State) (k : Fin 73728) (w : Word), 65536 ≤ k.val ∧ k.val < 65536 + 6144 ∧ s.dev.accepts 0 = true ∧ s.dev.ready = true ∧
      s.mirror.seamFenced 32 = false) :=
  ⟨⟨eng [] bst fun d => (d.raise (.ENG_CTL 0) 0).modEngine 0 fun x => { x with repairs := [(0, 3072, 4), (0, 3071, 5)], liningOnly := [5] }, 0,
      (0, 3071, 5), by decide +kernel⟩,
    ⟨on fun d => { d with trust := { d.trust with package := some (1, 2, 3), bootPkg := true } }, (1, 2, 3), by decide +kernel⟩,
    ⟨on id, 0, 0, by decide +kernel⟩,
    ⟨on id, 64511, 5, by decide +kernel⟩,
    ⟨on id, 65536, 0, by decide +kernel⟩,
    ⟨on id, 71679, 0, by decide +kernel⟩⟩

theorem test_witness_dispatchAndArming :
    (∃ (s : State) (e : Fin 16) (slot : Nat) (x : Desc), committedTo s.mirror e = some (slot, x) ∧
      (s.mirror.seamFenced 32 = true ∨ (s.mirror.engineReads = false ∧ x.abort = none))) ∧
    (∃ (s : State) (e : Fin 16) (slot : Nat) (x : Desc), committedTo s.mirror e = some (slot, x) ∧
      (s.mirror.seamFenced 32 = true ∨ (s.mirror.engineReads = false ∧ x.abort = none))) ∧
    (∃ (s : State) (e : Fin 16) (slot : Nat) (x : Desc) (l : Loadable) (pc : Nat), committedTo s.mirror e = some (slot, x) ∧
      s.mirror.seamFenced 32 = false ∧ s.mirror.engineReads = true ∧ s.dev.sched.registry.get none x.load = some l ∧
      dispatchCheck s.mirror x l = .ok pc ∧ loadPoison s.mirror l = false) ∧
    (∃ (s : State) (e : Fin 16) (slot : Nat) (x : Desc) (l : Loadable) (code : Nat) (faddr : Nat), committedTo s.mirror e = some (slot, x) ∧
      s.mirror.seamFenced 32 = false ∧ s.mirror.engineReads = true ∧ s.dev.sched.registry.get none x.load = some l ∧
      dispatchCheck s.mirror x l = .error (code, faddr)) ∧
    (∃ (s : State) (e : Fin 16) (slot : Nat) (x : Desc) (l : Loadable) (code : Nat) (faddr : Nat), committedTo s.mirror e = some (slot, x) ∧
      s.mirror.seamFenced 32 = false ∧ s.mirror.engineReads = true ∧ s.dev.sched.registry.get none x.load = some l ∧
      dispatchCheck s.mirror x l = .error (code, faddr)) ∧
    (∃ (s : State) (e : Fin 16) (slot : Nat) (x : Desc) (l : Loadable) (pc : Nat), committedTo s.mirror e = some (slot, x) ∧
      s.mirror.seamFenced 32 = false ∧ s.mirror.engineReads = true ∧ s.dev.sched.registry.get none x.load = some l ∧
      dispatchCheck s.mirror x l = .ok pc ∧ loadPoison s.mirror l = true) ∧
    (∃ (s : State) (e : Fin 16) (b : Burst) (x : Desc), s.dev.burstDesc e = some (b, x) ∧ s.dev.engState e = 2 ∧ b.armed = none ∧
      b.fin ≠ some .abort ∧ armingMet s.mirror e b = true ∧ x.start = 0) ∧
    (∃ (s : State) (e : Fin 16) (b : Burst) (x : Desc), s.dev.burstDesc e = some (b, x) ∧ s.dev.engState e = 2 ∧ b.armed = none ∧
      b.fin ≠ some .abort ∧ armingMet s.mirror e b = true ∧ x.start = 1 ∧ s.mirror.nowOn 8 + 40 * nano1 ≤ x.startT) :=
  ⟨⟨on (fun d => ((sited d).putDesc 5 (some dsc)).raise (.RAS_SEAMFENCE 1) 0), 0, 5, dsc, by decide +kernel⟩,
    ⟨on (fun d => ((sited d).putDesc 5 (some dsc)).set .DRC_PWR 25 24 2), 0, 5, dsc, by decide +kernel⟩,
    ⟨on (fun d => { (((sited d).putDesc 5 (some dsc)).modSched fun x => { x with registry := x.registry.put none 0 (some ldb) }) with dram := { d.dram with mem := memOf 4096 [7] } }),
      0, 5, dsc, ldb, 7, and3 (by decide +kernel) ⟨by decide +kernel, ok_of (by decide +kernel), by decide +kernel⟩⟩,
    ⟨on (fun d => { (((sited d).putDesc 5 (some { dsc with entry := 1 })).modSched fun x => { x with registry := x.registry.put none 0 (some ldb) }) with dram := { d.dram with mem := memOf 4096 [8] } }),
      0, 5, { dsc with entry := 1 }, ldb, fcTargetRange, 0, and3 (by decide +kernel) ⟨by decide +kernel, error_of (by decide +kernel)⟩⟩,
    ⟨on (fun d => { (((sited d).putDesc 5 (some dsc)).modSched fun x => { x with registry := x.registry.put none 0 (some ldb) }) with dram := { d.dram with mem := memOf 4096 [8] } }),
      0, 5, dsc, ldb, fcTargetRange, 8, and3 (by decide +kernel) ⟨by decide +kernel, error_of (by decide +kernel)⟩⟩,
    ⟨on (fun d => { (((sited d).putDesc 5 (some dsc)).modSched fun x => { x with registry := x.registry.put none 0 (some { ldb with uopCount := 1, padOff := 129 }) }) with dram := { d.dram with mem := memOf 4096 [7], poison := [66] } }),
      0, 5, dsc, { ldb with uopCount := 1, padOff := 129 }, 7,
      and3 (by decide +kernel) ⟨by decide +kernel, ok_of (by decide +kernel), by decide +kernel⟩⟩,
    ⟨dis 2 { bst with fin := some (.halt 0) } dsc, 0, { bst with fin := some (.halt 0) }, dsc, by decide +kernel⟩,
    ⟨dis 2 { bst with fin := some (.halt 0) } { dsc with start := 1, startT := 40 * nano1 }, 0, { bst with fin := some (.halt 0) },
      { dsc with start := 1, startT := 40 * nano1 }, by decide +kernel⟩⟩

theorem test_witness_vectorsEdgesAndStrobes :
    (∃ (s : State) (site : Fin 16) (e : Nat) (b : Burst) (x : Desc) (r : VecRun) (q : List VecRun), releaseDue s.mirror site = some (e, b) ∧
      s.dev.desc b.slot = some x ∧ b.start.isSome = true ∧ b.stop = none ∧ b.wait = none ∧ b.entryBuf ≠ [] ∧ b.padding = 0 ∧ b.queue = r :: q ∧
      b.lastEnd.isSome = true ∧ (s.dev.site b.site).commit = none ∧ r.acts = [] ∧ b.padMarks = [] ∧ r.kind = .numbered ∧ b.site = site.val ∧
      s.dev.dueOn (s.dev.firstCuff site) (b.nextT0 * halfPs) ≤ s.clock.now) ∧
    (∃ (s : State) (site : Fin 16) (e : Nat) (b : Burst) (x : Desc) (r : VecRun) (q : List VecRun), releaseDue s.mirror site = some (e, b) ∧
      s.dev.desc b.slot = some x ∧ b.start.isSome = true ∧ b.stop = none ∧ b.wait = none ∧ b.entryBuf ≠ [] ∧ b.padding = 0 ∧ b.queue = r :: q ∧
      b.lastEnd.isSome = true ∧ (s.dev.site b.site).commit = none ∧ r.acts = [] ∧ b.padMarks = [] ∧ r.kind = .numbered ∧ b.site = site.val ∧
      s.dev.dueOn (s.dev.firstCuff site) (b.nextT0 * halfPs) ≤ s.clock.now) ∧
    (∃ (s : State) (c : Fin 128) (x : DriveEdge) (es : List DriveEdge), (s.dev.chan c).edges = x :: es ∧
      s.dev.dueOn (c.val / 16) (s.dev.phased false c x.time * halfPs) ≤ s.clock.now ∧ afterEnd s.mirror c x.time = false ∧
      noEdge (s.dev.chan c) x = false ∧ edgeCollides (s.dev.chan c) x = false) ∧
    (∃ (s : State) (c : Fin 128) (ch : Bool) (cl : Bool) (site : Nat) (i : Nat) (w : Win), nextWin s.mirror c .waiting = some (site, i, w) ∧
      s.dev.dueOn (c.val / 16) (s.dev.phased true c w.opens * halfPs) ≤ s.clock.now ∧ w.suppressed = false) ∧
    (∃ (s : State) (c : Fin 128) (ch : Bool) (cl : Bool) (site : Nat) (i : Nat) (w : Win), nextWin s.mirror c .waiting = some (site, i, w) ∧
      s.dev.dueOn (c.val / 16) (s.dev.phased true c w.opens * halfPs) ≤ s.clock.now ∧ w.suppressed = false) ∧
    (∃ (s : State) (c : Fin 128) (moved : Bool) (site : Nat) (i : Nat) (w : Win), nextWin s.mirror c .opened = some (site, i, w) ∧
      s.dev.dueOn (c.val / 16) (s.dev.phased true c w.closes * halfPs) ≤ s.clock.now) ∧
    (∃ (s : State) (c : Fin 128) (moved : Bool) (site : Nat) (i : Nat) (w : Win), nextWin s.mirror c .opened = some (site, i, w) ∧
      s.dev.dueOn (c.val / 16) (s.dev.phased true c w.closes * halfPs) ≤ s.clock.now) ∧
    (∃ (s : State) (c : Fin 128) (ch : Bool) (cl : Bool) (site : Nat) (i : Nat) (w : Win) (f : Flight) (e : Nat) (b : Burst),
      nextWin s.mirror c .waiting = some (site, i, w) ∧ s.dev.dueOn (c.val / 16) (s.dev.phased true c w.opens * halfPs) ≤ s.clock.now ∧
      w.suppressed = true ∧ (s.dev.site site).flight[i]? = some f ∧ s.dev.siteEngine site = some e ∧ s.dev.burst e = some b ∧ b.collided = false) :=
  ⟨⟨dis 4 { bst with start := some 0, entryBuf := [1], queue := [run0], lastEnd := some 0 } dsc, 0, 0,
      { bst with start := some 0, entryBuf := [1], queue := [run0], lastEnd := some 0 }, dsc, run0, [], by decide +kernel⟩,
    ⟨dis 4 { bst with start := some 0, entryBuf := [3], queue := [{ run0 with count := 3 }], lastEnd := some 0, nextT0 := 8 } dsc (fun d => { d with periods := d.periods.put 0 0 5000 }) (8 * halfPs),
      0, 0, { bst with start := some 0, entryBuf := [3], queue := [{ run0 with count := 3 }], lastEnd := some 0, nextT0 := 8 }, dsc,
      { run0 with count := 3 }, [], by decide +kernel⟩,
    ⟨on (fun d => (sited d).modChan 127 fun x => { x with edges := [{ time := 0, t0 := 0, num := 0, data := some true, cur := true }] }), 127,
      { time := 0, t0 := 0, num := 0, data := some true, cur := true }, [], by decide +kernel⟩,
    ⟨fly { flt with wins := [win] }, 0, true, false, 0, 0, win, by decide +kernel⟩,
    ⟨fly { flt with wins := [{ win with cmp := 3 }] }, 0, false, false, 0, 0, { win with cmp := 3 }, by decide +kernel⟩,
    ⟨fly { flt with wins := [{ win with stage := .opened, pass := true }] }, 0, true, 0, 0, { win with stage := .opened, pass := true },
      by decide +kernel⟩,
    ⟨fly { flt with wins := [{ win with stage := .opened, cmp := 5 }] }, 0, true, 0, 0, { win with stage := .opened, cmp := 5 }, by decide +kernel⟩,
    ⟨fly { flt with wins := [{ win with suppressed := true }] }, 0, true, true, 0, 0, { win with suppressed := true },
      { flt with wins := [{ win with suppressed := true }] }, 0, bst, by decide +kernel⟩⟩

theorem test_witness_resultsAndBurstEnd :
    (∃ (s : State) (site : Fin 16) (f : Flight) (fs : List Flight) (e : Nat) (v : Nat), (s.dev.site site).flight = f :: fs ∧
      s.dev.siteEngine site = some e ∧ ((f.wins.any fun w => w.stage ≠ .done) = false) ∧ s.mirror.resultsFenced site = false ∧ f.acts = [] ∧
      f.num = some v ∧ f.matchRep = false ∧ f.capture = false ∧ (∀ u, u < 16 → s.dev.acqSite u = site.val → (s.dev.acq u).cfg.stream = true) ∧
      (v + 1) % 65536 ≠ 0) ∧
    (∃ (s : State) (site : Fin 16) (f : Flight) (fs : List Flight) (e : Nat) (v : Nat), (s.dev.site site).flight = f :: fs ∧
      s.dev.siteEngine site = some e ∧ ((f.wins.any fun w => w.stage ≠ .done) = false) ∧ s.mirror.resultsFenced site = false ∧ f.acts = [] ∧
      f.num = some v ∧ f.matchRep = false ∧ f.capture = false ∧ (∀ u, u < 16 → s.dev.acqSite u = site.val → (s.dev.acq u).cfg.stream = true) ∧
      (v + 1) % 65536 ≠ 0) ∧
    (∃ (s : State) (site : Fin 16), (s.dev.siteEngine site = none ∨ s.mirror.resultsFenced site = true)) ∧
    (∃ (s : State) (site : Fin 16), (s.dev.siteEngine site = none ∨ s.mirror.resultsFenced site = true)) ∧
    (∃ (s : State) (e : Fin 16) (b : Burst) (x : Desc), s.dev.burstDesc e = some (b, x) ∧ burstDone s.mirror b = true ∧
      (∀ t, endDue s.dev e = some t → t ≤ s.clock.now)) ∧
    (∃ (s : State) (e : Fin 16) (b : Burst) (x : Desc), s.dev.burstDesc e = some (b, x) ∧ burstDone s.mirror b = true ∧
      (∀ t, endDue s.dev e = some t → t ≤ s.clock.now)) :=
  ⟨⟨fly { flt with wins := [{ win with stage := .done, pass := true }] } bst (fun d => List.foldl (fun d u => d.modAcq u fun x => { x with cfg := { x.cfg with stream := true } }) d (List.range 16)),
      0, { flt with wins := [{ win with stage := .done, pass := true }] }, [], 0, 0, by decide +kernel⟩,
    ⟨fly { flt with num := some 65534, wins := [{ win with stage := .done }] } bst (fun d => List.foldl (fun d u => d.modAcq u fun x => { x with cfg := { x.cfg with stream := true } }) d (List.range 16)),
      0, { flt with num := some 65534, wins := [{ win with stage := .done }] }, [], 0, 65534, by decide +kernel⟩,
    ⟨on id, 0, by decide +kernel⟩,
    ⟨fly flt bst (fun d => d.raise (.RAS_SEAMFENCE 1) 10), 0, by decide +kernel⟩,
    ⟨dis 4 { bst with fin := some (.halt 0) } dsc, 0, { bst with fin := some (.halt 0) }, dsc, by decide +kernel, by decide +kernel,
      none_all (by decide +kernel)⟩,
    ⟨dis 4 { bst with fin := some (.halt 0), lastEnd := some 0 } dsc, 0, { bst with fin := some (.halt 0), lastEnd := some 0 }, dsc,
      by decide +kernel, by decide +kernel, fun t h => by obtain rfl : 0 = t := Option.some.inj h; decide +kernel⟩⟩

theorem test_witness_siteDeclaration :
    (∃ (s : State) (p : Fin 8) (site : Fin 16) (w : BitVec 32),
      let x := staged s.mirror site; let c := declCheck s.mirror site x; let ok := (s.mirror.clear (.SCH_SITESTAT site) 19).set (.SCH_SITESTAT site) 18 16 0;
      Admits s p (.SCH_SITECMD site) (setBit w 31 true) ∧ s.mirror.locked = false ∧ bit w 30 = false ∧ bit w 29 = false ∧ c ≠ 0) ∧
    (∃ (s : State) (p : Fin 8) (site : Fin 16) (w : BitVec 32),
      let x := staged s.mirror site; let c := declCheck s.mirror site x; let ok := (s.mirror.clear (.SCH_SITESTAT site) 19).set (.SCH_SITESTAT site) 18 16 0;
      Admits s p (.SCH_SITECMD site) (setBit w 31 true) ∧ s.mirror.locked = false ∧ bit w 30 = false ∧ bit w 29 = false ∧ c ≠ 0) ∧
    (∃ (s : State) (p : Fin 8) (site : Fin 16) (w : BitVec 32),
      let x := staged s.mirror site; let c := declCheck s.mirror site x; let ok := (s.mirror.clear (.SCH_SITESTAT site) 19).set (.SCH_SITESTAT site) 18 16 0;
      Admits s p (.SCH_SITECMD site) (setBit w 31 true) ∧ s.mirror.locked = false ∧ bit w 30 = false ∧ bit w 29 = false ∧ c = 0 ∧
      releases (s.dev.site site).decl x = false) ∧
    (∃ (s : State) (p : Fin 8) (site : Fin 16) (w : BitVec 32),
      let x := staged s.mirror site; let c := declCheck s.mirror site x; let ok := (s.mirror.clear (.SCH_SITESTAT site) 19).set (.SCH_SITESTAT site) 18 16 0;
      Admits s p (.SCH_SITECMD site) (setBit w 31 true) ∧ s.mirror.locked = false ∧ bit w 30 = false ∧ bit w 29 = false ∧ c = 0 ∧
      releases (s.dev.site site).decl x = true) ∧
    (∃ (d : Dev) (k : Nat) (x : Decl), (d.site k).resetting = true) ∧
    (∃ (d : Dev) (k : Nat) (x : Decl) (t : Nat) (c : Nat), (∀ y ∈ d.descs, y.2.site ≠ k) ∧ (d.site k).resetting = false ∧
      (d.site k).releasing = false ∧ t < 16 ∧ t ≠ k ∧ (d.site t).decl.en = true ∧ inSet (d.site t).decl.chans c = true ∧ inSet x.chans c = true) ∧
    (∃ (d : Dev) (k : Nat) (x : Decl) (j : Nat), (∀ y ∈ d.descs, y.2.site ≠ k) ∧ (d.site k).resetting = false ∧ (d.site k).releasing = false ∧
      claimed d k &&& x.chans = 0 ∧ x.paired = true ∧ j < 64 ∧ inSet x.chans (2 * j) = true ∧ inSet x.chans (2 * j + 1) = false) ∧
    (∃ (d : Dev) (k : Nat) (x : Decl), (∀ y ∈ d.descs, y.2.site ≠ k) ∧ (d.site k).resetting = false ∧ (d.site k).releasing = false ∧ x.en = true ∧
      x.chans = 0) ∧
    (∃ (s : State) (site : Fin 16) (x : Decl), (s.dev.site site).next = some x ∧ ((s.dev.site site).releasing = false ∨ s.dev.siteBolts site = [])) ∧
    (∃ (s : State) (site : Fin 16) (x : Decl), (s.dev.site site).next = some x ∧ ((s.dev.site site).releasing = false ∨ s.dev.siteBolts site = [])) :=
  ⟨⟨on (fun d => (d.raise (.SCH_SITECTL 0) 31)), 0, 0, 0, by dsimp only; unfold Admits; decide +kernel⟩,
    ⟨on (fun d => d.modSite 15 fun x => { x with resetting := true }), 0, 15, 0x1FFFFFFF, by dsimp only; unfold Admits; decide +kernel⟩,
    ⟨on (fun d => (d.raise (.SCH_SITECTL 0) 31).wr (.SCH_SITECH 0 3) 0x80000000), 0, 0, 0, by dsimp only; unfold Admits; decide +kernel⟩,
    ⟨on (fun d => ((sited d).raise (.ACQ_CAPCFG 0) 31).raise (.TDC_RCTL 0) 31), 0, 0, 0x80000000, by dsimp only; unfold Admits; decide +kernel⟩,
    ⟨ready.modSite 3 fun x => { x with resetting := true }, 3, dcl, by decide +kernel⟩,
    ⟨sited ready, 1, { dcl with chans := 3 }, 0, 0, by decide +kernel⟩,
    ⟨ready, 1, { en := false, paired := true, chans := 2 ^ 126 }, 63, by decide +kernel⟩,
    ⟨ready, 1, { en := true, chans := 0 }, by decide +kernel⟩,
    ⟨on (fun d => (reg0 ldb d).modSite 0 fun x => { x with decl := { dcl with owner := 3 }, releasing := true, next := some dcl }), 0, dcl,
      by decide +kernel⟩,
    ⟨on (fun d => (bolt0 d).modSite 0 fun x => { x with next := some dcl }), 0, dcl, by decide +kernel⟩⟩

theorem test_witness_siteResetAndWipe :
    (∃ (s : State) (p : Fin 8) (site : Fin 16) (w : BitVec 32), Admits s p (.SCH_SITECMD site) (setBit w 30 true) ∧ bit w 31 = false ∧
      bit w 29 = false ∧ (s.dev.site site).resetting = false) ∧
    (∃ (s : State) (site : Fin 16), (s.dev.site site).resetting = true ∧ (s.dev.site site).wiping = false ∧ s.dev.siteDispatched site = false ∧
      s.dev.dramActive = true ∧ siteDrainAt (closeSite s.mirror site) site ≤ s.clock.now ∧
      siteDrained (drainSite (closeSite s.mirror site) site) site = true) ∧
    (∃ (s : State) (site : Fin 16), (s.dev.site site).resetting = true ∧ (s.dev.site site).wiping = false ∧ s.dev.siteDispatched site = false ∧
      s.dev.dramActive = true ∧ siteDrainAt (closeSite s.mirror site) site ≤ s.clock.now ∧
      siteDrained (drainSite (closeSite s.mirror site) site) site = true) ∧
    (∃ (s : State) (site : Fin 16), mayWipe s.mirror site = false) ∧
    (∃ (s : State) (site : Fin 16), mayWipe s.mirror site = false) ∧
    (∃ (s : State) (site : Fin 16), (s.dev.site site).wiping = true) :=
  ⟨⟨on (fun d => reg0 ldb (D (D (sited d) 3 dsc) 4 { dsc with place := .pending })), 0, 0, 0, by unfold Admits; decide +kernel⟩,
    ⟨on (fun d => (d.raise (.DRC_SRCFG 15) 31).modSite 15 fun x => { x with resetting := true }), 15, by decide +kernel⟩,
    ⟨on (fun d => ((bolt0 d).modSite 0 fun x => { x with resetting := true })), 0, by decide +kernel⟩,
    ⟨on (fun d => d.modSite 15 fun x => { x with resetting := false }), 15, by decide +kernel⟩,
    ⟨dis 4 bst dsc (fun d => d.modSite 0 fun x => { x with resetting := true }), 0, by decide +kernel⟩,
    ⟨on (fun d => d.modSite 15 fun x => { x with resetting := true, wiping := true }), 15, by decide +kernel⟩⟩

theorem test_witness_siteCommandsAndRegistration1 :
    (∃ (s : State) (p : Fin 8) (site : Fin 16) (w : BitVec 32) (slot : Nat) (x : Desc) (e : Nat) (b : Burst) (a : Nat),
      Admits s p (.SCH_SITECMD site) (setBit w 29 true) ∧ bit w 31 = false ∧ bit w 30 = false ∧
      (s.dev.descs.filter (fun y => y.2.start = 2 && y.2.event = 0x20 && y.2.dispatched && y.2.site = site.val) = [(slot, x)]) ∧ x.start = 2 ∧
      x.got = none ∧ x.place = .engine e ∧ s.dev.burst e = some b ∧ b.armed = some a ∧ a ≤ s.clock.now ∧ b.startOpen s.mirror e = true) ∧
    (∃ (s : State) (p : Fin 8) (w : BitVec 32), Admits s p .SCH_PLOCK (setBit w 0 true) ∧ s.mirror.locked = false) ∧
    (∃ (s : State) (p : Fin 8) (w : BitVec 32), Admits s p .SCH_PLOCK (setBit w 0 true) ∧ s.mirror.locked = true) ∧
    (∃ (s : State) (p : Fin 8) (site : Fin 16) (w : Word), Admits s p (.SCH_HFLAG site) w) ∧
    (∃ (s : State) (p : Fin 8) (site : Fin 16) (w : Word), Admits s p (.SCH_HFLAG site) w) ∧
    (∃ (s : State) (p : Fin 8) (w : BitVec 32), Admits s p (.SCH_LDCTL p) (setBit w 31 true) ∧ (s.dev.schPort p).reg = none) ∧
    (∃ (s : State) (p : Fin 8) (w : BitVec 32), Admits s p (.SCH_LDCTL p) (setBit w 31 true) ∧ (s.dev.schPort p).reg = none) ∧
    (∃ (s : State) (p : Fin 8) (site : Nat) (bolt : Nat) (i : Nat), (s.dev.schPort p).reg = some (site, bolt, 0) ∧ s.mirror.hostReads = true ∧
      headerCheck s.mirror (readHeader s.mirror site (bolt * boltBytes)) = 0 ∧
      objectBolts s.mirror (readHeader s.mirror site (bolt * boltBytes)) = true ∧ freeIndex s.mirror = some i) ∧
    (∃ (s : State) (p : Fin 8) (x : Prod Nat (Nat × Nat)), (s.dev.schPort p).reg = some x ∧ s.mirror.hostReads = false) ∧
    (∃ (s : State) (p : Fin 8) (x : Prod Nat (Nat × Nat)), (s.dev.schPort p).reg = some x ∧ s.mirror.hostReads = false) ∧
    (∃ (s : State) (p : Fin 8) (site : Nat) (bolt : Nat) (c : Nat),
      let l := readHeader s.mirror site (bolt * boltBytes); let d := s.mirror.modSchPort p fun x => { x with reg := none };
      (s.dev.schPort p).reg = some (site, bolt, c) ∧ c ≠ 0) ∧
    (∃ (s : State) (p : Fin 8) (site : Nat) (bolt : Nat) (c : Nat),
      let l := readHeader s.mirror site (bolt * boltBytes); let d := s.mirror.modSchPort p fun x => { x with reg := none };
      (s.dev.schPort p).reg = some (site, bolt, c) ∧ c = 0 ∧ headerCheck s.mirror l ≠ 0) :=
  ⟨⟨dis 3 { bst with armed := some 0 } { dsc with start := 2, event := 0x20 }, 0, 0, 0, 0, { dsc with start := 2, event := 0x20 }, 0,
      { bst with armed := some 0 }, 0, by unfold Admits; decide +kernel⟩,
    ⟨on id, 0, 0, by unfold Admits; decide +kernel⟩,
    ⟨on (fun d => d.raise .SCH_PLOCK 0), 0, 0, by unfold Admits; decide +kernel⟩,
    ⟨on (fun d => (sited d).set (.SCH_HFLAG 0) 7 0 0xF0), 0, 0, 0x00FF0055, by unfold Admits; decide +kernel⟩,
    ⟨on (fun d => (sited d).set (.SCH_HFLAG 0) 7 0 0xF0), 0, 0, 0xFF0F00FF, by unfold Admits; decide +kernel⟩,
    ⟨on (fun d => (sited d).set (.SCH_LDBOLT 0) 14 0 7), 0, 0, by unfold Admits; decide +kernel⟩,
    ⟨on (fun d => (sited d).set (.SCH_LDBOLT 0) 14 0 7), 0, 0x000F0000, by unfold Admits; decide +kernel⟩,
    ⟨on (fun d => let d := bolt0 ((sited d).modSchPort 0 fun x => { x with reg := some (0, 0, 0) }); ({ d with dram := { d.dram with mem := hdrMem 0 } }).set .GLB_VERUCODE 31 16 1),
      0, 0, 0, 0, by decide +kernel⟩,
    ⟨on (fun d => (d.modSchPort 7 fun x => { x with reg := some (0, 0, 9) }).set .DRC_PWR 25 24 2), 7, (0, 0, 9), by decide +kernel⟩,
    ⟨on (fun d => (d.modSchPort 7 fun x => { x with reg := some (0, 0, 9) }).raise (.RAS_SEAMFENCE 1) 21), 7, (0, 0, 9), by decide +kernel⟩,
    ⟨on (fun d => d.modSchPort 7 fun x => { x with reg := some (0, 0, 9) }), 7, 0, 0, 9, by dsimp only; decide +kernel⟩,
    ⟨on (fun d => d.modSchPort 7 fun x => { x with reg := some (0, 24575, 0) }), 7, 0, 24575, 0, by dsimp only; decide +kernel⟩⟩

theorem test_witness_siteCommandsAndRegistration2 :
    (∃ (s : State) (p : Fin 8) (site : Nat) (bolt : Nat) (c : Nat),
      let l := readHeader s.mirror site (bolt * boltBytes); let d := s.mirror.modSchPort p fun x => { x with reg := none };
      (s.dev.schPort p).reg = some (site, bolt, c) ∧ c = 0 ∧ headerCheck s.mirror l = 0 ∧ objectBolts s.mirror l = false) ∧
    (∃ (s : State) (p : Fin 8) (w : BitVec 32) (i : Nat) (l : Loadable), Admits s p (.SCH_LDCTL p) (setBit (setBit w 31 false) 30 true) ∧
      (s.dev.schPort p).reg = none ∧ i = bits w 9 0 ∧ s.dev.sched.registry.get none i = some l ∧ s.dev.siteOwner l.site = p ∧
      (∀ y ∈ s.dev.descs, y.2.load ≠ i)) :=
  ⟨⟨on (fun d => let d := ((sited d).modSchPort 0 fun x => { x with reg := some (0, 0, 0) }); ({ d with dram := { d.dram with mem := hdrMem 0 } }).set .GLB_VERUCODE 31 16 1),
      0, 0, 0, 0, by dsimp only; decide +kernel⟩,
    ⟨on (fun d => reg0 ldb (sited d)), 0, 0, 0, ldb, by unfold Admits; decide +kernel⟩⟩

theorem test_witness_submissions :
    (∃ (s : State) (p : Fin 8) (w : Word), Admits s p (.SCH_SUBMIT p 7) w ∧ s.mirror.outRoom p < 8) ∧
    (∃ (s : State) (p : Fin 8) (w : Word) (d : Dev) (ws : List Word64) (slot : Nat), Admits s p (.SCH_SUBMIT p 7) w ∧ 8 ≤ s.mirror.outRoom p ∧
      (d = (s.mirror.store (.SCH_SUBMIT p 7) w).modSchPort p (fun x => { x with seq := ((s.dev.schPort p).seq + 1) % 65536 })) ∧
      ws = submitWords d p ∧ invalidReason d p ws = 0 ∧ blocked d p = false ∧ ((List.range 4096).find? (fun i => (s.dev.desc i).isNone) = some slot)) ∧
    (∃ (s : State) (p : Fin 8) (w : Word) (d : Dev) (ws : List Word64), Admits s p (.SCH_SUBMIT p 7) w ∧ 8 ≤ s.mirror.outRoom p ∧
      (d = (s.mirror.store (.SCH_SUBMIT p 7) w).modSchPort p (fun x => { x with seq := ((s.dev.schPort p).seq + 1) % 65536 })) ∧
      ws = submitWords d p ∧ invalidReason d p ws ≠ 0) ∧
    (∃ (s : State) (p : Fin 8) (w : Word) (d : Dev) (ws : List Word64), Admits s p (.SCH_SUBMIT p 7) w ∧ 8 ≤ s.mirror.outRoom p ∧
      (d = (s.mirror.store (.SCH_SUBMIT p 7) w).modSchPort p (fun x => { x with seq := ((s.dev.schPort p).seq + 1) % 65536 })) ∧
      ws = submitWords d p ∧ invalidReason d p ws = 0 ∧ blocked d p = true ∧ d.version p = 3) ∧
    (∃ (s : State) (p : Fin 8) (w : Word) (d : Dev) (ws : List Word64), Admits s p (.SCH_SUBMIT p 7) w ∧ 8 ≤ s.mirror.outRoom p ∧
      (d = (s.mirror.store (.SCH_SUBMIT p 7) w).modSchPort p (fun x => { x with seq := ((s.dev.schPort p).seq + 1) % 65536 })) ∧
      ws = submitWords d p ∧ invalidReason d p ws = 0 ∧ blocked d p = true ∧ d.version p ≠ 3) ∧
    (∃ (s : State) (p : Nat) (seq : Nat) (o : Nat) (ws : List Word64) (slot : Nat), nextHeld s.dev = some (p, seq, o, ws) ∧ 8 ≤ s.dev.outRoom p ∧
      (invalidReason (s.mirror.modSchPort p fun x => { x with held := none }) p ws = 0) ∧
      ((List.range 4096).find? (fun i => (s.dev.desc i).isNone) = some slot) ∧ (s.dev.port p).inbound = [] ∧ (s.dev.port p).waitWrite = none) :=
  ⟨⟨on (fun d => d.modPort 7 fun x => { x with area := List.replicate 131072 ⟨0, false⟩ }), 7, 5, by unfold Admits; decide +kernel⟩,
    ⟨on (fun d => reg0 ldb (sited d)), 0, 0,
      ((on (fun d => reg0 ldb (sited d))).mirror.store (.SCH_SUBMIT 0 7) 0).modSchPort 0 (fun x => { x with seq := 1 }), [0, 0, 0, 0], 0,
      by unfold Admits; decide +kernel⟩,
    ⟨on id, 0, 0, ((on id).mirror.store (.SCH_SUBMIT 0 7) 0).modSchPort 0 (fun x => { x with seq := 1 }), [0, 0, 0, 0],
      by unfold Admits; decide +kernel⟩,
    ⟨on (fun d => ((reg0 ldb (sited d)).set (.LNK_PSTAT 0) 28 27 3).modSchPort 1 fun x => { x with held := some (0, 0, [0, 0, 0, 0]) }), 0, 0,
      ((on (fun d => ((reg0 ldb (sited d)).set (.LNK_PSTAT 0) 28 27 3).modSchPort 1 fun x => { x with held := some (0, 0, [0, 0, 0, 0]) })).mirror.store (.SCH_SUBMIT 0 7) 0).modSchPort 0 (fun x => { x with seq := 1 }),
      [0, 0, 0, 0], by unfold Admits; decide +kernel⟩,
    ⟨on (fun d => ((reg0 ldb (sited d)).set (.LNK_PSTAT 0) 28 27 1).modSchPort 1 fun x => { x with held := some (0, 0, [0, 0, 0, 0]) }), 0, 0,
      ((on (fun d => ((reg0 ldb (sited d)).set (.LNK_PSTAT 0) 28 27 1).modSchPort 1 fun x => { x with held := some (0, 0, [0, 0, 0, 0]) })).mirror.store (.SCH_SUBMIT 0 7) 0).modSchPort 0 (fun x => { x with seq := 1 }),
      [0, 0, 0, 0], by unfold Admits; decide +kernel⟩,
    ⟨on (fun d => (reg0 ldb (sited d)).modSchPort 0 fun x => { x with held := some (7, 0, [0, 0, 0, 9]) }), 0, 7, 0, [0, 0, 0, 9], 0,
      by decide +kernel⟩⟩

theorem test_witness_schedulerQueues :
    (∃ (s : State), s.dev.sched.tickAt ≤ s.clock.now) ∧
    (∃ (s : State) (slot : Nat) (x : Desc), nextRelease s.dev = some (slot, x) ∧
      s.dev.dueOn 10 (max x.release s.dev.sched.nextLeave) ≤ s.clock.now ∧ s.dev.desc slot = some x) ∧
    (∃ (s : State) (site : Fin 16) (slot : Nat) (x : Desc), s.dev.siteIdle site = true ∧
      (firstDesc pendingBefore (s.dev.descs.filter fun y => y.2.place = .pending && y.2.site = site.val) = some (slot, x)) ∧ s.dev.desc slot = some x) ∧
    (∃ (l : List (Nat × Desc)) (slot : Nat) (x : Desc), firstDesc pendingBefore l = some (slot, x)) ∧
    (∃ (s : State) (skip : BitVec 16) (slot : Nat) (x : Desc) (e : Nat), s.dev.dispatchHeld = false ∧
      (∀ t, dispatchDue s.mirror = some t → t ≤ s.clock.now) ∧ chooseDesc s.mirror (considered s.mirror skip.toNat) = some (slot, x, e) ∧
      (s.dev.sched.heard.1 ≠ cycleOf s.clock.now ∨ x.start ≠ 2)) ∧
    (∃ (s : State) (skip : BitVec 16) (slot : Nat) (x : Desc) (e : Nat) (v : Prod Nat (Prod (Option Nat) Nat)), s.dev.dispatchHeld = false ∧
      (∀ t, dispatchDue s.mirror = some t → t ≤ s.clock.now) ∧ chooseDesc s.mirror (considered s.mirror skip.toNat) = some (slot, x, e) ∧
      s.dev.sched.heard.1 = cycleOf s.clock.now ∧ x.start = 2 ∧ x.miss = false ∧ x.got = none ∧ s.dev.desc slot = some x ∧ s.dev.burst e = none ∧
      ((s.dev.sched.heard.2.find? fun v => v.1 = x.event && v.2.1.all (· = x.site)) = some v)) :=
  ⟨⟨on (fun d => D d 4095 { dsc with place := .delay, release := 0 }) (1024000 * 2 ^ 45), by decide +kernel⟩,
    ⟨on (fun d => D d 4095 { dsc with place := .delay, release := 5, armed := true }) 5, 4095,
      { dsc with place := .delay, release := 5, armed := true }, by decide +kernel⟩,
    ⟨on (fun d => D (D d 4095 { dsc with place := .pending }) 7 { dsc with place := .pending, prio := 9 }) 5, 0, 7,
      { dsc with place := .pending, prio := 9 }, by decide +kernel⟩,
    ⟨[(4, dsc), (5, { dsc with prio := 15 })], 5, { dsc with prio := 15 }, by decide +kernel⟩,
    ⟨on (fun d => dispOn (D (sited d) 5 { dsc with place := .ready })) (4 * nano1), 0, 5, { dsc with place := .ready }, 0, by decide +kernel,
      le_all (by decide +kernel), by decide +kernel⟩,
    ⟨on (fun d => dispOn (D (sited (d.modSched fun x => { x with heard := (4, [(3, none, 77)]) })) 5 { dsc with place := .ready, start := 2, event := 3 })) (4 * nano1),
      0, 5, { dsc with place := .ready, start := 2, event := 3 }, 0, (3, none, 77), by decide +kernel, le_all (by decide +kernel), by decide +kernel⟩⟩

theorem test_witness_cancelAndCompletion :
    (∃ (s : State) (p : Fin 8) (w : Word) (slot : Nat) (x : Desc), Admits s p (.SCH_CANCEL p) w ∧
      (s.dev.descs.find? (fun y => y.2.handle = w.toNat && y.2.port = p.val) = some (slot, x)) ∧ (∀ e, x.place ≠ .engine e)) ∧
    (∃ (s : State) (p : Fin 8) (w : Word) (slot : Nat) (x : Desc) (e : Nat) (b : Burst), Admits s p (.SCH_CANCEL p) w ∧
      (s.dev.descs.find? (fun y => y.2.handle = w.toNat && y.2.port = p.val) = some (slot, x)) ∧ x.place = .engine e ∧ s.dev.burst e = some b ∧
      s.dev.desc slot = some x ∧ burstOver b = false ∧ b.fin ≠ some .skip ∧ b.stop = none) ∧
    (∃ (s : State) (p : Fin 8) (w : Word), Admits s p (.SCH_CANCEL p) w ∧ (∀ y ∈ s.dev.descs, ¬ (y.2.handle = w.toNat ∧ y.2.port = p))) ∧
    (∃ (s : State) (p : Fin 8) (w : Word), Admits s p (.SCH_CANCEL p) w ∧ (∀ y ∈ s.dev.descs, ¬ (y.2.handle = w.toNat ∧ y.2.port = p))) ∧
    (∃ (s : State) (slot : Fin 4096) (x : Desc), s.dev.desc slot = some x ∧ x.start = 1 ∧ x.miss = true ∧ (∀ e, x.place ≠ .engine e) ∧
      (cycleOf (x.startT - 40 * nano1 + 1) + 1) * nano1 ≤ s.clock.now) ∧
    (∃ (s : State) (slot : Fin 4096) (x : Desc), s.dev.desc slot = some x ∧ x.start = 1 ∧ x.miss = true ∧ (∀ e, x.place ≠ .engine e) ∧
      (cycleOf (x.startT - 40 * nano1 + 1) + 1) * nano1 ≤ s.clock.now) ∧
    (∃ (s : State) (slot : Fin 4096) (x : Desc) (e : Nat) (b : Burst), s.dev.desc slot = some x ∧ x.start = 1 ∧ x.miss = true ∧
      x.place = .engine e ∧ s.dev.burst e = some b ∧ b.slot = slot ∧ b.armed = none ∧ b.startOpen s.mirror e = true ∧ b.stop = none ∧
      x.cancelAt = none ∧ x.startT - 40 * nano1 + 1 ≤ s.clock.now) ∧
    (∃ (d : Dev) (slot : Nat) (x : Desc) (r : Ending) (t : Dev), t = postCompletion d slot x r) ∧
    (∃ (d : Dev) (slot : Nat) (x : Desc) (r : Ending) (t : Dev) (k : Nat), t = postCompletion d slot x r ∧ k ≠ slot) ∧
    (∃ (d : Dev) (slot : Nat) (x : Desc) (r : Ending) (t : Dev) (q : Nat), t = postCompletion d slot x r ∧ q ≠ x.port) :=
  ⟨⟨on (fun d => D (sited d) 4095 { dsc with handle := 77, place := .delay }), 0, 77, 4095, { dsc with handle := 77, place := .delay },
      by refine ⟨by unfold Admits; decide +kernel, by decide +kernel, fun e => nofun⟩⟩,
    ⟨dis 4 bst { dsc with handle := 77 }, 0, 77, 0, { dsc with handle := 77 }, 0, bst, by unfold Admits; decide +kernel⟩,
    ⟨on (fun d => D (sited d) 4095 { dsc with handle := 77, place := .delay }), 0, 78, by unfold Admits; decide +kernel⟩,
    ⟨on (fun d => D (sited d) 4095 { dsc with handle := 77, port := 1, place := .delay }), 0, 77, by unfold Admits; decide +kernel⟩,
    ⟨on (fun d => D (sited d) 4095 { dsc with start := 1, miss := true, place := .pending }) nano1, 4095,
      { dsc with start := 1, miss := true, place := .pending },
      by refine ⟨by decide +kernel, by decide +kernel, by decide +kernel, fun e => nofun, by decide +kernel⟩⟩,
    ⟨on (fun d => D (sited d) 0 { dsc with start := 1, startT := 50 * nano1, miss := true, place := .pending }) (11 * nano1), 0,
      { dsc with start := 1, startT := 50 * nano1, miss := true, place := .pending },
      by refine ⟨by decide +kernel, by decide +kernel, by decide +kernel, fun e => nofun, by decide +kernel⟩⟩,
    ⟨dis 2 bst { dsc with start := 1, miss := true } id 1, 0, { dsc with start := 1, miss := true }, 0, bst, by decide +kernel⟩,
    ⟨ready, 4, dsc, { status := 1 }, postCompletion ready 4 dsc { status := 1 }, by decide +kernel⟩,
    ⟨ready, 4, dsc, { status := 1 }, postCompletion ready 4 dsc { status := 1 }, 3, by decide +kernel⟩,
    ⟨ready, 4, dsc, { status := 1 }, postCompletion ready 4 dsc { status := 1 }, 1, by decide +kernel⟩⟩

theorem test_witness_timingSetsAndCuffLock :
    (∃ (s : State) (p : Fin 8) (site : Fin 16) (w : BitVec 32), Admits s p (.CUF_TSCOMMIT site) (setBit w 31 true) ∧
      s.mirror.flag (.CUF_TSSTAT site) 31 = false) ∧
    (∃ (s : State) (p : Fin 8) (site : Fin 16) (w : BitVec 32), Admits s p (.CUF_TSCOMMIT site) (setBit w 31 true) ∧
      s.mirror.flag (.CUF_TSSTAT site) 31 = true) ∧
    (∃ (s : State) (p : Fin 8) (site : Fin 16) (w : BitVec 32), Admits s p (.CUF_TSCOMMIT site) (setBit (setBit w 31 false) 30 true) ∧
      s.dev.siteDispatched site = false) ∧
    (∃ (s : State) (site : Fin 16) (x : Commit), snapshotOf s.dev site x ∧ x.applyAt = none ∧
      validate (s.dev.site site).decl.paired x.period x.chans = none ∧ (s.dev.siteDispatched site = false ∨ s.dev.tsValid site x.set = false)) ∧
    (∃ (s : State) (site : Fin 16) (x : Commit), snapshotOf s.dev site x ∧ x.applyAt = none ∧
      validate (s.dev.site site).decl.paired x.period x.chans = none ∧ (s.dev.siteDispatched site = false ∨ s.dev.tsValid site x.set = false)) ∧
    (∃ (s : State) (site : Fin 16) (e : Nat) (b : Burst) (y : Desc) (r : VecRun) (q : List VecRun) (x : Commit) (a : Nat),
      releaseDue s.mirror site = some (e, b) ∧ s.dev.desc b.slot = some y ∧ b.start.isSome = true ∧ b.stop = none ∧ b.wait = none ∧ b.entryBuf ≠ [] ∧
      b.padding = 0 ∧ b.queue = r :: q ∧ b.lastEnd.isSome = true ∧ r.acts = [] ∧ b.padMarks = [] ∧ r.kind = .numbered ∧ b.site = site.val ∧
      s.dev.dueOn (s.dev.firstCuff site) (b.nextT0 * halfPs) ≤ s.clock.now ∧ snapshotOf s.dev site x ∧ x.applyAt = some a) ∧
    (∃ (s : State) (site : Fin 16) (e : Nat) (b : Burst) (y : Desc) (r : VecRun) (q : List VecRun) (x : Commit) (a : Nat),
      releaseDue s.mirror site = some (e, b) ∧ s.dev.desc b.slot = some y ∧ b.start.isSome = true ∧ b.stop = none ∧ b.wait = none ∧ b.entryBuf ≠ [] ∧
      b.padding = 0 ∧ b.queue = r :: q ∧ b.lastEnd.isSome = true ∧ r.acts = [] ∧ b.padMarks = [] ∧ r.kind = .numbered ∧ b.site = site.val ∧
      s.dev.dueOn (s.dev.firstCuff site) (b.nextT0 * halfPs) ≤ s.clock.now ∧ snapshotOf s.dev site x ∧ x.applyAt = some a) ∧
    (∃ (s : State) (e : Fin 16) (b : Burst) (y : Desc) (x : Commit), s.dev.burstDesc e = some (b, y) ∧ burstDone s.mirror b = true ∧
      (∀ t, endDue s.dev e = some t → t ≤ s.clock.now) ∧ b.site < 16 ∧ snapshotOf s.dev b.site x ∧ x.applyAt.isSome = true) ∧
    (∃ (s : State) (site : Fin 16) (x : Commit), (s.dev.site site).commit = some x ∧ x.applyAt = none ∧
      validate (s.dev.site site).decl.paired x.period x.chans = none ∧ s.dev.tsValid site x.set = true ∧ s.dev.siteDispatched site = true) ∧
    (∃ (s : State) (k : Fin 8), s.dev.cuffSites k = 0) ∧
    (∃ (s : State) (k : Fin 8) (site : Fin 16) (e : Nat) (b : Burst), members 16 (s.dev.cuffSites k) = [site.val] ∧ s.dev.siteEngine site = some e ∧
      s.dev.burst e = some b ∧ b.fin = none ∧ b.stop = none ∧ b.stopped = false) :=
  ⟨⟨on (fun d => (sited d).wr (.CUF_TSCOMMIT 0) 5), 0, 0, 0x3F, by unfold Admits; decide +kernel⟩,
    ⟨on (fun d => (sited d).raise (.CUF_TSSTAT 0) 31), 0, 0, 5, by unfold Admits; decide +kernel⟩,
    ⟨on (fun d => ((sited d).raise (.CUF_TSVALID 0 1) 31).raise (.CUF_TSVALID 0 0) 31), 0, 0, 63, by unfold Admits; decide +kernel⟩,
    ⟨on (fun d => d.modSite 15 fun x => { x with commit := some { set := 63, period := 625, chans := [] } }), 15,
      { set := 63, period := 625, chans := [] }, by unfold snapshotOf; decide +kernel, by decide +kernel⟩,
    ⟨on (fun d => d.modSite 0 fun x => { x with commit := some { set := 63, period := 5000, chans := [(127, { fmt := 0, edges := [0, 0, 0, 0, 0, 0] })] } }),
      0, { set := 63, period := 5000, chans := [(127, { fmt := 0, edges := [0, 0, 0, 0, 0, 0] })] }, by unfold snapshotOf; decide +kernel,
      by decide +kernel⟩,
    ⟨dis 4 { bst with start := some 0, entryBuf := [1], queue := [run0], lastEnd := some 0, nextT0 := 10 } dsc (fun d => d.modSite 0 fun x => { x with commit := some { set := 0, period := 5000, chans := [], applyAt := some (10 * halfPs) } }) (10 * halfPs),
      0, 0, { bst with start := some 0, entryBuf := [1], queue := [run0], lastEnd := some 0, nextT0 := 10 }, dsc, run0, [],
      { set := 0, period := 5000, chans := [], applyAt := some (10 * halfPs) }, 10 * halfPs,
      and3 (by decide +kernel) (and3 (by decide +kernel) (and3 (by decide +kernel) (and3 (by decide +kernel) ⟨by decide +kernel, by decide +kernel, by unfold snapshotOf; decide +kernel, by decide +kernel⟩)))⟩,
    ⟨dis 4 { bst with start := some 0, entryBuf := [1], queue := [run0], lastEnd := some 0, nextT0 := 10 } dsc (fun d => d.modSite 0 fun x => { x with commit := some { set := 0, period := 5000, chans := [], applyAt := some (10 * halfPs + 1) } }) (10 * halfPs),
      0, 0, { bst with start := some 0, entryBuf := [1], queue := [run0], lastEnd := some 0, nextT0 := 10 }, dsc, run0, [],
      { set := 0, period := 5000, chans := [], applyAt := some (10 * halfPs + 1) }, 10 * halfPs + 1,
      and3 (by decide +kernel) (and3 (by decide +kernel) (and3 (by decide +kernel) (and3 (by decide +kernel) ⟨by decide +kernel, by decide +kernel, by unfold snapshotOf; decide +kernel, by decide +kernel⟩)))⟩,
    ⟨dis 4 { bst with fin := some (.halt 0) } dsc (fun d => d.modSite 0 fun x => { x with commit := some { set := 63, period := 625, chans := [(127, { fmt := 0, edges := [] })], applyAt := some 0 } }),
      0, { bst with fin := some (.halt 0) }, dsc, { set := 63, period := 625, chans := [(127, { fmt := 0, edges := [] })], applyAt := some 0 },
      and3 (by decide +kernel) ⟨by decide +kernel, by unfold snapshotOf; decide +kernel, by decide +kernel⟩⟩,
    ⟨on (fun d => (D d 0 dsc).raise (.CUF_TSVALID 0 0) 0 |>.modSite 0 fun x => { x with commit := some { set := 0, period := 625, chans := [] } }),
      0, { set := 0, period := 625, chans := [] }, by decide +kernel⟩,
    ⟨on id, 7, by decide +kernel⟩,
    ⟨dis 4 bst dsc, 0, 0, 0, bst, by decide +kernel⟩⟩

theorem test_witness_rejectedTimingSet :
    (∃ (s : State) (site : Fin 16) (x : Commit) (f : SetFault), (s.dev.site site).commit = some x ∧ x.applyAt = none ∧
      s.dev.get (.CUF_TSSTAT site) 27 22 = x.set ∧ validate (s.dev.site site).decl.paired x.period x.chans = some f ∧ f.code < 16 ∧ f.chan < 256 ∧
      f.edge < 16) ∧
    (∃ (s : State) (site : Fin 16) (x : Commit) (f : SetFault), (s.dev.site site).commit = some x ∧ x.applyAt = none ∧
      s.dev.get (.CUF_TSSTAT site) 27 22 = x.set ∧ validate (s.dev.site site).decl.paired x.period x.chans = some f ∧ f.code < 16 ∧ f.chan < 256 ∧
      f.edge < 16) :=
  ⟨⟨on (fun d => (d.set (.CUF_TSSTAT 0) 27 22 63).raise (.CUF_TSSTAT 0) 31 |>.modSite 0 fun x => { x with commit := some { set := 63, period := 624, chans := [] } }),
      0, { set := 63, period := 624, chans := [] }, { code := 1, chan := 0xFF, edge := 0xF }, by decide +kernel⟩,
    ⟨on (fun d => (d.set (.CUF_TSSTAT 0) 27 22 63).raise (.CUF_TSSTAT 0) 31 |>.modSite 0 fun x => { x with commit := some { set := 63, period := 5000, chans := [(127, { fmt := 6 })] } }),
      0, { set := 63, period := 5000, chans := [(127, { fmt := 6 })] }, { code := 2, chan := 127, edge := 0xF }, by decide +kernel⟩⟩

theorem test_witness_islandsAndSeams :
    (∃ (s : State) (l : List (Prod (BitVec 16) (BitVec 16))), l.length = 41 ∧ (∀ t, s.dev.polls.get none 0 = some t → t + 100 * micro1 ≤ s.clock.now)) ∧
    (∃ (s : State) (i : Fin 41) (diff : Int), (diff = 0 ∨ hasMirror i = false)) ∧
    (∃ (s : State) (i : Fin 41) (diff : Int), (diff = 0 ∨ hasMirror i = false)) ∧
    (∃ (s : State) (i : Fin 41) (diff : Int), diff ≠ 0 ∧ i.val < 8 ∧ s.dev.cuffSites i = 0) ∧
    (∃ (s : State) (i : Fin 41) (diff : Int), diff ≠ 0 ∧ (i.val = 8 ∨ i.val = 10) ∧ s.dev.ras.resetDue = false ∧ s.mirror.flag .RAS_CTL 31 = false) ∧
    (∃ (s : State) (i : Fin 41) (diff : Int), diff ≠ 0 ∧ (i.val = 8 ∨ i.val = 10) ∧ s.dev.ras.resetDue = false ∧ s.mirror.flag .RAS_CTL 31 = false) ∧
    (∃ (s : State) (n : Fin 98), s.dev.seamFenced n = false ∧ seamCuff n = none ∧ seamLane n = none ∧ seamFatal n = false ∧
      s.dev.ras.resetDue = false) ∧
    (∃ (s : State) (n : Fin 98), s.dev.seamFenced n = false ∧ seamCuff n = none ∧ seamLane n = none ∧ seamFatal n = false ∧
      s.dev.ras.resetDue = false) ∧
    (∃ (s : State) (n : Fin 98), s.dev.seamFenced n = true) :=
  ⟨⟨on id, (List.replicate 40 (900, 100)) ++ [(-1, 30000)], by decide +kernel, none_all (by decide +kernel)⟩,
    ⟨on id, 8, 0, by decide +kernel⟩,
    ⟨on id, 9, 7, by decide +kernel⟩,
    ⟨on id, 7, -3, by decide +kernel⟩,
    ⟨on (fun d => d.clear .RAS_CTL 31), 8, 1, by decide +kernel⟩,
    ⟨on (fun d => d.clear .RAS_CTL 31), 10, 2, by decide +kernel⟩,
    ⟨on id, 97, by decide +kernel⟩,
    ⟨on id, 82, by decide +kernel⟩,
    ⟨on (fun d => d.raise (.RAS_SEAMFENCE 3) 1), 97, by decide +kernel⟩⟩

theorem test_witness_boltAllocation :
    (∃ (s : State) (p : Fin 8) (w : BitVec 32) (first : Nat) (count : Nat), Admits s p .DRC_BCMD (setBit w 31 true) ∧ s.dev.allocBusy = false ∧
      first = s.dev.get .DRC_BRANGE 14 0 ∧ count = s.dev.get .DRC_BRANGE 30 16 + 1 ∧ s.dev.siteOpen (bits w 3 0) = true ∧
      firstBad s.mirror true first count = none) ∧
    (∃ (s : State) (p : Fin 8) (w : BitVec 32) (first : Nat) (count : Nat), Admits s p .DRC_BCMD (setBit w 31 true) ∧ s.dev.allocBusy = false ∧
      first = s.dev.get .DRC_BRANGE 14 0 ∧ count = s.dev.get .DRC_BRANGE 30 16 + 1 ∧ s.dev.siteOpen (bits w 3 0) = true ∧
      firstBad s.mirror true first count = none) ∧
    (∃ (s : State) (p : Fin 8) (w : BitVec 32) (first : Nat) (count : Nat) (b : Nat) (c : Nat), Admits s p .DRC_BCMD (setBit w 31 true) ∧
      s.dev.allocBusy = false ∧ first = s.dev.get .DRC_BRANGE 14 0 ∧ count = s.dev.get .DRC_BRANGE 30 16 + 1 ∧ s.dev.siteOpen (bits w 3 0) = true ∧
      firstBad s.mirror true first count = some (b, c)) ∧
    (∃ (s : State) (p : Fin 8) (w : BitVec 32) (first : Nat) (count : Nat) (b : Nat) (c : Nat), Admits s p .DRC_BCMD (setBit w 31 true) ∧
      s.dev.allocBusy = false ∧ first = s.dev.get .DRC_BRANGE 14 0 ∧ count = s.dev.get .DRC_BRANGE 30 16 + 1 ∧ s.dev.siteOpen (bits w 3 0) = true ∧
      firstBad s.mirror true first count = some (b, c)) ∧
    (∃ (s : State) (p : Fin 8) (w : BitVec 32) (first : Nat) (count : Nat), Admits s p .DRC_BCMD (setBit w 31 true) ∧ s.dev.allocBusy = false ∧
      first = s.dev.get .DRC_BRANGE 14 0 ∧ count = s.dev.get .DRC_BRANGE 30 16 + 1 ∧ s.dev.siteOpen (bits w 3 0) = false) ∧
    (∃ (s : State) (p : Fin 8) (w : BitVec 32) (first : Nat) (count : Nat) (b : Nat) (c : Nat),
      Admits s p .DRC_BCMD (setBit (setBit w 31 false) 30 true) ∧ s.dev.allocBusy = false ∧ first = s.dev.get .DRC_BRANGE 14 0 ∧
      count = s.dev.get .DRC_BRANGE 30 16 + 1 ∧ firstBad s.mirror false first count = some (b, c)) ∧
    (∃ (s : State) (p : Fin 8) (w : BitVec 32) (first : Nat) (count : Nat) (b : Nat) (c : Nat),
      Admits s p .DRC_BCMD (setBit (setBit w 31 false) 30 true) ∧ s.dev.allocBusy = false ∧ first = s.dev.get .DRC_BRANGE 14 0 ∧
      count = s.dev.get .DRC_BRANGE 30 16 + 1 ∧ firstBad s.mirror false first count = some (b, c)) ∧
    (∃ (s : State) (p : Fin 8) (w : BitVec 32) (first : Nat) (count : Nat), Admits s p .DRC_BCMD (setBit (setBit w 31 false) 30 true) ∧
      s.dev.allocBusy = false ∧ first = s.dev.get .DRC_BRANGE 14 0 ∧ count = s.dev.get .DRC_BRANGE 30 16 + 1 ∧
      firstBad s.mirror false first count = none) ∧
    (∃ (s : State) (b : Nat) (n : Nat) (cmd : Bool) (ws : List (Prod Nat (Nat × Bool))) (x : Nat), s.dev.dram.wipes = (b, n, cmd) :: ws ∧
      s.dev.dramActive = true ∧ releasingSite s.mirror = some x ∧ siteDrainAt (closeSite s.mirror x) x ≤ s.clock.now ∧
      siteDrained (drainSite (closeSite s.mirror x) x) x = true) ∧
    (∃ (s : State) (b : Nat) (n : Nat) (cmd : Bool) (ws : List (Prod Nat (Nat × Bool))), s.dev.dram.wipes = (b, n, cmd) :: ws ∧
      s.dev.dramActive = true ∧ releasingSite s.mirror = none) ∧
    (∃ (s : State) (b : Nat) (n : Nat) (cmd : Bool) (ws : List (Prod Nat (Nat × Bool))), s.dev.dram.wipes = (b, n, cmd) :: ws ∧
      s.dev.dramActive = true ∧ releasingSite s.mirror = none) :=
  ⟨⟨on (fun d => (sited d).set .DRC_BRANGE 14 0 512), 0, 0, 512, 1, by unfold Admits; decide +kernel⟩,
    ⟨on (fun d => ((sited d).set .DRC_BRANGE 14 0 24574).set .DRC_BRANGE 30 16 1), 0, 0, 24574, 2, by unfold Admits; decide +kernel⟩,
    ⟨on (fun d => (sited d).set .DRC_BRANGE 14 0 24576), 0, 0, 24576, 1, 24576, 1, by unfold Admits; decide +kernel⟩,
    ⟨on (fun d => (sited d).set .DRC_BRANGE 14 0 511), 0, 0, 511, 1, 511, 1, by unfold Admits; decide +kernel⟩,
    ⟨on id, 0, 15, 0, 1, by unfold Admits; decide +kernel⟩,
    ⟨on (fun d => d.set .DRC_BRANGE 14 0 24576), 0, 0, 24576, 1, 24576, 1, by unfold Admits; decide +kernel⟩,
    ⟨on (fun d => d.set .DRC_BRANGE 14 0 600), 0, 0, 600, 1, 600, (boltCheck (on (fun d => d.set .DRC_BRANGE 14 0 600)).mirror false 600),
      by unfold Admits; decide +kernel⟩,
    ⟨on (fun d => ((sited d).modDram fun m => { m with bolts := m.bolts.put {} 512 { alloc := true } }).set .DRC_BRANGE 14 0 512), 0, 0, 512, 1,
      by unfold Admits; decide +kernel⟩,
    ⟨on (fun d => ((bolt0 d).modSite 0 fun x => { x with releasing := true }).modDram fun m => { m with wipes := [(0, 1, false)] }), 0, 1, false,
      [], 0, by decide +kernel⟩,
    ⟨on (fun d => d.modDram fun m => { m with wipes := [(24575, 2, true)] }), 24575, 2, true, [], by decide +kernel⟩,
    ⟨on (fun d => d.modDram fun m => { m with wipes := [(0, 1, true), (5, 1, false)] }), 0, 1, true, [(5, 1, false)], by decide +kernel⟩⟩

theorem test_witness_drainsAndReads1 :
    (∃ (s : State) (c : Fin 32) (l : WqLine) (ls : List WqLine), (s.mirror.wqIssued c).lines = l :: ls ∧
      (s.dev.wqHigh ≤ (l :: ls).length ∨ l.time + micro1 ≤ s.clock.now) ∧ (s.dev.wq c).draining = false) ∧
    (∃ (s : State) (c : Fin 32) (l : WqLine) (ls : List WqLine), (s.mirror.wqIssued c).lines = l :: ls ∧
      (s.dev.wqHigh ≤ (l :: ls).length ∨ l.time + micro1 ≤ s.clock.now) ∧ (s.dev.wq c).draining = false) ∧
    (∃ (s : State) (c : Fin 32), (s.dev.wq c).draining = true ∧ (∀ r, s.dev.dram.inRefresh = some r → r.1 ≠ c.val % 4)) ∧
    (∃ (s : State) (c : Fin 32) (r : Nat × Nat), (s.dev.wq c).draining = true ∧ s.dev.dram.inRefresh = some r ∧ r.1 = c.val % 4) ∧
    (∃ (s : State) (line : Fin 805306368) (o : Fin 3), s.mirror.lineHeld (64 * line) = true) ∧
    (∃ (s : State) (line : Fin 805306368) (o : Fin 3), s.mirror.lineHeld (64 * line) = true) ∧
    (∃ (s : State) (line : Fin 805306368) (o : Fin 3), s.mirror.lineHeld (64 * line) = false) ∧
    (∃ (s : State) (line : Fin 805306368) (o : Fin 3), s.mirror.lineHeld (64 * line) = false) ∧
    (∃ (s : State) (line : Fin 805306368) (o : Fin 3), s.mirror.lineHeld (64 * line) = false) ∧
    (∃ (s : State) (line : Fin 805306368) (o : Fin 3), s.mirror.lineHeld (64 * line) = false) ∧
    (∃ (s : State) (o : Fin 3), s.mirror.flag .DRC_SCRUB 31 = false) ∧
    (∃ (s : State) (o : Fin 3), s.dev.dram.scrubAt ≤ s.clock.now ∧ s.mirror.lineWaits (64 * scrubLine s.mirror) = true) :=
  ⟨⟨on (fun d => d.modDram fun m => { m with inRefresh := some (3, 2 * micro1), wqs := m.wqs.put {} 31 { lines := [⟨0, 0⟩] } }) micro1, 31, ⟨0, 0⟩,
      [], by decide +kernel⟩,
    ⟨on (fun d => (d.set .DRC_WQ 13 8 1).modDram fun m => { m with wqs := m.wqs.put {} 31 { lines := [⟨0, 0⟩] } }), 31, ⟨0, 0⟩, [], by decide +kernel⟩,
    ⟨on (fun d => (d.set .DRC_WQ 5 0 1).modDram fun m => { m with wqs := m.wqs.put {} 31 { lines := [⟨0, 0⟩, ⟨1, 0⟩, ⟨2, 1⟩], draining := true } }),
      31, by decide +kernel, none_all (by decide +kernel)⟩,
    ⟨on (fun d => d.modDram fun m => { m with inRefresh := some (3, 50), wqs := m.wqs.put {} 31 { lines := [⟨0, 0⟩], draining := true } }), 31,
      (3, 50), by decide +kernel⟩,
    ⟨on (fun d => d.set .DRC_PWR 25 24 2), 805306367, 1, by decide +kernel⟩,
    ⟨on (fun d => d.modDram fun m => { m with inRefresh := some (0, 50) }), 0, 1, by decide +kernel⟩,
    ⟨on id, 805306367, 1, by decide +kernel⟩,
    ⟨on (fun d => d.modDram fun m => { m with poison := [805306367] }), 805306367, 0, by decide +kernel⟩,
    ⟨on id, 5, 2, by decide +kernel⟩,
    ⟨on id, 5, 0, by decide +kernel⟩,
    ⟨on (fun d => d.clear .DRC_SCRUB 31), 2, by decide +kernel⟩,
    ⟨on (fun d => (d.raise .DRC_SCRUB 31).set .DRC_PWR 25 24 2), 1, by decide +kernel⟩⟩

theorem test_witness_drainsAndReads2 :
    (∃ (s : State) (o : Fin 3), s.dev.dram.scrubAt ≤ s.clock.now ∧ s.mirror.lineWaits (64 * scrubLine s.mirror) = true) ∧
    (∃ (s : State) (o : Fin 3), s.mirror.flag .DRC_SCRUB 31 = true ∧ s.mirror.lineWaits (64 * s.dev.dram.scrubNext) = false ∧
      s.dev.dram.scrubAt ≤ s.clock.now ∧ scrubbed s.dev (s.dev.dram.scrubNext / 32768) = true) ∧
    (∃ (s : State) (o : Fin 3), s.mirror.flag .DRC_SCRUB 31 = true ∧ s.mirror.lineWaits (64 * s.dev.dram.scrubNext) = false ∧
      s.dev.dram.scrubAt ≤ s.clock.now ∧ scrubbed s.dev (s.dev.dram.scrubNext / 32768) = true) :=
  ⟨⟨on (fun d => (d.raise .DRC_SCRUB 31).modDram fun m => { m with wqs := m.wqs.put {} 0 { lines := [⟨0, 0⟩], draining := true } }), 0,
      by decide +kernel⟩,
    ⟨on (fun d => (d.raise .DRC_SCRUB 31).modDram fun m => { m with scrubNext := 511 * 32768 + 32767 }), 2, by decide +kernel⟩,
    ⟨on (fun d => (bolt0 d).raise .DRC_SCRUB 31), 1, by decide +kernel⟩⟩

theorem test_witness_refreshAndSelfRefresh1 :
    (∃ (s : State) (g : Fin 4) (heavy : Bool), (s.dev.refGroup g).due ≤ s.clock.now ∧ s.dev.dramActive = true) ∧
    (∃ (s : State) (g : Fin 4) (heavy : Bool), (s.dev.refGroup g).due ≤ s.clock.now ∧ s.dev.dramActive = true) ∧
    (∃ (s : State) (g : Fin 4) (heavy : Bool) (d : Dev), (d = s.mirror.modDram (fun m => { m with loadHigh := heavy })) ∧ mayAnnounce d g = true) ∧
    (∃ (s : State) (g : Fin 4) (a : Nat), (s.dev.refGroup g).announced = some a ∧ a ≤ s.clock.now ∧ s.dev.dram.inRefresh = none ∧
      s.dev.dramActive = true ∧ (∀ t, (s.dev.refGroup g).lastEnd = some t → t + 500 * nano1 ≤ s.clock.now) ∧ (s.dev.refGroup g).forced = false ∧
      s.dev.debt g ≠ 0) ∧
    (∃ (s : State) (g : Nat) (a : Nat), s.dev.dram.inRefresh = some (g, a) ∧ a ≤ s.clock.now) ∧
    (∃ (s : State) (x : BitVec 16), (∀ t, s.dev.polls.get none 1 = some t → t + milli1 ≤ s.clock.now)) ∧
    (∃ (s : State) (x : BitVec 16), (∀ t, s.dev.polls.get none 1 = some t → t + milli1 ≤ s.clock.now)) ∧
    (∃ (s : State) (x : BitVec 16), (∀ t, s.dev.polls.get none 1 = some t → t + milli1 ≤ s.clock.now)) ∧
    (∃ (s : State) (x : BitVec 16), (∀ t, s.dev.polls.get none 1 = some t → t + milli1 ≤ s.clock.now)) ∧
    (∃ (s : State) (p : Fin 8) (w : BitVec 32), Admits s p .DRC_PWR (setBit w 31 true) ∧ s.dev.dramState = 0 ∧ s.dev.dramBusy = false) ∧
    (∃ (s : State) (p : Fin 8) (w : BitVec 32), Admits s p .DRC_PWR (setBit w 31 true) ∧ s.dev.dramState = 0 ∧ s.dev.dramBusy = true) ∧
    (∃ (s : State), s.dev.dramState = 1 ∧ s.dev.dram.held.take s.dev.dram.heldAtEnter = [] ∧ s.dev.pwrState ≠ 1) :=
  ⟨⟨on (fun d => d.set .DRC_REF 15 12 7) 5, 3, false, by decide +kernel⟩,
    ⟨on (fun d => d.set .DRC_REF 15 12 8) 5, 3, true, by decide +kernel⟩,
    ⟨on (fun d => d.set .DRC_REF 3 0 8), 0, false, (on (fun d => d.set .DRC_REF 3 0 8)).mirror.modDram fun m => { m with loadHigh := false },
      by decide +kernel⟩,
    ⟨on (fun d => (d.set .DRC_REF 15 12 1).putRef 3 { announced := some 0 }), 3, 0, by decide +kernel⟩,
    ⟨on (fun d => d.modDram fun m => { m with inRefresh := some (3, 7) }) 7, 3, 7, by decide +kernel⟩,
    ⟨on id, 10880, none_all (by decide +kernel)⟩,
    ⟨on (fun d => { (d.modDram fun m => { m with doubledSel := true }) with polls := d.polls.put none 1 (some 5) }) (milli1 + 5), 10496,
      by intro t h; obtain rfl : 5 = t := Option.some.inj h; decide +kernel⟩,
    ⟨on (fun d => d.modDram fun m => { m with doubledSel := true }), 10497, none_all (by decide +kernel)⟩,
    ⟨on id, 0x8000, none_all (by decide +kernel)⟩,
    ⟨on id, 0, 3, by unfold Admits; decide +kernel⟩,
    ⟨on (fun d => d.raise (.DRC_SRCFG 15) 31), 0, 3, by unfold Admits; decide +kernel⟩,
    ⟨on (fun d => (d.set .DRC_PWR 25 24 1).modDram fun m => { m with wqs := m.wqs.put {} 31 { lines := [⟨0, 0⟩] } }), by decide +kernel⟩⟩

theorem test_witness_refreshAndSelfRefresh2 :
    (∃ (s : State) (p : Fin 8) (w : BitVec 32), Admits s p .DRC_PWR (setBit (setBit w 31 false) 30 true) ∧ s.dev.dramState = 2) ∧
    (∃ (s : State) (p : Fin 8) (w : BitVec 32), Admits s p .DRC_PWR (setBit (setBit w 31 false) 30 true) ∧ s.dev.dramState = 1) ∧
    (∃ (s : State), (s.dev.dramState = 3 ∨ s.dev.dramState = 2 ∧ s.dev.dram.exitKept = true) ∧ s.dev.dram.held = [] ∧ s.dev.pwrState ≠ 1) ∧
    (∃ (s : State), (s.dev.dramState = 3 ∨ s.dev.dramState = 2 ∧ s.dev.dram.exitKept = true) ∧ s.dev.dram.held = [] ∧ s.dev.pwrState ≠ 1) :=
  ⟨⟨on (fun d => d.set .DRC_PWR 25 24 2), 0, 0, by unfold Admits; decide +kernel⟩,
    ⟨on (fun d => d.set .DRC_PWR 25 24 1), 0, 0, by unfold Admits; decide +kernel⟩,
    ⟨on (fun d => ((bolt0 d).set .DRC_PWR 25 24 3).modDram fun m => { m with retain := 3, bolts := (m.bolts.put {} 3072 { alloc := true, site := 5 }).put {} 3071 { alloc := true, site := 5 } }),
      by decide +kernel⟩,
    ⟨on (fun d => (d.set .DRC_PWR 25 24 2).modDram fun m => { m with exitKept := true }), by decide +kernel⟩⟩

theorem test_witness_streamRings :
    (∃ (s : State) (p : Fin 8) (site : Fin 16) (w : BitVec 32), Admits s p (.DRC_SRCFG site) (setBit w 31 true) ∧
      s.dev.siteDispatched site = false ∧ bit w 30 = false ∧ bit w 29 = false ∧
      s.dev.boltsOf site (s.dev.get (.DRC_SRBASE site) 14 0) (bits w 11 0 + 1) = true) ∧
    (∃ (s : State) (p : Fin 8) (site : Fin 16) (w : BitVec 32), Admits s p (.DRC_SRCFG site) (setBit w 31 true) ∧
      s.dev.siteDispatched site = false ∧ bit w 30 = false ∧ bit w 29 = false ∧
      s.dev.boltsOf site (s.dev.get (.DRC_SRBASE site) 14 0) (bits w 11 0 + 1) = false) ∧
    (∃ (s : State) (p : Fin 8) (site : Fin 16) (w : BitVec 32), Admits s p (.DRC_SRCFG site) (setBit w 30 true) ∧ s.dev.siteDispatched site = true) ∧
    (∃ (s : State) (p : Fin 8) (site : Fin 16) (w : BitVec 32), Admits s p (.DRC_SRCFG site) (setBit w 30 true) ∧ s.dev.siteDispatched site = false) ∧
    (∃ (s : State) (p : Fin 8) (site : Fin 16) (w : BitVec 32), Admits s p (.DRC_SRCFG site) (setBit w 30 true) ∧ s.dev.siteDispatched site = false) ∧
    (∃ (s : State) (p : Fin 8) (site : Fin 16) (w : BitVec 32), Admits s p (.DRC_SRCFG site) (setBit w 29 true) ∧ bit w 30 = false ∧
      bits w 11 0 = s.dev.get (.DRC_SRCFG site) 11 0 ∧ bit w 31 = s.dev.ringOn site ∧
      (s.dev.ringOn site = true → s.dev.boltsOf site (s.dev.get (.DRC_SRBASE site) 14 0) (bits w 11 0 + 1) = true)) ∧
    (∃ (s : State) (p : Fin 8) (site : Fin 16) (w : BitVec 32), Admits s p (.DRC_SRCFG site) (setBit w 29 true) ∧ bit w 30 = false ∧
      bits w 11 0 = s.dev.get (.DRC_SRCFG site) 11 0 ∧ bit w 31 = s.dev.ringOn site ∧
      (s.dev.ringOn site = true → s.dev.boltsOf site (s.dev.get (.DRC_SRBASE site) 14 0) (bits w 11 0 + 1) = true)) ∧
    (∃ (s : State) (p : Fin 8) (site : Fin 16) (w : Word) (m : Nat), Admits s p (.DRC_SRMARKHI site) w ∧
      m = (w.toNat * 2 ^ 32 + (s.dev.rd (.DRC_SRMARKLO site)).toNat) / 64 * 64 ∧ (s.dev.ring site).w < m) ∧
    (∃ (s : State) (p : Fin 8) (site : Fin 16) (w : Word) (m : Nat), Admits s p (.DRC_SRMARKHI site) w ∧
      m = (w.toNat * 2 ^ 32 + (s.dev.rd (.DRC_SRMARKLO site)).toNat) / 64 * 64 ∧ (s.dev.ring site).w < m) ∧
    (∃ (s : State) (p : Fin 8) (site : Fin 16) (w : Word) (m : Nat), Admits s p (.DRC_SRMARKHI site) w ∧
      m = (w.toNat * 2 ^ 32 + (s.dev.rd (.DRC_SRMARKLO site)).toNat) / 64 * 64 ∧ m ≤ (s.dev.ring site).w ∧ s.dev.ringVersion site ≠ 1 ∧
      m + s.dev.ringSize site < s.dev.ringGrant site) ∧
    (∃ (s : State) (p : Fin 8) (site : Fin 16) (w : Word) (m : Nat), Admits s p (.DRC_SRMARKHI site) w ∧
      m = (w.toNat * 2 ^ 32 + (s.dev.rd (.DRC_SRMARKLO site)).toNat) / 64 * 64 ∧ m ≤ (s.dev.ring site).w ∧ s.dev.ringVersion site ≠ 1 ∧
      s.dev.ringGrant site ≤ m + s.dev.ringSize site) :=
  ⟨⟨on (fun d => bolt0 (sited d)), 0, 0, 0, by unfold Admits; decide +kernel⟩,
    ⟨on sited, 0, 0, 0xFFF, by unfold Admits; decide +kernel⟩,
    ⟨dis 4 bst dsc, 0, 0, 0, by unfold Admits; decide +kernel⟩,
    ⟨on (fun d => (sited d).modRing 0 fun x => { x with w := 64, f := 64, g := 128 }), 0, 0, 0x20000FFF, by unfold Admits; decide +kernel⟩,
    ⟨on (fun d => (sited d).modRing 0 fun x => { x with w := 64, f := 64, g := 128 }), 0, 0, 0, by unfold Admits; decide +kernel⟩,
    ⟨on (fun d => ((sited d).raise (.DRC_SRSTAT 0) 31).modRing 0 fun x => { x with w := 64, f := 64, g := 128 }), 0, 0, 0,
      by unfold Admits; decide +kernel⟩,
    ⟨on (fun d => (((bolt0 (sited d)).raise (.DRC_SRSTAT 0) 31).raise (.DRC_SRCFG 0) 31).modRing 0 fun x => { x with w := 64, f := 64, g := 128 }),
      0, 0, 0x80000000, by unfold Admits; decide +kernel⟩,
    ⟨on sited, 0, 0, 1, 4294967296, by unfold Admits; decide +kernel⟩,
    ⟨on (fun d => ((sited d).wr (.DRC_SRMARKLO 0) 127).modRing 0 fun x => { x with w := 63 }), 0, 0, 0, 64, by unfold Admits; decide +kernel⟩,
    ⟨on (fun d => ((sited d).set (.LNK_PSTAT 0) 28 27 2).modRing 0 fun x => { x with w := 64, g := 64 + 0x200000 }), 0, 0, 0, 0,
      by unfold Admits; decide +kernel⟩,
    ⟨on (fun d => ((sited d).set (.LNK_PSTAT 0) 28 27 2).modRing 0 fun x => { x with w := 64, g := 0x200000 }), 0, 0, 0, 0,
      by unfold Admits; decide +kernel⟩⟩

theorem test_witness_memoryWrites :
    (∃ (d : Dev) (cls : Nat) (a : Nat) (bs : List Byte), (d.dram.bolt (boltOf a)).lost = true) ∧
    (∃ (d : Dev) (cls : Nat) (a : Nat) (bs : List Byte), (d.dram.bolt (boltOf a)).lost = false ∧ bs.length < 64 ∧
      d.dram.poison.contains (a / 64) = true) ∧
    (∃ (d : Dev) (cls : Nat) (a : Nat) (bs : List Byte), (d.dram.bolt (boltOf a)).lost = false ∧
      (64 ≤ bs.length ∨ d.dram.poison.contains (a / 64) = false)) ∧
    (∃ (d : Dev) (cls : Nat) (a : Nat) (bs : List Byte) (i : Nat), (d.dram.bolt (boltOf a)).lost = false ∧
      (64 ≤ bs.length ∨ d.dram.poison.contains (a / 64) = false) ∧ i < bs.length) ∧
    (∃ (d : Dev) (cls : Nat) (a : Nat) (bs : List Byte) (x : Nat), (d.dram.bolt (boltOf a)).lost = false ∧
      (64 ≤ bs.length ∨ d.dram.poison.contains (a / 64) = false) ∧ (x < a ∨ a + bs.length ≤ x)) ∧
    (∃ (d : Dev) (cls : Nat) (a : Nat) (bs : List Byte) (x : Nat), (d.dram.bolt (boltOf a)).lost = false ∧
      (64 ≤ bs.length ∨ d.dram.poison.contains (a / 64) = false) ∧ (x < a ∨ a + bs.length ≤ x)) ∧
    (∃ (d : Dev) (cls : Nat) (a : Nat) (bs : List Byte), Memory.wf d.dram.mem = true) :=
  ⟨⟨ready.modDram fun m => { m with bolts := m.bolts.put {} 0 { lost := true } }, 0, 0, List.replicate 64 0, by decide +kernel⟩,
    ⟨ready.modDram fun m => { m with poison := [0] }, 0, 0, List.replicate 63 0, by decide +kernel⟩,
    ⟨ready.modDram fun m => { m with poison := [0] }, 0, 0, List.replicate 64 7, by decide +kernel⟩,
    ⟨ready, 2, 63, [5], 0, by decide +kernel⟩,
    ⟨ready, 2, 63, [5], 64, by decide +kernel⟩,
    ⟨ready.modDram fun m => { m with mem := [(62, 9)] }, 2, 63, [5], 62, by decide +kernel⟩,
    ⟨ready, 1, 60, [1, 2, 3, 4, 0, 5], by decide +kernel⟩⟩

theorem test_witness_captureAndAcquisition1 :
    (∃ (s : State) (p : Fin 8) (site : Fin 16) (w : BitVec 32), Admits s p (.ACQ_CAPCFG site) (setBit w 31 true) ∧
      s.dev.boltsOf site (s.dev.get (.ACQ_CAPBASE site) 14 0) (s.dev.get (.ACQ_CAPBASE site) 30 16 + 1) = true) ∧
    (∃ (s : State) (p : Fin 8) (site : Fin 16) (w : BitVec 32), Admits s p (.ACQ_CAPCFG site) (setBit w 31 true) ∧
      s.dev.boltsOf site (s.dev.get (.ACQ_CAPBASE site) 14 0) (s.dev.get (.ACQ_CAPBASE site) 30 16 + 1) = false) ∧
    (∃ (s : State) (p : Fin 8) (n : Fin 16) (w : Word), Admits s p (.ACQ_GRANT n) w ∧ s.dev.grants - s.dev.get (.ACQ_GRANT n) 9 0 + bits w 9 0 ≤ 1000) ∧
    (∃ (s : State) (p : Fin 8) (n : Fin 16) (w : Word), Admits s p (.ACQ_GRANT n) w ∧ 1000 < s.dev.grants - s.dev.get (.ACQ_GRANT n) 9 0 + bits w 9 0) ∧
    (∃ (s : State) (p : Fin 8) (n : Fin 16) (w : Word), Admits s p (.ACQ_CAPGRANT n) w ∧
      s.dev.grants - s.dev.get (.ACQ_CAPGRANT n) 9 0 + bits w 9 0 ≤ 1000) ∧
    (∃ (s : State) (p : Fin 8) (u : Fin 16) (w : BitVec 32), Admits s p (.ACQ_CTL u) (setBit w 31 true) ∧ bit w 29 = false ∧
      s.dev.acqArmed u = false ∧ armCheck s.mirror u (s.mirror.acqCfg u) = 0) ∧
    (∃ (s : State) (p : Fin 8) (u : Fin 16) (w : BitVec 32), Admits s p (.ACQ_CTL u) (setBit w 31 true) ∧ bit w 29 = false ∧
      s.dev.acqArmed u = false ∧ armCheck s.mirror u (s.mirror.acqCfg u) ≠ 0) ∧
    (∃ (s : State) (p : Fin 8) (u : Fin 16) (w : BitVec 32), Admits s p (.ACQ_CTL u) (setBit (setBit w 31 false) 30 true) ∧ bit w 29 = false ∧
      s.dev.acqArmed u = true) ∧
    (∃ (s : State) (p : Fin 8) (u : Fin 16) (w : BitVec 32), Admits s p (.ACQ_CTL u) (setBit (setBit w 31 false) 30 true) ∧ bit w 29 = false ∧
      s.dev.acqArmed u = true) ∧
    (∃ (s : State) (p : Fin 8) (u : Fin 16) (w : BitVec 32), Admits s p (.ACQ_CTL u) (setBit (setBit w 31 false) 30 true) ∧ bit w 29 = false ∧
      s.dev.acqArmed u = false) ∧
    (∃ (s : State) (p : Fin 8) (u : Fin 16) (w : BitVec 32), Admits s p (.ACQ_CTL u) (setBit w 29 true) ∧ bit w 31 = false ∧ bit w 30 = false) ∧
    (∃ (s : State) (u : Fin 16), s.mirror.engineReads = false) :=
  ⟨⟨on (fun d => (bolt0 (sited d))), 0, 0, 0x40000000, by unfold Admits; decide +kernel⟩,
    ⟨on sited, 0, 0, 0, by unfold Admits; decide +kernel⟩,
    ⟨on (fun d => (sited d).set (.ACQ_GRANT 15) 9 0 500), 0, 15, 1000, by unfold Admits; decide +kernel⟩,
    ⟨on (fun d => (sited d).set (.ACQ_CAPGRANT 15) 9 0 1), 0, 0, 1000, by unfold Admits; decide +kernel⟩,
    ⟨on (fun d => (sited d).set (.ACQ_CAPGRANT 0) 9 0 5), 0, 0, 1000, by unfold Admits; decide +kernel⟩,
    ⟨on (fun d => (((bolt0 (sited d)).raise (.ACQ_SPER 0) 31).raise (.ACQ_ATTACH 0) 31).set (.ACQ_PRE 0) 16 0 114688 |>.set (.ACQ_GRANT 0) 9 0 1),
      0, 0, 0x0FF00000, by unfold Admits; decide +kernel⟩,
    ⟨on (fun d => (((bolt0 (sited d)).raise (.ACQ_SPER 0) 31).raise (.ACQ_ATTACH 0) 31).set (.ACQ_PRE 0) 16 0 114689 |>.set (.ACQ_GRANT 0) 9 0 1),
      0, 0, 0, by unfold Admits; decide +kernel⟩,
    ⟨on (acqOn 15 1), 0, 15, 0, by unfold Admits; decide +kernel⟩,
    ⟨on (acqOn 15 3), 0, 15, 0, by unfold Admits; decide +kernel⟩,
    ⟨on (acqOn 15 4), 0, 15, 0, by unfold Admits; decide +kernel⟩,
    ⟨on (acqOn 15 2), 0, 15, 0, by unfold Admits; decide +kernel⟩,
    ⟨on (fun d => (acqOn 15 2 (fun c => { c with envtab := 0x10000 }) d).set .DRC_PWR 25 24 2), 15, by decide +kernel⟩⟩

theorem test_witness_captureAndAcquisition2 :
    (∃ (s : State) (u : Fin 16) (a : Acq), s.mirror.engineReads = true ∧ a = s.dev.acq u ∧ a.loading = true) ∧
    (∃ (s : State) (u : Fin 16) (d : Dev) (c : Dev), s.dev.acqState u = 4 ∧ d = paced s.mirror u ∧ d.drainEndAt u ≤ s.clock.now ∧
      (0 < s.dev.get (.ACQ_GRANT u) 9 0 ∨ (s.dev.acq u).buf = []) ∧
      c = (if s.dev.siteEngine u = none then drainCapSince d u (d.site u).cap.drainT (d.site u).cap.buf.length else d) ∧
      (writeBuf c (s.dev.acqSite u) (s.dev.acq u).buf).1 = (s.dev.acq u).buf.length) ∧
    (∃ (s : State) (n : Fin 8) (x : BitVec 16), (s.mirror.flag (.ACQ_SPER n) 31 = false ∨ (captureSlot s.mirror n).1 = false)) ∧
    (∃ (s : State) (n : Fin 8) (x : BitVec 16), (s.mirror.flag (.ACQ_SPER n) 31 = false ∨ (captureSlot s.mirror n).1 = false)) ∧
    (∃ (s : State) (n : Fin 8) (x : BitVec 16) (u : Fin 16) (a : Acq), s.mirror.flag (.ACQ_SPER n) 31 = true ∧ (captureSlot s.mirror n).1 = true ∧
      a = s.dev.acq u ∧ a.cfg.stream = true ∧ a.cfg.strm = n ∧
      (∀ v, v < 16 → v ≠ u.val → ¬ ((s.dev.acq v).cfg.stream = true ∧ (s.dev.acq v).cfg.strm = n)) ∧ a.loading = false ∧ a.full = false ∧
      a.pos < regionBytes a.cfg.rbase ∧ bit a.cfg.dec 30 = false ∧ bit a.cfg.dec 31 = false ∧ a.trigIdx = none ∧ s.dev.acqState u = 1 ∧
      a.preCount + 1 < a.cfg.pre) ∧
    (∃ (s : State) (n : Fin 8) (x : BitVec 16) (u : Fin 16) (a : Acq), s.mirror.flag (.ACQ_SPER n) 31 = true ∧ (captureSlot s.mirror n).1 = true ∧
      a = s.dev.acq u ∧ a.cfg.stream = true ∧ a.cfg.strm = n ∧
      (∀ v, v < 16 → v ≠ u.val → ¬ ((s.dev.acq v).cfg.stream = true ∧ (s.dev.acq v).cfg.strm = n)) ∧ a.loading = false ∧ a.full = false ∧
      a.pos < regionBytes a.cfg.rbase ∧ bit a.cfg.dec 30 = false ∧ bit a.cfg.dec 31 = false ∧ a.trigIdx = none ∧ s.dev.acqState u = 2 ∧
      bits a.cfg.trig 31 28 = 0 ∧ bit a.cfg.trig 25 = false ∧ a.pre = [] ∧ a.cfg.post ≠ 0 ∧ bit a.cfg.maskctl 31 = false ∧
      s.dev.siteEngine (s.dev.acqSite u) = none) :=
  ⟨⟨on (fun d => (acqOn 15 2 (fun c => { c with envtab := 0x10000 }) d).modAcq 15 fun a => { a with loading := true }), 15,
      (on (fun d => (acqOn 15 2 (fun c => { c with envtab := 0x10000 }) d).modAcq 15 fun a => { a with loading := true })).dev.acq 15,
      by decide +kernel⟩,
    ⟨on (acqOn 15 4), 15, paced (on (acqOn 15 4)).mirror 15, drainCapSince (paced (on (acqOn 15 4)).mirror 15) 15 0 0, by decide +kernel⟩,
    ⟨on id, 7, 5, by decide +kernel⟩,
    ⟨on (fun d => (lane 23 1 d).raise (.ACQ_SPER 7) 31), 7, 5, by decide +kernel⟩,
    ⟨on (fun d => acqOn 15 1 (fun c => { c with pre := 2, rbase := 0 }) (lane 23 6 d)), 7, 0x8000, 15,
      (on (fun d => acqOn 15 1 (fun c => { c with pre := 2, rbase := 0 }) (lane 23 6 d))).dev.acq 15, by decide +kernel⟩,
    ⟨on (fun d => acqOn 15 2 (fun c => { c with post := 1 }) (lane 23 6 d)), 7, 0x8000, 15,
      (on (fun d => acqOn 15 2 (fun c => { c with post := 1 }) (lane 23 6 d))).dev.acq 15, by decide +kernel⟩⟩

theorem test_witness_ledgerAndSeals1 :
    (∃ (d : Dev) (kind : Nat) (uclass : Nat) (site : Nat) (unit : Nat) (time : Nat) (aux : Nat) (w2 : Nat) (w3 : Nat), d.seamFenced 33 = true ∧
      engineKind kind = true ∧ d.ledger.gap = 0) ∧
    (∃ (d : Dev) (kind : Nat) (uclass : Nat) (site : Nat) (unit : Nat) (time : Nat) (aux : Nat) (w2 : Nat) (w3 : Nat),
      (d.seamFenced 33 && engineKind kind) = false ∧ d.ledger.room = false) ∧
    (∃ (d : Dev) (kind : Nat) (uclass : Nat) (site : Nat) (unit : Nat) (time : Nat) (aux : Nat) (w2 : Nat) (w3 : Nat),
      (d.seamFenced 33 && engineKind kind) = false ∧ d.ledger.room = true ∧ d.ledger.gap = 0 ∧ d.dram.held = [] ∧
      (d.dramActive = false ∨ d.seamFenced 52 = true ∨ (d.wqIssued (pseudoChannel (32 * (d.ledger.wpos % 2 ^ 25)))).fits clsRealTime 1 = false)) ∧
    (∃ (d : Dev) (kind : Nat) (uclass : Nat) (site : Nat) (unit : Nat) (time : Nat) (aux : Nat) (w2 : Nat) (w3 : Nat),
      (d.seamFenced 33 && engineKind kind) = false ∧ d.ledger.room = true ∧ d.ledger.gap = 0 ∧ d.dram.held = [] ∧ d.dramActive = true ∧
      d.seamFenced 52 = false ∧ (d.wqIssued (pseudoChannel (32 * (d.ledger.wpos % 2 ^ 25)))).fits clsRealTime 1 = true ∧ d.dram.poison = [] ∧
      (d.dram.bolt (32 * (d.ledger.wpos % 2 ^ 25) / 0x200000)).lost = false) ∧
    (∃ (d : Dev) (kind : Nat) (uclass : Nat) (site : Nat) (unit : Nat) (time : Nat) (aux : Nat) (w2 : Nat) (w3 : Nat),
      (d.seamFenced 33 && engineKind kind) = false ∧ d.ledger.room = true ∧ d.ledger.gap = 0 ∧ d.dram.held = [] ∧ d.dramActive = true ∧
      d.seamFenced 52 = false ∧ (d.wqIssued (pseudoChannel (32 * (d.ledger.wpos % 2 ^ 25)))).fits clsRealTime 1 = true ∧ d.dram.poison = [] ∧
      (d.dram.bolt (32 * (d.ledger.wpos % 2 ^ 25) / 0x200000)).lost = false) ∧
    (∃ (d : Dev) (kind : Nat) (uclass : Nat) (site : Nat) (unit : Nat) (time : Nat) (aux : Nat) (w2 : Nat) (w3 : Nat) (a : Nat),
      (d.seamFenced 33 && engineKind kind) = false ∧ d.ledger.room = true ∧ d.ledger.gap = 0 ∧ d.dram.held = [] ∧ d.dramActive = true ∧
      d.seamFenced 52 = false ∧ (d.wqIssued (pseudoChannel (32 * (d.ledger.wpos % 2 ^ 25)))).fits clsRealTime 1 = true ∧ d.dram.poison = [] ∧
      (d.dram.bolt (32 * (d.ledger.wpos % 2 ^ 25) / 0x200000)).lost = false ∧
      (a < 32 * (d.ledger.wpos % 2 ^ 25) ∨ 32 * (d.ledger.wpos % 2 ^ 25) + 32 ≤ a)) ∧
    (∃ (d : Dev) (kind : Nat) (uclass : Nat) (site : Nat) (unit : Nat) (time : Nat) (aux : Nat) (w2 : Nat) (w3 : Nat),
      (d.seamFenced 33 && engineKind kind) = false ∧ 0 < d.ledger.gap ∧ d.ledger.unacked + 2 ≤ 2 ^ 25) ∧
    (∃ (s : State) (p : Fin 8) (w : Word) (n : Nat), Admits s p .GLB_LGACKHI w ∧ n = w.toNat * 2 ^ 32 + (s.dev.rd .GLB_LGACKLO).toNat ∧
      s.dev.ledger.ack ≤ n ∧ n ≤ s.dev.ledger.wpos) ∧
    (∃ (s : State) (p : Fin 8) (w : Word) (n : Nat), Admits s p .GLB_LGACKHI w ∧ n = w.toNat * 2 ^ 32 + (s.dev.rd .GLB_LGACKLO).toNat ∧
      (n < s.dev.ledger.ack ∨ s.dev.ledger.wpos < n)) ∧
    (∃ (s : State) (p : Fin 8) (w : BitVec 32), Admits s p .GLB_LGCTL (setBit w 31 true) ∧ s.dev.ledger.sealing.isSome = true) ∧
    (∃ (s : State) (p : Fin 8) (w : BitVec 32), Admits s p .GLB_LGCTL (setBit w 31 true) ∧ s.dev.ledger.sealing = none ∧ s.dev.ledger.gap = 0 ∧
      s.dev.ledger.unacked + 3 ≤ 2 ^ 25) ∧
    (∃ (s : State), s.mirror.hostReads = false) :=
  ⟨⟨ready.raise (.RAS_SEAMFENCE 1) 1, 1, 2, 3, 4, 5, 6, 7, 8, by decide +kernel⟩,
    ⟨ready.modLedger fun l => { l with wpos := 2 ^ 25 }, 1, 2, 3, 4, 5, 6, 7, 8, by decide +kernel⟩,
    ⟨ready.set .DRC_PWR 25 24 2, 1, 2, 3, 4, 5, 6, 7, 8, by decide +kernel⟩,
    ⟨ready, 1, 2, 3, 4, 5, 6, 7, 8, by decide +kernel⟩,
    ⟨ready.modLedger fun l => { l with wpos := 2 ^ 25 - 1 }, 1, 2, 3, 4, 5, 6, 7, 8, by decide +kernel⟩,
    ⟨ready.modLedger fun l => { l with wpos := 2 ^ 25 - 1 }, 1, 2, 3, 4, 5, 6, 7, 8, 0, by decide +kernel⟩,
    ⟨ready.modLedger fun l => { l with gap := 1, wpos := 2 ^ 25 - 2 }, 1, 2, 3, 4, 5, 6, 7, 8, by decide +kernel⟩,
    ⟨on (fun d => (d.modLedger fun l => { l with wpos := 2 ^ 32 + 5 }).wr .GLB_LGACKLO 5), 0, 1, 2 ^ 32 + 5, by unfold Admits; decide +kernel⟩,
    ⟨on (fun d => (d.modLedger fun l => { l with wpos := 2 ^ 32 + 5 }).wr .GLB_LGACKLO 6), 0, 1, 2 ^ 32 + 6, by unfold Admits; decide +kernel⟩,
    ⟨on (fun d => d.modLedger fun l => { l with sealing := some { first := 0, stop := 0, sealPos := 0 } }), 0, 0, by unfold Admits; decide +kernel⟩,
    ⟨on (fun d => d.modLedger fun l => { l with wpos := 2 ^ 25 - 3 }), 0, 0, by unfold Admits; decide +kernel⟩,
    ⟨on (fun d => d.set .DRC_PWR 25 24 2), by decide +kernel⟩⟩

theorem test_witness_ledgerAndSeals2 :
    (∃ (s : State), s.mirror.hostReads = false) ∧
    (∃ (s : State) (x : Seal) (rest : List SignReq), s.dev.ledger.sealing = some x ∧ s.dev.trust.signing = .span :: rest ∧
      s.mirror.hostReads = true ∧ s.dev.trust.otp.key = none) ∧
    (∃ (s : State) (x : Seal) (rest : List SignReq), s.dev.ledger.sealing = some x ∧ s.dev.trust.signing = .span :: rest ∧
      s.mirror.hostReads = true ∧ s.dev.trust.otp.key.isSome = true ∧ spanPoisoned s.dev x = true) ∧
    (∃ (s : State) (x : Seal) (rest : List SignReq) (k : Nat), s.dev.ledger.sealing = some x ∧ s.dev.trust.signing = .span :: rest ∧
      s.mirror.hostReads = true ∧ s.dev.trust.otp.key = some k ∧ spanPoisoned s.dev x = false ∧ s.dev.ledger.gap = 0 ∧
      s.dev.ledger.unacked + 4 ≤ 2 ^ 25) :=
  ⟨⟨on (fun d => d.raise (.RAS_SEAMFENCE 1) 21), by decide +kernel⟩,
    ⟨on (fun d => (d.modLedger fun l => { l with sealing := some { first := 0, stop := 0, sealPos := 0 } }).modTrust fun t => { t with signing := [.span] }),
      { first := 0, stop := 0, sealPos := 0 }, [], by decide +kernel⟩,
    ⟨on (fun d => (((d.modLedger fun l => { l with wpos := 1, sealing := some { first := 0, stop := 1, sealPos := 0 } }).modTrust fun t => { t with signing := [.span], otp := { t.otp with key := some 5 } })).modDram fun m => { m with poison := [ledgerAddr 0 / 64 * 64] }),
      { first := 0, stop := 1, sealPos := 0 }, [], by decide +kernel⟩,
    ⟨on (fun d => (d.modLedger fun l => { l with sealing := some { first := 0, stop := 0, sealPos := 0 } }).modTrust fun t => { t with signing := [.span], otp := { t.otp with key := some 5 } }),
      { first := 0, stop := 0, sealPos := 0 }, [], 5, by decide +kernel⟩⟩

theorem test_witness_waveformSources1 :
    (∃ (s : State) (p : Fin 8) (n : Fin 8) (w : BitVec 32), Admits s p (.SRC_SPER n) (setBit w 31 true) ∧ s.dev.srcOn n = false ∧
      s.dev.srcState n = 0 ∧ s.dev.laneUp (16 + n) = true ∧ minPeriod (s.dev.get (.LAN_CTL (16 + n)) 27 26) ≤ bits w 30 0) ∧
    (∃ (s : State) (p : Fin 8) (n : Fin 8) (w : BitVec 32), Admits s p (.SRC_SPER n) (setBit w 31 true) ∧ s.dev.srcOn n = false ∧
      (s.dev.laneUp (16 + n) = false ∨ bits w 30 0 < minPeriod (s.dev.get (.LAN_CTL (16 + n)) 27 26))) ∧
    (∃ (s : State) (p : Fin 8) (n : Fin 8) (w : BitVec 32), Admits s p (.SRC_SPER n) (setBit w 31 true) ∧ s.dev.srcOn n = false ∧
      (s.dev.laneUp (16 + n) = false ∨ bits w 30 0 < minPeriod (s.dev.get (.LAN_CTL (16 + n)) 27 26))) ∧
    (∃ (s : State) (p : Fin 8) (n : Fin 8) (w : BitVec 32), Admits s p (.SRC_SPER n) (setBit w 31 false) ∧ s.dev.srcOn n = true) ∧
    (∃ (s : State) (p : Fin 8) (n : Fin 8) (w : BitVec 32), Admits s p (.SRC_CTL n) (setBit w 28 true)) ∧
    (∃ (i : Instr) (a : SrcAct) (k : Nat) (s : State) (p : Fin 8) (n : Fin 8) (w : Word),
      (i, a, k) ∈ [(Instr.srcStart p n w, SrcAct.start, 31), (.srcRedirect p n w, .redirect, 30), (.srcStop p n w, .stop, 29)] ∧
      Admits s p (.SRC_CTL n) (setBit w k true) ∧ bit w 28 = false ∧ (∀ j, j ∈ [29, 30, 31] → j ≠ k → bit w j = false) ∧
      (a = .start → bit w 27 = false) ∧ s.dev.srcOn n = true) ∧
    (∃ (i : Instr) (a : SrcAct) (k : Nat) (s : State) (p : Fin 8) (n : Fin 8) (w : Word),
      (i, a, k) ∈ [(Instr.srcStart p n w, SrcAct.start, 31), (.srcRedirect p n w, .redirect, 30), (.srcStop p n w, .stop, 29)] ∧
      Admits s p (.SRC_CTL n) (setBit w k true) ∧ bit w 28 = false ∧ (∀ j, j ∈ [29, 30, 31] → j ≠ k → bit w j = false) ∧
      (a = .start → bit w 27 = false) ∧ s.dev.srcOn n = true) ∧
    (∃ (i : Instr) (a : SrcAct) (k : Nat) (s : State) (p : Fin 8) (n : Fin 8) (w : Word),
      (i, a, k) ∈ [(Instr.srcStart p n w, SrcAct.start, 31), (.srcRedirect p n w, .redirect, 30), (.srcStop p n w, .stop, 29)] ∧
      Admits s p (.SRC_CTL n) (setBit w k true) ∧ bit w 28 = false ∧ (∀ j, j ∈ [29, 30, 31] → j ≠ k → bit w j = false) ∧
      (a = .start → bit w 27 = false) ∧ s.dev.srcOn n = false) ∧
    (∃ (i : Instr) (k : Nat) (j : Nat) (s : State) (p : Fin 8) (n : Fin 8) (w : Word),
      (i, k) ∈ [(Instr.srcStart p n w, 31), (.srcRedirect p n w, 30), (.srcStop p n w, 29)] ∧ Admits s p (.SRC_CTL n) (setBit w k true) ∧
      bit w 28 = false ∧ j ∈ [29, 30, 31] ∧ j ≠ k ∧ bit w j = true) ∧
    (∃ (i : Instr) (k : Nat) (j : Nat) (s : State) (p : Fin 8) (n : Fin 8) (w : Word),
      (i, k) ∈ [(Instr.srcStart p n w, 31), (.srcRedirect p n w, 30), (.srcStop p n w, 29)] ∧ Admits s p (.SRC_CTL n) (setBit w k true) ∧
      bit w 28 = false ∧ j ∈ [29, 30, 31] ∧ j ≠ k ∧ bit w j = true) ∧
    (∃ (s : State) (p : Fin 8) (n : Fin 8) (w : BitVec 32) (d : Dev), Admits s p (.SRC_CTL n) (setBit w 31 true) ∧
      (∀ j, j ∈ [28, 29, 30] → bit w j = false) ∧ bit w 27 = true ∧ d = s.mirror.store (.SRC_CTL n) (setBit w 31 true) ∧ s.dev.srcOn n = false ∧
      s.clock.now + 160 * nano1 ≤ (s.dev.src n).tstart) ∧
    (∃ (s : State) (p : Fin 8) (n : Fin 8) (w : BitVec 32) (d : Dev), Admits s p (.SRC_CTL n) (setBit w 31 true) ∧
      (∀ j, j ∈ [28, 29, 30] → bit w j = false) ∧ bit w 27 = true ∧ d = s.mirror.store (.SRC_CTL n) (setBit w 31 true) ∧ s.dev.srcOn n = true ∧
      s.clock.now + 160 * nano1 ≤ (s.dev.src n).tstart) :=
  ⟨⟨on (fun d => (d.set (.LAN_STAT 23) 31 28 6)) 1, 0, 7, 3301, by unfold Admits; decide +kernel⟩,
    ⟨on id, 0, 7, 3301, by unfold Admits; decide +kernel⟩,
    ⟨on (fun d => (d.set (.LAN_STAT 23) 31 28 6).set (.LAN_CTL 23) 27 26 3), 0, 7, 1249, by unfold Admits; decide +kernel⟩,
    ⟨on (srcUp fun x => { x with play := some ply }), 0, 7, 0, by unfold Admits; decide +kernel⟩,
    ⟨on (srcUp fun x => { x with play := some ply }), 0, 7, 0, by unfold Admits; decide +kernel⟩,
    ⟨.srcStart 0 7 5, .start, 31, on srcUp, 0, 7, 5, by unfold Admits; decide +kernel⟩,
    ⟨.srcStop 0 7 5, .stop, 29, on srcUp, 0, 7, 5, by unfold Admits; decide +kernel⟩,
    ⟨.srcRedirect 0 7 5, .redirect, 30, on id, 0, 7, 5, by unfold Admits; decide +kernel⟩,
    ⟨.srcStart 0 7 0x60000000, 31, 30, on srcUp, 0, 7, 0x60000000, by unfold Admits; decide +kernel⟩,
    ⟨.srcStop 0 7 0x40000000, 29, 30, on srcUp, 0, 7, 0x40000000, by unfold Admits; decide +kernel⟩,
    ⟨on (fun d => (srcUp (fun x => { x with tstart := 160 * nano1 }) d).clear (.SRC_SPER 7) 31), 0, 7, 0x08000000,
      (on (fun d => (srcUp (fun x => { x with tstart := 160 * nano1 }) d).clear (.SRC_SPER 7) 31)).mirror.store (.SRC_CTL 7) (setBit 0x08000000 31 true),
      by unfold Admits; decide +kernel⟩,
    ⟨on (srcUp fun x => { x with tstart := 160 * nano1 }), 0, 7, 0x08000000,
      (on (srcUp fun x => { x with tstart := 160 * nano1 })).mirror.store (.SRC_CTL 7) (setBit 0x08000000 31 true), by unfold Admits; decide +kernel⟩⟩

theorem test_witness_waveformSources2 :
    (∃ (s : State) (p : Fin 8) (n : Fin 8) (w : BitVec 32) (d : Dev), Admits s p (.SRC_CTL n) (setBit w 31 true) ∧
      (∀ j, j ∈ [28, 29, 30] → bit w j = false) ∧ bit w 27 = true ∧ d = s.mirror.store (.SRC_CTL n) (setBit w 31 true) ∧ s.dev.srcOn n = true ∧
      (s.dev.src n).tstart < s.clock.now + 160 * nano1) ∧
    (∃ (s : State) (n : Fin 8) (beyond : Bool), s.dev.srcOn n = true ∧ slotTime s.dev n (s.dev.src n).slot * halfPs ≤ s.clock.now ∧
      s.dev.laneUp (16 + n) = true ∧ (s.dev.src n).play = none ∧ (s.dev.src n).reqs = [] ∧ (s.dev.src n).starting = none) ∧
    (∃ (s : State) (n : Fin 8) (p : Play) (v : Nat), s.dev.srcOn n = true ∧ slotTime s.dev n (s.dev.src n).slot * halfPs ≤ s.clock.now ∧
      s.dev.laneUp (16 + n) = true ∧ (s.dev.src n).play = some p ∧ p.pos < p.seg.len * 2 ^ 32 ∧ (s.dev.src n).reqs = [] ∧
      (s.dev.src n).starting = none ∧ (s.dev.src n).pend = none ∧ (s.dev.flag (.SRC_CFG n) 31 = false ∨ p.pos / 2 ^ 32 + 1 < p.seg.len) ∧
      (∀ q ∈ neededSamples s.mirror n p, (heldSample s.mirror n q).isSome = true) ∧ playedSample s.mirror n p = some v) ∧
    (∃ (s : State) (n : Fin 8) (p : Play) (j : Nat), s.dev.srcOn n = true ∧ slotTime s.dev n (s.dev.src n).slot * halfPs ≤ s.clock.now ∧
      s.dev.laneUp (16 + n) = true ∧ (s.dev.src n).play = some p ∧ p.pos < p.seg.len * 2 ^ 32 ∧ (s.dev.src n).reqs = [] ∧
      (s.dev.src n).starting = none ∧ (s.dev.src n).pend = none ∧ s.dev.flag (.SRC_CFG n) 31 = false ∧ j = p.pos / 2 ^ 32 ∧ p.lines = [] ∧
      p.urgent = false ∧ s.dev.dram.poisoned (sampleAddr s.dev n p.seg j / 64 * 64) = false ∧ s.mirror.engineReads = true) ∧
    (∃ (s : State) (n : Fin 8) (p : Play) (v : Nat), s.dev.srcOn n = true ∧ slotTime s.dev n (s.dev.src n).slot * halfPs ≤ s.clock.now ∧
      s.dev.laneUp (16 + n) = true ∧ (s.dev.src n).play = some p ∧ p.pos < p.seg.len * 2 ^ 32 ∧ (s.dev.src n).reqs = [] ∧
      (s.dev.src n).starting = none ∧ (s.dev.src n).pend = none ∧ (s.dev.flag (.SRC_CFG n) 31 = false ∨ p.pos / 2 ^ 32 + 1 < p.seg.len) ∧
      (∃ q ∈ neededSamples s.mirror n p, heldSample s.mirror n q = none) ∧ (s.dev.src n).last = some v) :=
  ⟨⟨on (srcUp fun x => { x with tstart := 160 * nano1 - 1 }), 0, 7, 0x08000000,
      (on (srcUp fun x => { x with tstart := 160 * nano1 - 1 })).mirror.store (.SRC_CTL 7) (setBit 0x08000000 31 true),
      by unfold Admits; decide +kernel⟩,
    ⟨on (fun d => (srcUp id d).set (.SRC_CFG 7) 15 0 0x8000), 7, true, by decide +kernel⟩,
    ⟨on (srcUp fun x => { x with play := some { ply with pos := 4 * 2 ^ 32 - 1, lines := [⟨0, 5 * 2 ^ 48, false⟩], fetched := 4 } }), 7,
      { ply with pos := 4 * 2 ^ 32 - 1, lines := [⟨0, 5 * 2 ^ 48, false⟩], fetched := 4 }, 5, by decide +kernel⟩,
    ⟨on (fun d => { (srcUp (fun x => { x with play := some ply }) d) with dram := { d.dram with mem := memOf 0 [9] } }), 7, ply, 0, by decide +kernel⟩,
    ⟨on (srcUp fun x => { x with play := some ply, last := some 0xFFFF }), 7, ply, 0xFFFF, by decide +kernel⟩⟩

theorem test_witness_timeStamps1 :
    (∃ (s : State) (c : Fin 136) (low : Bool) (rising : Bool) (code : Fin 2048) (pcode : Fin 2048) (i : Nat) (k : Nat),
      (i, k) ∈ [(c.val, code.val), (c.val ^^^ 1, pcode.val)] ∧ s.dev.watches i c low = true ∧ (∀ j, j ≠ i → s.dev.watches j c low = false) ∧
      (c.val < 128 → edgePass s.dev (c / 16) = false) ∧ s.dev.inputOn i = true ∧ s.dev.detects i rising = true ∧ s.dev.inputBlind i = false ∧
      (s.dev.stampIn i).holdEnd ≤ s.clock.raw ∧ (s.dev.stampIn i).deadEnd ≤ s.clock.raw ∧ (s.dev.stampIn i).queue.length < 64) ∧
    (∃ (s : State) (c : Fin 136) (low : Bool) (rising : Bool) (code : Fin 2048) (pcode : Fin 2048) (i : Nat) (k : Nat),
      (i, k) ∈ [(c.val, code.val), (c.val ^^^ 1, pcode.val)] ∧ s.dev.watches i c low = true ∧ (∀ j, j ≠ i → s.dev.watches j c low = false) ∧
      (c.val < 128 → edgePass s.dev (c / 16) = false) ∧ s.dev.inputOn i = true ∧ s.dev.detects i rising = true ∧ s.dev.inputBlind i = false ∧
      (s.dev.stampIn i).holdEnd ≤ s.clock.raw ∧ (s.dev.stampIn i).deadEnd ≤ s.clock.raw ∧ (s.dev.stampIn i).queue.length < 64) ∧
    (∃ (s : State) (c : Fin 136) (low : Bool) (rising : Bool) (code : Fin 2048) (pcode : Fin 2048) (i : Nat) (k : Nat),
      (i, k) ∈ [(c.val, code.val), (c.val ^^^ 1, pcode.val)] ∧ s.dev.watches i c low = true ∧ (∀ j, j ≠ i → s.dev.watches j c low = false) ∧
      (c.val < 128 → edgePass s.dev (c / 16) = false) ∧ s.dev.inputOn i = true ∧ s.dev.detects i rising = true ∧ s.dev.inputBlind i = false ∧
      (s.dev.stampIn i).holdEnd ≤ s.clock.raw ∧ (s.dev.stampIn i).deadEnd ≤ s.clock.raw ∧ (s.dev.stampIn i).queue.length < 64) ∧
    (∃ (s : State) (c : Fin 136) (low : Bool) (rising : Bool) (code : Fin 2048) (pcode : Fin 2048), (∀ j, s.dev.watches j c low = false)) ∧
    (∃ (s : State) (c : Fin 136) (low : Bool) (rising : Bool) (code : Fin 2048) (pcode : Fin 2048), s.dev.watches c c low = true ∧
      (∀ j, j ≠ c.val → s.dev.watches j c low = false) ∧ (c.val < 128 → edgePass s.dev (c / 16) = false) ∧ s.dev.inputOn c = true ∧
      s.dev.detects c rising = true ∧ s.dev.inputBlind c = false ∧ s.clock.raw < (s.dev.stampIn c).holdEnd) ∧
    (∃ (s : State) (p : Fin 8) (i : Fin 136) (w : BitVec 32), Admits s p (.TDC_IN i) (setBit w 31 true) ∧ s.dev.flag (.TDC_IN i) 31 = false) ∧
    (∃ (s : State) (i : Fin 136) (st : Stamp) (q : List Stamp), (s.dev.stampIn i).queue = st :: q ∧ s.dev.stampsFenced i = false ∧
      s.dev.flag (.TDC_IN i) 26 = false) ∧
    (∃ (s : State) (i : Fin 136), s.dev.stampsFenced i = true) ∧
    (∃ (s : State) (i : Fin 136) (site : Fin 16) (st : Stamp) (q : List Stamp), (s.dev.stampIn i).queue = st :: q ∧ s.dev.stampsFenced i = false ∧
      s.dev.flag (.TDC_IN i) 26 = true ∧ s.dev.inputSite i = some site.val ∧ s.dev.flag (.TDC_RCTL site) 31 = true ∧
      (s.dev.site site).stamps.inputs ≠ [] ∧ (s.dev.site site).stamps.inputs.length < 3) ∧
    (∃ (s : State) (site : Fin 16), (s.dev.site site).stamps.inputs ≠ [] ∧ (s.dev.site site).stamps.since + micro1 ≤ s.clock.now) ∧
    (∃ (s : State) (p : Fin 8) (site : Fin 16) (w : BitVec 32), Admits s p (.TDC_RCTL site) (setBit w 31 true) ∧
      s.dev.flag (.TDC_RCTL site) 31 = false ∧ bit w 29 = false ∧
      s.dev.boltsOf site (s.dev.get (.TDC_RBASE site) 14 0) (s.dev.get (.TDC_RBASE site) 30 16 + 1) = true) ∧
    (∃ (s : State) (p : Fin 8) (site : Fin 16) (w : BitVec 32), Admits s p (.TDC_RCTL site) (setBit w 31 true) ∧
      s.dev.flag (.TDC_RCTL site) 31 = false ∧ bit w 29 = false ∧
      s.dev.boltsOf site (s.dev.get (.TDC_RBASE site) 14 0) (s.dev.get (.TDC_RBASE site) 30 16 + 1) = false) :=
  ⟨⟨on (inOn 0), 0, false, true, 2047, 3, 0, 2047, by decide +kernel, by decide +kernel,
      fun j h => if e : j = 1 then by subst e; decide +kernel else by simp [Dev.watches, h, e], by decide +kernel⟩,
    ⟨on (fun d => inOn 135 (fun x => { x with edges := 9, mrg := true }) (d.set (.TDC_IN 135) 28 27 1)), 135, false, false, 0, 7, 135, 0,
      by decide +kernel, by decide +kernel, fun j h => by have e : ¬ ((135 : Fin 136).val < 128) := (by decide); simp [Dev.watches, e]; exact h,
      by decide +kernel⟩,
    ⟨on (fun d => inOn 1 id ((d.set (.TDC_IN 0) 30 29 1).set (.TDC_IN 1) 30 29 2)), 0, false, true, 7, 9, 1, 9, by decide +kernel,
      by decide +kernel, fun j h => if e : j = 0 then by subst e; decide +kernel else by simp [Dev.watches, h, e], by decide +kernel⟩,
    ⟨on id, 0, true, true, 0, 0,
      fun j => if a : j = 0 then by subst a; decide +kernel else if e : j = 1 then by subst e; decide +kernel else by simp [Dev.watches, a, e]⟩,
    ⟨on (inOn 0 fun x => { x with holdEnd := 1 }), 0, false, true, 5, 0, by decide +kernel,
      fun j h => if e : j = 1 then by subst e; decide +kernel else by have h0 : j ≠ 0 := h; simp [Dev.watches, h0, e], by decide +kernel⟩,
    ⟨on (fun d => (sited d).modStampIn 0 fun x => { x with good := 5, edges := 7, queue := [stp] }), 0, 0, 0, by unfold Admits; decide +kernel⟩,
    ⟨on (inOn 135 fun x => { x with queue := [stp] }), 135, stp, [], by decide +kernel⟩,
    ⟨on (fun d => inOn 0 id (d.raise (.RAS_SEAMFENCE 1) 10)), 0, by decide +kernel⟩,
    ⟨on (fun d => (((inOn 0 (fun x => { x with queue := [stp] }) d).raise (.TDC_IN 0) 26).raise (.TDC_RCTL 0) 31).modSite 0 fun x => { x with stamps := { x.stamps with inputs := [1, 2], line := List.replicate 32 0 } }),
      0, 0, stp, [], by decide +kernel⟩,
    ⟨on (fun d => d.modSite 15 fun x => { x with stamps := { x.stamps with inputs := [1, 2], line := List.replicate 32 0 } }) micro1, 15,
      by decide +kernel⟩,
    ⟨on (fun d => (bolt0 (sited d)).modSite 0 fun x => { x with stamps := { x.stamps with pos := 64, wpos := 64 } }), 0, 0, 0,
      by unfold Admits; decide +kernel⟩,
    ⟨on (fun d => (sited d)), 0, 0, 0x40000000, by unfold Admits; decide +kernel⟩⟩

theorem test_witness_timeStamps2 :
    (∃ (s : State) (p : Fin 8) (site : Fin 16) (w : BitVec 32), Admits s p (.TDC_RCTL site) (setBit w 29 true) ∧
      bit w 31 = s.dev.flag (.TDC_RCTL site) 31) ∧
    (∃ (s : State) (p : Fin 8) (site : Fin 16) (w : BitVec 32), Admits s p (.TDC_RCTL site) (setBit w 29 true) ∧
      bit w 31 = s.dev.flag (.TDC_RCTL site) 31) :=
  ⟨⟨on (fun d => (sited d).modSite 0 fun x => { x with stamps := { x.stamps with pos := 64, wpos := 64 } }), 0, 0, 0,
      by unfold Admits; decide +kernel⟩,
    ⟨on (fun d => ((bolt0 (sited d)).raise (.TDC_RCTL 0) 31).modSite 0 fun x => { x with stamps := { x.stamps with pos := 64, wpos := 64 } }), 0, 0,
      0x80000000, by unfold Admits; decide +kernel⟩⟩

theorem test_witness_timerUnits :
    (∃ (s : State) (p : Fin 8) (u : Fin 16) (w : BitVec 32) (a : Nat) (b : Nat), Admits s p (.TDC_IVCTL u) (setBit w 31 true) ∧
      a = s.dev.get (.TDC_IVCFG u) 31 24 ∧ b = s.dev.get (.TDC_IVCFG u) 23 16 ∧ s.dev.inputOn a = true ∧ s.dev.inputOn b = true ∧
      s.dev.inputSite a = some u.val ∧ s.dev.inputSite b = some u.val) ∧
    (∃ (s : State) (p : Fin 8) (u : Fin 16) (w : BitVec 32) (a : Nat) (b : Nat), Admits s p (.TDC_IVCTL u) (setBit w 31 true) ∧
      a = s.dev.get (.TDC_IVCFG u) 31 24 ∧ b = s.dev.get (.TDC_IVCFG u) 23 16 ∧ (s.dev.inputOn a = false ∨ s.dev.inputOn b = false)) ∧
    (∃ (s : State) (p : Fin 8) (u : Fin 16) (w : BitVec 32), Admits s p (.TDC_IVCTL u) (setBit (setBit w 31 false) 30 true) ∧
      s.mirror.get (.TDC_IVSTAT u) 31 30 = 1) ∧
    (∃ (s : State) (p : Fin 8) (u : Fin 16) (w : BitVec 32) (i : Nat) (f : Freq), Admits s p (.TDC_FQCTL u) (setBit w 31 true) ∧
      i = s.dev.get (.TDC_FQCFG u) 31 24 ∧ f = s.dev.freq u ∧ s.dev.inputOn i = true ∧ s.dev.inputSite i = some u.val ∧ f.gopen + micro1 ≤ f.gclose ∧
      f.gclose ≤ f.gopen + 10 * second1 ∧ s.clock.now + micro1 ≤ f.gopen) ∧
    (∃ (s : State) (p : Fin 8) (u : Fin 16) (w : BitVec 32), Admits s p (.TDC_FQCTL u) (setBit (setBit w 31 false) 30 true)) ∧
    (∃ (s : State) (u : Fin 16), s.dev.get (.TDC_FQSTAT u) 31 29 = 1 ∧ (s.dev.freq u).opens ≤ s.clock.now) ∧
    (∃ (s : State) (u : Fin 16), s.dev.get (.TDC_FQSTAT u) 31 29 = 2 ∧ (s.dev.freq u).closes ≤ s.clock.now) ∧
    (∃ (s : State) (u : Fin 16), s.dev.freqReady u = true ∧ (s.dev.freq u).n < 3) ∧
    (∃ (s : State) (u : Fin 16) (q : Freq), s.dev.freqReady u = true ∧ q = s.dev.freq u ∧ 3 ≤ q.n ∧ q.stepped = false ∧ q.n * q.sxx - q.sx * q.sx > 0) :=
  ⟨⟨on (fun d => (inOn 0 id (d.raise (.TDC_IN 128) 31)).raise (.TDC_IN 128) 19 |>.set (.TDC_IVCFG 0) 31 24 128) 1, 0, 0, 0, 128, 0,
      by unfold Admits; decide +kernel⟩,
    ⟨on (fun d => (sited d).set (.TDC_IVCFG 0) 31 24 255), 0, 0, 0, 255, 0, by unfold Admits; decide +kernel⟩,
    ⟨on (fun d => (sited d).set (.TDC_IVSTAT 0) 31 30 1), 0, 0, 0, by unfold Admits; decide +kernel⟩,
    ⟨on (fun d => ((inOn 0 id d)).modFreq 0 fun f => { f with gopen := micro1, gclose := 2 * micro1 }), 0, 0, 0, 0,
      { gopen := micro1, gclose := 2 * micro1 }, by unfold Admits; decide +kernel⟩,
    ⟨on sited, 0, 0, 0, by unfold Admits; decide +kernel⟩,
    ⟨on (fun d => d.set (.TDC_FQSTAT 15) 31 29 1), 15, by decide +kernel⟩,
    ⟨on (fun d => d.set (.TDC_FQSTAT 15) 31 29 2), 15, by decide +kernel⟩,
    ⟨on (fun d => (d.set (.TDC_FQSTAT 15) 31 29 3).modFreq 15 fun f => { f with n := 2 }), 15, by decide +kernel⟩,
    ⟨on (fun d => (d.set (.TDC_FQSTAT 15) 31 29 3).modFreq 15 fun f => { f with n := 3, sx := 3, sxx := 5, sxy := 5 * 2 ^ 16, sy := 3 * 2 ^ 16 }),
      15, { n := 3, sx := 3, sxx := 5, sxy := 5 * 2 ^ 16, sy := 3 * 2 ^ 16 }, by decide +kernel⟩⟩

theorem test_witness_stepsAndServo1 :
    (∃ (s : State) (p : Fin 8) (w : Word), Admits s p (.TIM_SET 2) w) ∧
    (∃ (s : State) (delta : Int), s.dev.tbase.stepHost = some delta ∧ s.dev.tbase.stepServo = none ∧ s.dev.sched.tickAt ≤ s.clock.now ∧
      (∀ x ∈ s.dev.descs, x.2.dispatched = false)) ∧
    (∃ (s : State) (p : Fin 8) (w : Word), Admits s p .TIM_RSET w ∧ s.mirror.get .TIM_CTL 31 30 ≠ 0) ∧
    (∃ (s : State) (p : Fin 8) (w : Word), Admits s p .TIM_RSET w ∧ s.mirror.get .TIM_CTL 31 30 = 0) ∧
    (∃ (s : State) (p : Fin 8) (w : Word), Admits s p .TIM_RSET w ∧ s.mirror.get .TIM_CTL 31 30 = 0) ∧
    (∃ (s : State) (x : BitVec 16), (s.dev.tbase.xtalDone + 1) * 32000000 ≤ s.clock.raw) ∧
    (∃ (s : State), (s.dev.tbase.ageDone + 1) * 3200000000 ≤ s.clock.raw) ∧
    (∃ (s : State) (k : Nat), s.dev.sched.tickAt ≤ s.clock.now ∧ k = s.dev.get .TIM_CTL 31 30 ∧ k ≠ s.dev.tbase.srcInForce ∧ s.dev.servoState ≠ 2) ∧
    (∃ (s : State) (k : Nat), s.dev.sched.tickAt ≤ s.clock.now ∧ k = s.dev.get .TIM_CTL 31 30 ∧ k ≠ s.dev.tbase.srcInForce ∧ s.dev.servoState ≠ 2) ∧
    (∃ (s : State) (e : Int) (ms : List (Nat × Int)), s.dev.tbase.meas = (s.dev.tbase.srcInForce, e) :: ms ∧ s.dev.tbase.stepServo = none ∧
      s.dev.servoState = 1 ∧ s.dev.servoSteps e = true) ∧
    (∃ (s : State) (e : Int) (ms : List (Nat × Int)) (dt : Nat) (g : Nat × Nat), s.dev.tbase.meas = (s.dev.tbase.srcInForce, e) :: ms ∧
      s.dev.tbase.stepServo = none ∧ s.dev.servoState = 1 ∧ s.dev.servoSteps e = false ∧ s.dev.tbase.count < 15 ∧
      s.dev.tbase.lastMeas.isSome = true ∧ dt = s.clock.now - s.dev.tbase.lastMeas.getD 0 ∧ 0 < dt ∧ g = s.dev.gains ∧
      (∀ k, k = g.1 ∨ k = g.2 → (e * 2 ^ 44 * nano1) % (dt * 2 ^ k : Nat) = 0)) ∧
    (∃ (s : State), (s.dev.servoState = 1 ∨ s.dev.servoState = 2) ∧ s.dev.tbase.measT + 8 * s.dev.servoInterval ≤ s.clock.now) :=
  ⟨⟨on (fun d => d.wr (.TIM_SET 1) 5) 77, 0, 1, by unfold Admits; decide +kernel⟩,
    ⟨on (tb fun t => { t with stepHost := some (-5000) }) (1024000 * 2 ^ 45), -5000, by decide +kernel⟩,
    ⟨on (fun d => d.set .TIM_CTL 31 30 3), 0, 5, by unfold Admits; decide +kernel⟩,
    ⟨on id, 0, 0x7FFFFFFF, by unfold Admits; decide +kernel⟩,
    ⟨on id, 0, 0x80000000, by unfold Admits; decide +kernel⟩,
    ⟨(let s := on (fun d => d.wr (.CAL_XC 1 0) 0x80000000); { s with clock := { s.clock with raw := 32000000 } }), 0x8000, by decide +kernel⟩,
    ⟨{ on (fun d => d.wr .TIM_AGE 0xFFFFFFFF) with clock := { State.reset.clock with raw := 3200000000 } }, by decide +kernel⟩,
    ⟨on (fun d => d.set .TIM_CTL 31 30 1) (1024000 * 2 ^ 45), 1, by decide +kernel⟩,
    ⟨on (tb fun t => { t with srcInForce := 2, integ := 5 }) (1024000 * 2 ^ 45), 0, by decide +kernel⟩,
    ⟨on (fun d => tb (fun t => { t with meas := [(0, -65536)] }) ((d.set .TIM_STAT 30 28 1).raise .TIM_CTL 29 |>.set .TIM_SERVO 15 0 1)), -65536,
      [], by decide +kernel⟩,
    ⟨on (fun d => tb (fun t => { t with meas := [(0, 0)], lastMeas := some 0 }) ((d.set .TIM_STAT 30 28 1))) 1, 0, [], 1, (State.reset.dev.gains),
      and3 (by decide +kernel) (and3 (by decide +kernel) ⟨by decide +kernel, by decide +kernel, by decide +kernel, fun k h => (by rw [Int.zero_mul, Int.zero_mul, Int.zero_emod])⟩)⟩,
    ⟨on (fun d => d.set .TIM_STAT 30 28 2) (second1 * 8), by decide +kernel⟩⟩

theorem test_witness_stepsAndServo2 :
    ∃ (s : State), (s.dev.servoState = 1 ∨ s.dev.servoState = 2) ∧ s.dev.tbase.measT + 8 * s.dev.servoInterval ≤ s.clock.now :=
  ⟨on (fun d => (d.set .TIM_STAT 30 28 1)) (second1 * 8), by decide +kernel⟩

theorem test_witness_stitchRing :
    (∃ (s : State), (s.dev.ringRole = 1 ∨ s.dev.ringRole = 2) ∧ or256 (s.dev.get .TIM_RING 23 16) ≤ s.dev.tbase.ringTicks) ∧
    (∃ (s : State), (s.dev.ringRole = 1 ∨ s.dev.ringRole = 2) ∧ or256 (s.dev.get .TIM_RING 23 16) ≤ s.dev.tbase.ringTicks) ∧
    (∃ (s : State) (lane : Fin 4) (b : Block) (turn : BitVec 48), s.mirror.stitchHears lane = false) ∧
    (∃ (s : State) (b : BitVec 128) (turn : BitVec 48), bits b 127 124 = 1 ∧ s.dev.ringRole ≠ 0 ∧ s.dev.stitchHears 0 = true ∧
      s.dev.stitchOn 0 = true) ∧
    (∃ (s : State) (lane : Fin 4) (r : BitVec 128) (x : BitVec 128) (t1 : Int) (a : Int) (c : Int), s.dev.tbase.ringT1 = some t1 ∧
      bits r 127 124 = 2 ∧ bits x 127 124 = 3 ∧ bits r 123 116 = s.dev.tbase.ringSeq ∧ bits x 123 116 = s.dev.tbase.ringSeq ∧
      lane.val = s.dev.upstream ∧ s.dev.ringRole = 2 ∧ s.dev.stitchHears lane = true ∧ s.dev.tbase.srcInForce = 1 ∧
      a = (toFrac16 (ofTimeBits (bits x 95 0)) : Int) - t1 ∧
      c = (toFrac16 s.clock.now : Int) - s.dev.stRx lane - toFrac16 (ofTimeBits (bits x 95 0)) - bits r 95 48 ∧ (c - a) % 2 = 0) ∧
    (∃ (s : State) (p : Fin 8) (w : BitVec 32), Admits s p .TIM_SEV (setBit w 31 true)) ∧
    (∃ (s : State) (p : Fin 8) (w : BitVec 32), Admits s p .TIM_SEV (setBit w 31 true)) ∧
    (∃ (s : State) (lane : Fin 4) (b : BitVec 128), bits b 127 124 = 4 ∧ lane.val = s.dev.upstream ∧ s.dev.stitchHears lane = true ∧
      bits b 119 112 ≠ s.dev.get .TIM_RING 15 8 ∧ s.dev.get .TIM_RING 31 30 = 0) ∧
    (∃ (s : State) (lane : Fin 4) (b : BitVec 128), bits b 127 124 = 4 ∧ lane.val = s.dev.upstream ∧ s.dev.stitchHears lane = true ∧
      bits b 119 112 ≠ s.dev.get .TIM_RING 15 8 ∧ s.dev.get .TIM_RING 31 30 ≠ 0 ∧ s.mirror.nowOn 10 ≤ ofTimeBits (bits b 95 0)) ∧
    (∃ (s : State) (x : EventDue) (due : Nat), firstEvent s.dev.tbase.events = some x ∧ due = s.dev.dueOn 10 x.time ∧ s.clock.now ≤ due ∧
      s.dev.mirrors.get 0 10 ≤ x.time ∧ s.dev.tbase.delivered.get none x.event ≠ some (s.clock.advanceTo due).raw) :=
  ⟨⟨on (fun d => tb (fun t => { t with ringTicks := 256, ringSeq := 255, ringT1 := some 0, ringLost := 7 }) (d.set .TIM_RING 31 30 1 |>.set .TIM_RING 23 16 0)),
      by decide +kernel⟩,
    ⟨on (fun d => tb (fun t => { t with ringTicks := 1, ringSeq := 3 }) (d.set .TIM_RING 31 30 2 |>.set .TIM_RING 23 16 1)), by decide +kernel⟩,
    ⟨on id, 0, 0, 0, by decide +kernel⟩,
    ⟨on (fun d => (lane 24 6 d).set .TIM_RING 31 30 1), BitVec.ofNat 128 (2 ^ 124 + 9 * 2 ^ 116), 77, by decide +kernel⟩,
    ⟨on (fun d => tb (fun t => { t with ringT1 := some 0, srcInForce := 1, ringSeq := 9 }) ((lane 25 6 d).set .TIM_RING 31 30 2)), 1,
      BitVec.ofNat 128 (2 * 2 ^ 124 + 9 * 2 ^ 116), BitVec.ofNat 128 (3 * 2 ^ 124 + 9 * 2 ^ 116), 0, 0,
      (toFrac16 0 : Int) - (State.reset.dev.stRx 1), by decide +kernel⟩,
    ⟨on id, 0, 15, by unfold Admits; decide +kernel⟩,
    ⟨on (fun d => d.set .TIM_RING 31 30 1), 0, 15, by unfold Admits; decide +kernel⟩,
    ⟨on (fun d => (lane 25 6 (lane 24 1 d)).set .TIM_RING 15 8 3), 1, BitVec.ofNat 128 (4 * 2 ^ 124 + 9 * 2 ^ 120 + 2 ^ 112 + 5), by decide +kernel⟩,
    ⟨on (fun d => ((lane 25 6 d).set .TIM_RING 31 30 1).set .TIM_RING 15 8 3), 1, BitVec.ofNat 128 (4 * 2 ^ 124 + 9 * 2 ^ 120 + 2 ^ 112 + 5),
      by decide +kernel⟩,
    ⟨on (tb fun t => { t with events := [⟨15, 7⟩, ⟨3, 5⟩, ⟨3, 5⟩] }) 5, ⟨3, 5⟩,
      (on (tb fun t => { t with events := [⟨15, 7⟩, ⟨3, 5⟩, ⟨3, 5⟩] }) 5).dev.dueOn 10 5, by decide +kernel⟩⟩

theorem test_witness_ptpPort :
    (∃ (s : State) (m : AnnounceMsg), s.dev.tbase.ptp.en = true ∧ s.dev.ml0Open = true ∧ m.domain = s.dev.tbase.ptp.domain ∧
      m.udp.toNat = s.dev.tbase.ptp.transport ∧ -4 ≤ m.logSync ∧ m.logSync ≤ 1 ∧
      (∀ b, s.mirror.master = some b → b.sender = m.sender ∨ lexBefore (announceKey m) (announceKey b) = true)) ∧
    (∃ (s : State) (sender : Nat) (seq : Nat) (phase : Nat) (t1 : Option Int) (corr : Int), fromMaster s.mirror sender = true) ∧
    (∃ (s : State), s.dev.mirrors.get 0 40 = 0) ∧
    (∃ (s : State) (sender : Nat) (seq : Nat) (t1 : Int) (corr : Int), fromMaster s.mirror sender = true ∧ s.dev.tbase.ptp.syncSeq = seq ∧
      s.dev.tbase.ptp.syncT1 = none) ∧
    (∃ (s : State), s.dev.tbase.ptp.en = true ∧ s.dev.ml0Open = true ∧ s.mirror.master.isSome = true ∧
      (∀ a, s.dev.tbase.ptp.reqAt = some a → a + logSeconds s.dev.tbase.ptp.logDelayReq ≤ s.clock.now)) ∧
    (∃ (s : State) (sender : Nat) (seq : Nat) (t4 : Int) (corr : Int) (k : Int) (t1 : Int) (t2 : Int) (t3 : Int) (a : Int) (b : Int),
      fromMaster s.mirror sender = true ∧ s.dev.tbase.ptp.reqSeq = seq ∧ s.dev.tbase.ptp.syncT1 = some t1 ∧ s.dev.tbase.ptp.syncT2 = some t2 ∧
      s.dev.tbase.ptp.reqT3 = some t3 ∧ s.dev.tbase.ptp.delays = [] ∧ a = t2 - t1 - s.dev.tbase.ptp.syncCorr ∧ b = t4 - t3 - corr ∧ (a + b) % 2 = 0 ∧
      s.dev.rd .TIM_PTPASYM = 0 ∧ s.dev.tbase.srcInForce = 2) :=
  ⟨⟨on (ptpS fun x => { x with best := none }), ann,
      and3 (by decide +kernel) ⟨by decide +kernel, by decide +kernel, by decide +kernel, none_all (by decide +kernel)⟩⟩,
    ⟨on (ptpS id) second1, 5, 65535, 5, some 7, -9, by decide +kernel⟩,
    ⟨on id, by decide +kernel⟩,
    ⟨on (ptpS fun x => { x with syncSeq := 65535 }), 5, 65535, 7, -9, by decide +kernel⟩,
    ⟨on (ptpS fun x => { x with reqSeq := 65535 }), by decide +kernel, by decide +kernel, by decide +kernel, none_all (by decide +kernel)⟩,
    ⟨on (fun d => tb (fun t => { t with srcInForce := 2 }) (ptpS (fun x => { x with syncT1 := some 0, syncT2 := some 4, reqT3 := some 10 }) d)), 5,
      0, 16, 0, -4, 0, 4, 10, 4, 6, by decide +kernel⟩⟩

theorem test_witness_comparesAndPulses :
    (∃ (s : State) (p : Fin 8) (w : Word), Admits s p .TIM_CMPMODE w ∧ (∀ n, n < 64 → s.dev.cmpArmed n = false)) ∧
    (∃ (s : State) (p : Fin 8) (w : Word) (n : Nat), Admits s p .TIM_CMPMODE w ∧ n < 64 ∧ s.dev.cmpArmed n = true) ∧
    (∃ (s : State) (p : Fin 8) (n : Fin 64) (w : BitVec 32), Admits s p (.TIM_CMPCTL n) (setBit w 31 true) ∧ n.val < s.dev.cmpCount ∧
      s.dev.compact = false ∧
      s.clock.now < ofTimeWords (s.dev.rd (.TIM_CMPT n 0)).toNat (s.dev.rd (.TIM_CMPT n 1)).toNat (s.dev.rd (.TIM_CMPT n 2)).toNat) ∧
    (∃ (s : State) (p : Fin 8) (n : Fin 64) (w : BitVec 32), Admits s p (.TIM_CMPCTL n) (setBit (setBit w 31 false) 30 true)) ∧
    (∃ (s : State) (n : Fin 64), s.dev.cmpArmed n = true ∧ s.dev.compact = false ∧ s.clock.now < (s.dev.compare n).target ∧
      s.dev.get (.TIM_CMPCTL n) 25 24 = 1) ∧
    (∃ (s : State) (p : Fin 8) (k : Fin 4) (w : BitVec 32) (per : Nat) (wid : Nat) (start : Nat), Admits s p (.TIM_TPOCTL k) (setBit w 31 true) ∧
      s.mirror.tpoRuns k = false ∧ per = s.dev.get (.TIM_TPOPER1 k) 15 0 * 2 ^ 32 + (s.dev.rd (.TIM_TPOPER0 k)).toNat ∧
      wid = (s.dev.rd (.TIM_TPOWIDTH k)).toNat ∧
      start = ofTimeWords (s.dev.rd (.TIM_TPOSTART k 0)).toNat (s.dev.rd (.TIM_TPOSTART k 1)).toNat (s.dev.rd (.TIM_TPOSTART k 2)).toNat ∧
      20 * 65536 ≤ per ∧ 10 ≤ wid ∧ (wid + 10) * 65536 ≤ per ∧ s.clock.now + micro1 ≤ start) ∧
    (∃ (s : State) (p : Fin 8) (k : Fin 4) (w : BitVec 32), Admits s p (.TIM_TPOCTL k) (setBit w 30 true) ∧ s.mirror.tpoRuns k = true) ∧
    (∃ (d : Dev) (k : Nat), (d.tpo k).left = some 0 ∧ (∀ a, (d.tpo k).pulseEnd = some a → a ≤ d.now)) ∧
    (∃ (s : State) (k : Fin 4), s.dev.flag (.TIM_TPOCTL k) 29 = true ∧ (s.dev.tpo k).left ≠ some 0 ∧
      pulseEdge (s.dev.tpo k) (s.dev.tpo k).next * halfPs ≤ s.clock.now) ∧
    (∃ (s : State) (k : Fin 4) (stable : Nat), stable < 4 * nano1) ∧
    (∃ (s : State) (k : Fin 4) (stable : Nat), 4 * nano1 ≤ stable ∧ s.dev.flag (.TIM_TCICTL k) 31 = true ∧
      (∀ a, (s.dev.tci k).lastEdge = some a → a + 50 * nano1 ≤ s.clock.now) ∧ (s.dev.tci k).stamps.length < 16) :=
  ⟨⟨on id, 0, 127, by unfold Admits; decide +kernel⟩,
    ⟨on (fun d => d.raise (.TIM_CMPCTL 63) 29), 0, 5, 63, by unfold Admits; decide +kernel⟩,
    ⟨on (fun d => (d.set .TIM_CMPMODE 6 0 16).wr (.TIM_CMPT 15 0) 1), 0, 15, 0, by unfold Admits; decide +kernel⟩,
    ⟨on (fun d => (d.set .TIM_CMPMODE 6 0 16).raise (.TIM_CMPCTL 63) 29), 0, 63, 0, by unfold Admits; decide +kernel⟩,
    ⟨on (fun d => tb (fun t => { t with compares := t.compares.put {} 63 { target := 9 * nano1 } }) ((d.raise (.TIM_CMPCTL 63) 29).set (.TIM_CMPCTL 63) 25 24 1)),
      63, by decide +kernel⟩,
    ⟨on (fun d => (((d.wr (.TIM_TPOPER0 3) (20 * 65536)).wr (.TIM_TPOWIDTH 3) 10).wr (.TIM_TPOSTART 3 1) 1)), 0, 3, 0, 20 * 65536, 10, second1,
      by unfold Admits; decide +kernel⟩,
    ⟨on (fun d => d.raise (.TIM_TPOCTL 3) 29), 0, 3, 0, by unfold Admits; decide +kernel⟩,
    ⟨ready.modTime fun t => { t with tpos := t.tpos.put {} 3 { left := some 0, width := 10 } }, 3, by decide +kernel, none_all (by decide +kernel)⟩,
    ⟨on (fun d => (d.raise (.TIM_TPOCTL 3) 29).modTime fun t => { t with tpos := t.tpos.put {} 3 { period := 20 * 65536, width := 10, left := some 1 } }),
      3, by decide +kernel⟩,
    ⟨on (fun d => d.raise (.TIM_TCICTL 3) 31), 3, 4 * nano1 - 1, by decide +kernel⟩,
    ⟨on (fun d => d.raise (.TIM_TCICTL 3) 31), 3, 4 * nano1, by decide +kernel, by decide +kernel, none_all (by decide +kernel), by decide +kernel⟩⟩

theorem test_witness_errorReports1 :
    (∃ (d : Dev) (source : Nat) (severity : Nat) (island : Nat) (addr : Nat) (sites : Nat) (engine : Option Nat) (port : Option Nat) (t : Dev),
      severity < 4 ∧ t = rasReport d source severity island addr sites engine port) ∧
    (∃ (d : Dev) (source : Nat) (severity : Nat) (island : Nat) (addr : Nat) (sites : Nat) (engine : Option Nat) (port : Option Nat) (t : Dev),
      severity < 4 ∧ t = rasReport d source severity island addr sites engine port) ∧
    (∃ (d : Dev) (source : Nat) (severity : Nat) (island : Nat) (addr : Nat) (sites : Nat) (engine : Option Nat) (port : Option Nat) (t : Dev),
      severity < 4 ∧ t = rasReport d source severity island addr sites engine port) ∧
    (∃ (d : Dev) (source : Nat) (severity : Nat) (island : Nat) (addr : Nat) (sites : Nat) (engine : Option Nat) (port : Option Nat) (t : Dev),
      severity < 4 ∧ t = rasReport d source severity island addr sites engine port) ∧
    (∃ (d : Dev) (source : Nat) (severity : Nat) (island : Nat) (addr : Nat) (sites : Nat) (engine : Option Nat) (port : Option Nat) (t : Dev),
      severity < 4 ∧ t = rasReport d source severity island addr sites engine port) ∧
    (∃ (d : Dev) (source : Nat) (severity : Nat) (island : Nat) (addr : Nat) (sites : Nat) (engine : Option Nat) (port : Option Nat) (t : Dev),
      severity < 4 ∧ t = rasReport d source severity island addr sites engine port ∧ severity ≠ 0) ∧
    (∃ (d : Dev) (source : Nat) (severity : Nat) (island : Nat) (addr : Nat) (sites : Nat) (engine : Option Nat) (port : Option Nat) (t : Dev),
      severity < 4 ∧ t = rasReport d source severity island addr sites engine port ∧ severity ≠ 0) ∧
    (∃ (d : Dev) (source : Nat) (severity : Nat) (island : Nat) (addr : Nat) (sites : Nat) (engine : Option Nat) (port : Option Nat) (t : Dev),
      severity < 4 ∧ t = rasReport d source severity island addr sites engine port ∧ severity ≠ 0) ∧
    (∃ (d : Dev) (source : Nat) (severity : Nat) (island : Nat) (addr : Nat) (sites : Nat) (engine : Option Nat) (port : Option Nat) (t : Dev),
      severity < 4 ∧ t = rasReport d source severity island addr sites engine port ∧ severity = 2) ∧
    (∃ (d : Dev) (source : Nat) (severity : Nat) (island : Nat) (addr : Nat) (sites : Nat) (engine : Option Nat) (port : Option Nat) (t : Dev),
      severity < 4 ∧ t = rasReport d source severity island addr sites engine port ∧ severity ≠ 2) ∧
    (∃ (d : Dev) (source : Nat) (severity : Nat) (island : Nat) (addr : Nat) (sites : Nat) (engine : Option Nat) (port : Option Nat) (t : Dev),
      severity < 4 ∧ t = rasReport d source severity island addr sites engine port ∧ severity ≠ 2) ∧
    (∃ (d : Dev) (source : Nat) (severity : Nat) (island : Nat) (addr : Nat) (sites : Nat) (engine : Option Nat) (port : Option Nat) (t : Dev),
      severity < 4 ∧ t = rasReport d source severity island addr sites engine port ∧ severity ≠ 2) :=
  ⟨⟨ready, 9, 1, 3, 77, 5, some 4, some 6, rep 1, by decide +kernel⟩,
    ⟨ready, 9, 0, 3, 77, 5, some 4, some 6, rep 0, by decide +kernel⟩,
    ⟨rep 0, 9, 0, 3, 77, 5, some 4, some 6, rep 0 (rep 0), by decide +kernel⟩,
    ⟨rep 3, 9, 2, 3, 77, 5, some 4, some 6, rep 2 (rep 3), by decide +kernel⟩,
    ⟨ready, 9, 3, 3, 77, 5, some 4, some 6, rep 3, by decide +kernel⟩,
    ⟨ready, 9, 1, 3, 77, 5, some 4, some 6, rep 1, by decide +kernel⟩,
    ⟨rep 3, 9, 2, 3, 77, 5, some 4, some 6, rep 2 (rep 3), by decide +kernel⟩,
    ⟨ready, 9, 3, 3, 77, 5, some 4, some 6, rep 3, by decide +kernel⟩,
    ⟨rep 3, 9, 2, 3, 77, 5, some 4, some 6, rep 2 (rep 3), by decide +kernel⟩,
    ⟨ready, 9, 1, 3, 77, 5, some 4, some 6, rep 1, by decide +kernel⟩,
    ⟨ready, 9, 0, 3, 77, 5, some 4, some 6, rep 0, by decide +kernel⟩,
    ⟨rep 0, 9, 0, 3, 77, 5, some 4, some 6, rep 0 (rep 0), by decide +kernel⟩⟩

theorem test_witness_errorReports2 :
    (∃ (d : Dev) (source : Nat) (severity : Nat) (island : Nat) (addr : Nat) (sites : Nat) (engine : Option Nat) (port : Option Nat) (t : Dev),
      severity < 4 ∧ t = rasReport d source severity island addr sites engine port ∧ severity ≠ 2) ∧
    (∃ (d : Dev) (source : Nat) (severity : Nat) (island : Nat) (addr : Nat) (sites : Nat) (engine : Option Nat) (port : Option Nat) (t : Dev) (r : Reg),
      severity < 4 ∧ t = rasReport d source severity island addr sites engine port ∧ r.addr ≠ Reg.addr .RAS_STAT) ∧
    (∃ (d : Dev) (source : Nat) (severity : Nat) (island : Nat) (addr : Nat) (sites : Nat) (engine : Option Nat) (port : Option Nat) (t : Dev) (r : Reg),
      severity < 4 ∧ t = rasReport d source severity island addr sites engine port ∧ r.addr ≠ Reg.addr .RAS_STAT) ∧
    (∃ (d : Dev) (source : Nat) (severity : Nat) (island : Nat) (addr : Nat) (sites : Nat) (engine : Option Nat) (port : Option Nat) (t : Dev) (r : Reg),
      severity < 4 ∧ t = rasReport d source severity island addr sites engine port ∧ r.addr ≠ Reg.addr .RAS_STAT) ∧
    (∃ (d : Dev) (source : Nat) (severity : Nat) (island : Nat) (addr : Nat) (sites : Nat) (engine : Option Nat) (port : Option Nat) (t : Dev) (r : Reg),
      severity < 4 ∧ t = rasReport d source severity island addr sites engine port ∧ r.addr ≠ Reg.addr .RAS_STAT) ∧
    (∃ (d : Dev) (source : Nat) (severity : Nat) (island : Nat) (addr : Nat) (sites : Nat) (engine : Option Nat) (port : Option Nat) (t : Dev) (r : Reg),
      severity < 4 ∧ t = rasReport d source severity island addr sites engine port ∧ r.addr ≠ Reg.addr .RAS_STAT) ∧
    (∃ (s : State) (x : SramItem) (island : Fin 41) (addr : BitVec 64), (∀ e store a k, x ≠ .control e store a k)) ∧
    (∃ (s : State) (x : SramItem) (island : Fin 41) (addr : BitVec 64), (∀ e store a k, x ≠ .control e store a k)) ∧
    (∃ (s : State) (u : Fin 16) (n : Nat) (island : Fin 41) (addr : BitVec 64) (i : Instr) (d : Dev),
      Uncorrectable s (.acquisition u n) island addr i d) ∧
    (∃ (s : State) (u : Fin 16) (n : Nat) (island : Fin 41) (addr : BitVec 64) (i : Instr) (d : Dev),
      Uncorrectable s (.acquisition u n) island addr i d) ∧
    (∃ (s : State) (site : Fin 16) (n : Nat) (island : Fin 41) (addr : BitVec 64) (i : Instr) (d : Dev),
      Uncorrectable s (.capture site n) island addr i d) ∧
    (∃ (s : State) (site : Fin 16) (n : Nat) (island : Fin 41) (addr : BitVec 64) (i : Instr) (d : Dev),
      Uncorrectable s (.capture site n) island addr i d) :=
  ⟨⟨ready, 9, 3, 3, 77, 5, some 4, some 6, rep 3, by decide +kernel⟩,
    ⟨ready, 9, 1, 3, 77, 5, some 4, some 6, rep 1, .GLB_STAT, by decide +kernel⟩,
    ⟨ready, 9, 0, 3, 77, 5, some 4, some 6, rep 0, .GLB_STAT, by decide +kernel⟩,
    ⟨rep 0, 9, 0, 3, 77, 5, some 4, some 6, rep 0 (rep 0), .GLB_STAT, by decide +kernel⟩,
    ⟨rep 3, 9, 2, 3, 77, 5, some 4, some 6, rep 2 (rep 3), .GLB_STAT, by decide +kernel⟩,
    ⟨ready, 9, 3, 3, 77, 5, some 4, some 6, rep 3, .GLB_STAT, by decide +kernel⟩,
    ⟨on id, .capture 15 3, 12, 5, fun e st a k => nofun⟩,
    ⟨on id, .descriptors, 12, 5, fun e st a k => nofun⟩,
    ⟨on id, 15, 2, 40, 7, .sramError (.acquisition 15 2) false 40 7, (on id).mirror, .inl ⟨rfl, rfl⟩⟩,
    ⟨on id, 0, 0, 0, 7, .sramScrubRead (.acquisition 0 0) 2 0 7, scrubTurn (on id).mirror (.acquisition 0 0) 7,
      .inr ⟨rfl, rfl, by decide +kernel, by decide +kernel⟩⟩,
    ⟨on id, 15, 1, 40, 7, .sramError (.capture 15 1) false 40 7, (on id).mirror, .inl ⟨rfl, rfl⟩⟩,
    ⟨on id, 0, 0, 0, 7, .sramScrubRead (.capture 0 0) 2 0 7, scrubTurn (on id).mirror (.capture 0 0) 7,
      .inr ⟨rfl, rfl, by decide +kernel, by decide +kernel⟩⟩⟩

theorem test_witness_errorReports3 :
    (∃ (s : State) (p : Fin 8) (island : Fin 41) (addr : BitVec 64) (i : Instr) (d : Dev), Uncorrectable s (.link p) island addr i d) ∧
    (∃ (s : State) (site : Fin 16) (island : Fin 41) (addr : BitVec 64) (i : Instr) (d : Dev), Uncorrectable s (.quad site) island addr i d ∧
      s.dev.get .RAS_ENGCFG 7 0 = 0 ∧ s.dev.siteEngine site = none ∧ s.dev.siteDispatched site = false) ∧
    (∃ (s : State) (site : Fin 16) (island : Fin 41) (addr : BitVec 64) (i : Instr) (d : Dev) (e : Nat) (b : Burst),
      Uncorrectable s (.quad site) island addr i d ∧ s.dev.get .RAS_ENGCFG 7 0 = 0 ∧ s.dev.siteEngine site = some e ∧ s.dev.burst e = some b ∧
      b.fin = none) ∧
    (∃ (s : State) (x : SramItem) (src : Nat) (island : Fin 41) (addr : BitVec 64) (i : Instr) (d : Dev),
      (x, src) ∈ [(SramItem.descriptors, 0x07), (.service, 0x08)] ∧ Uncorrectable s x island addr i d ∧ s.dev.ras.resetDue = false ∧
      s.mirror.flag .RAS_CTL 31 = false) ∧
    (∃ (s : State) (x : SramItem) (src : Nat) (island : Fin 41) (addr : BitVec 64) (i : Instr) (d : Dev),
      (x, src) ∈ [(SramItem.descriptors, 0x07), (.service, 0x08)] ∧ Uncorrectable s x island addr i d ∧ s.dev.ras.resetDue = false ∧
      s.mirror.flag .RAS_CTL 31 = false) ∧
    (∃ (s : State) (x : SramItem) (src : Nat) (island : Fin 41) (addr : BitVec 64) (i : Instr) (d : Dev),
      (x, src) ∈ [(SramItem.descriptors, 0x07), (.service, 0x08)] ∧ Uncorrectable s x island addr i d ∧ s.dev.ras.resetDue = false ∧
      s.mirror.flag .RAS_CTL 31 = true ∧ s.dev.trust.held = false) ∧
    (∃ (s : State) (e : Fin 16) (store : Fin 4) (a : Fin 8192) (k : Fin 320) (island : Fin 41) (addr : BitVec 64) (i : Instr) (d : Dev),
      Uncorrectable s (.control e store a k) island addr i d ∧ s.dev.get .RAS_ENGCFG 7 0 = 0 ∧
      (i = .sramScrubRead (.control e store a k) 2 island addr ∨ routineNow s.mirror e = none)) ∧
    (∃ (s : State) (e : Fin 16) (store : Fin 4) (a : Fin 8192) (k : Fin 320) (island : Fin 41) (addr : BitVec 64) (i : Instr) (d : Dev),
      Uncorrectable s (.control e store a k) island addr i d ∧ s.dev.get .RAS_ENGCFG 7 0 = 0 ∧
      (i = .sramScrubRead (.control e store a k) 2 island addr ∨ routineNow s.mirror e = none)) ∧
    (∃ (s : State) (e : Fin 16) (store : Fin 4) (a : Fin 8192) (k : Fin 320) (island : Fin 41) (addr : BitVec 64) (r : Nat) (b : Burst),
      routineNow s.mirror e = some r ∧ store ≠ 0 ∧ s.dev.burst e = some b ∧ b.fin = none ∧ s.dev.get .RAS_ENGCFG 7 0 = 0) ∧
    (∃ (s : State) (x : SramItem) (o : Fin 3) (island : Fin 41) (addr : BitVec 64), s.dev.ras.scrubbed.contains (x, addr.toNat) = false ∧
      s.mirror.flag .RAS_SCRUB 31 = false) ∧
    (∃ (s : State) (x : SramItem) (o : Fin 3) (island : Fin 41) (addr : BitVec 64), s.dev.ras.scrubbed.contains (x, addr.toNat) = false ∧
      s.mirror.flag .RAS_SCRUB 31 = true ∧ o = 0) ∧
    (∃ (s : State) (x : SramItem) (o : Fin 3) (island : Fin 41) (addr : BitVec 64), s.dev.ras.scrubbed.contains (x, addr.toNat) = false ∧
      s.mirror.flag .RAS_SCRUB 31 = true ∧ o = 1) :=
  ⟨⟨on (up 7 2), 7, 40, 7, .sramError (.link 7) false 40 7, (on (up 7 2)).mirror, .inl ⟨rfl, rfl⟩⟩,
    ⟨on (fun d => d.set .RAS_ENGCFG 7 0 0), 15, 40, 7, .sramError (.quad 15) false 40 7, (on (fun d => d.set .RAS_ENGCFG 7 0 0)).mirror,
      .inl ⟨rfl, rfl⟩, by decide +kernel⟩,
    ⟨dis 4 bst dsc (fun d => d.set .RAS_ENGCFG 7 0 0), 0, 40, 7, .sramError (.quad 0) false 40 7,
      (dis 4 bst dsc (fun d => d.set .RAS_ENGCFG 7 0 0)).mirror, 0, bst, .inl ⟨rfl, rfl⟩, by decide +kernel, by decide +kernel, by decide +kernel, rfl⟩,
    ⟨on (fun d => d.clear .RAS_CTL 31), .descriptors, 7, 40, 7, .sramError .descriptors false 40 7, (on (fun d => d.clear .RAS_CTL 31)).mirror,
      by decide, .inl ⟨rfl, rfl⟩, rfl, by decide +kernel⟩,
    ⟨on (fun d => d.clear .RAS_CTL 31), .service, 8, 40, 7, .sramScrubRead .service 2 40 7,
      scrubTurn (on (fun d => d.clear .RAS_CTL 31)).mirror .service 7, by decide, .inr ⟨rfl, rfl, by decide +kernel, by decide +kernel⟩, rfl,
      by decide +kernel⟩,
    ⟨on (trs fun t => { t with held := false }), .descriptors, 7, 40, 7, .sramError .descriptors false 40 7,
      (on (trs fun t => { t with held := false })).mirror, by decide, .inl ⟨rfl, rfl⟩, rfl, by decide +kernel⟩,
    ⟨on (fun d => d.set .RAS_ENGCFG 7 0 0), 15, 3, 8191, 319, 40, 7, .sramScrubRead (.control 15 3 8191 319) 2 40 7,
      scrubTurn (on (fun d => d.set .RAS_ENGCFG 7 0 0)).mirror (.control 15 3 8191 319) 7, .inr ⟨rfl, rfl, by decide +kernel, by decide +kernel⟩,
      by decide +kernel, .inl rfl⟩,
    ⟨on (fun d => d.set .RAS_ENGCFG 7 0 0), 0, 0, 3072, 64, 0, 7, .sramError (.control 0 0 3072 64) false 0 7,
      (on (fun d => d.set .RAS_ENGCFG 7 0 0)).mirror, .inl ⟨rfl, rfl⟩, by decide +kernel, .inr (by decide +kernel)⟩,
    ⟨eng [word 1 1 0 1, 2, 3] bst (fun d => d.set .RAS_ENGCFG 7 0 0), 0, 1, 6144, 64, 40, 7, 1, bst, by decide +kernel⟩,
    ⟨on (fun d => d.clear .RAS_SCRUB 31), .service, 2, 3, 5, by decide +kernel⟩,
    ⟨on (fun d => d.raise .RAS_SCRUB 31), .service, 0, 3, 5, by decide +kernel⟩,
    ⟨on (fun d => d.raise .RAS_SCRUB 31), .service, 1, 3, 5, by decide +kernel⟩⟩

theorem test_witness_engineService :
    (∃ (s : State) (p : Fin 8) (w : BitVec 32) (e : Nat), Admits s p .RAS_ENGCMD (setBit w 31 true) ∧ e = bits w 3 0 ∧
      s.mirror.flag .SCH_ENGEN (16 + e) = false ∧ s.dev.burst e = none ∧ committedTo s.dev e = none) ∧
    (∃ (s : State) (p : Fin 8) (w : BitVec 32) (e : Nat) (k : Nat) (x : Desc), Admits s p .RAS_ENGCMD (setBit w 31 true) ∧ e = bits w 3 0 ∧
      s.mirror.flag .SCH_ENGEN (16 + e) = false ∧ s.dev.burst e = none ∧ committedTo s.dev e = none ∧
      (s.dev.descs.filter (fun y => y.2.aff = 2 && y.2.engine = e && !y.2.dispatched) = [(k, x)])) ∧
    (∃ (s : State) (p : Fin 8) (w : BitVec 32) (e : Nat) (b : Burst), Admits s p .RAS_ENGCMD (setBit w 31 true) ∧ e = bits w 3 0 ∧
      s.mirror.flag .SCH_ENGEN (16 + e) = false ∧ s.dev.burst e = some b ∧ b.fin = none) ∧
    (∃ (s : State) (p : Fin 8) (w : BitVec 32) (e : Nat) (slot : Nat) (x : Desc), Admits s p .RAS_ENGCMD (setBit w 31 true) ∧ e = bits w 3 0 ∧
      s.mirror.flag .SCH_ENGEN (16 + e) = false ∧ committedTo s.dev e = some (slot, x) ∧ cycleOf x.commitAt ≠ cycleOf s.clock.now) ∧
    (∃ (s : State) (p : Fin 8) (w : BitVec 32) (e : Nat) (slot : Nat) (x : Desc), Admits s p .RAS_ENGCMD (setBit w 31 true) ∧ e = bits w 3 0 ∧
      s.mirror.flag .SCH_ENGEN (16 + e) = false ∧ committedTo s.dev e = some (slot, x) ∧ cycleOf x.commitAt = cycleOf s.clock.now ∧
      s.dev.desc slot = some x ∧ x.aff ≠ 2) ∧
    (∃ (e : Nat) (b : Burst) (c : Nat) (a : Nat) (st : Bool), b.fin = some (.fault c a st)) ∧
    (∃ (s : State) (p : Fin 8) (w : BitVec 32) (e : Nat), Admits s p .RAS_ENGCMD (setBit (setBit w 31 false) 30 true) ∧ e = bits w 3 0 ∧
      s.mirror.flag .SCH_ENGEN (16 + e) = true ∧ s.dev.ras.march = none) ∧
    (∃ (s : State) (p : Fin 8) (w : BitVec 32) (e : Nat), Admits s p .RAS_ENGCMD (setBit (setBit w 31 false) 30 true) ∧ e = bits w 3 0 ∧
      s.mirror.flag .SCH_ENGEN (16 + e) = false) ∧
    (∃ (s : State) (e : Nat), s.dev.ras.march = some e ∧ s.dev.burst e = none) ∧
    (∃ (s : State) (e : Nat), s.dev.ras.march = some e) ∧
    (∃ (s : State) (p : Fin 8) (w : Word), Admits s p .RAS_LOGSEL w) :=
  ⟨⟨on (fun d => D d 7 { dsc with aff := 2, engine := 15, place := .ready }), 0, 15, 15, by unfold Admits; decide +kernel⟩,
    ⟨on (fun d => D d 7 { dsc with aff := 2, engine := 15, place := .ready }), 0, 15, 15, 7, { dsc with aff := 2, engine := 15, place := .ready },
      by unfold Admits; decide +kernel⟩,
    ⟨dis 4 bst dsc, 0, 0, 0, bst, by unfold Admits; decide +kernel⟩,
    ⟨on (fun d => (sited d).putDesc 0 (some dsc)) (2 * micro1), 0, 0, 0, 0, dsc, by unfold Admits; decide +kernel⟩,
    ⟨on (fun d => (sited d).putDesc 0 (some dsc)), 0, 0, 0, 0, dsc, by unfold Admits; decide +kernel⟩,
    ⟨3, { bst with fin := some (.fault 0x25 0 false) }, 0x25, 0, false, by decide +kernel⟩,
    ⟨on (fun d => d.raise .SCH_ENGEN 31), 0, 15, 15, by unfold Admits; decide +kernel⟩,
    ⟨on id, 0, 15, 15, by unfold Admits; decide +kernel⟩,
    ⟨on (fun d => d.modRas fun x => { x with march := some 15 }), 15, by decide +kernel⟩,
    ⟨on (fun d => d.modRas fun x => { x with march := some 15 }), 15, by decide +kernel⟩,
    ⟨on id, 0, 0xFFFFFFFF, by unfold Admits; decide +kernel⟩⟩

theorem test_witness_resetsAndRelease1 :
    (∃ (i : Instr) (s : State) (r : Fin 8) (low : Nat) (kind : Nat) (cause : Nat), micro1 ≤ low ∧
      (i, kind, cause) ∈ [(Instr.resetNAssert low, 1, 3), (.powerFail none (low + micro1), 0, 1), (.powerFail (some r) low, 0, 2)] ∧
      s.dev.trust.held = false) ∧
    (∃ (i : Instr) (s : State) (r : Fin 8) (low : Nat) (kind : Nat) (cause : Nat), micro1 ≤ low ∧
      (i, kind, cause) ∈ [(Instr.resetNAssert low, 1, 3), (.powerFail none (low + micro1), 0, 1), (.powerFail (some r) low, 0, 2)] ∧
      s.dev.trust.held = false) ∧
    (∃ (i : Instr) (s : State) (r : Fin 8) (low : Nat) (kind : Nat) (cause : Nat), micro1 ≤ low ∧
      (i, kind, cause) ∈ [(Instr.resetNAssert low, 1, 3), (.powerFail none (low + micro1), 0, 1), (.powerFail (some r) low, 0, 2)] ∧
      s.dev.trust.held = false) ∧
    (∃ (s : State) (low : Nat), low < 200 * nano1) ∧
    (∃ (s : State) (low : Nat), low < 2 * micro1) ∧
    (∃ (s : State) (r : Fin 8) (low : Nat), low < micro1) ∧
    (∃ (s : State) (p : Fin 8) (w : BitVec 32), Admits s p .GLB_RST (setBit w 31 true) ∧ s.dev.trust.held = false) ∧
    (∃ (s : State) (p : Fin 8) (w : BitVec 32), Admits s p .GLB_RST (setBit (setBit w 31 false) 30 true) ∧ s.dev.trust.held = false ∧
      s.dev.dram.held = []) ∧
    (∃ (d : Dev) (slot : Nat) (x : Desc), d.descs = [(slot, x)]) ∧
    (∃ (s : State) (flash : List Byte), s.dev.trust.held = true ∧ s.dev.trust.failed = false) ∧
    (∃ (s : State) (pkg : List Byte) (passed : BitVec 16), s.dev.trust.held = false ∧ s.dev.trust.bootPkg = false ∧ s.dev.trust.fwKey.isSome = true) ∧
    (∃ (s : State) (pkg : List Byte) (passed : BitVec 16), (s.dev.trust.held = true ∨ s.dev.trust.bootPkg = true)) :=
  ⟨⟨.resetNAssert micro1, on (trs fun t => { t with held := false }), 0, micro1, 1, 3, by decide +kernel⟩,
    ⟨.powerFail none (2 * micro1), on (trs fun t => { t with held := false }) 77, 0, micro1, 0, 1, by decide +kernel⟩,
    ⟨.powerFail (some 7) micro1, on (trs fun t => { t with held := false }) 77, 7, micro1, 0, 2, by decide +kernel⟩,
    ⟨on id, 200 * nano1 - 1, by decide +kernel⟩,
    ⟨on id, 2 * micro1 - 1, by decide +kernel⟩,
    ⟨on id, 7, micro1 - 1, by decide +kernel⟩,
    ⟨on (trs fun t => { t with held := false }), 0, 0, by unfold Admits; decide +kernel⟩,
    ⟨on (trs fun t => { t with held := false }), 0, 0, by unfold Admits; decide +kernel⟩,
    ⟨(on (fun d => D d 7 dsc)).dev, 7, dsc, by decide +kernel⟩,
    ⟨on id 77, [1], by decide +kernel⟩,
    ⟨{ State.reset with dev := trs (fun t => { t with held := false, fwKey := some 0 }) State.reset.dev }, [], 0, by decide +kernel⟩,
    ⟨on id, [], 0, .inl (by decide +kernel)⟩⟩

theorem test_witness_resetsAndRelease2 :
    (∃ (s : State) (pkg : List Byte) (passed : BitVec 16), (s.dev.trust.held = true ∨ s.dev.trust.bootPkg = true)) ∧
    (∃ (s : State) (pkg : List Byte) (passed : BitVec 16), s.dev.trust.held = false ∧ s.dev.trust.bootPkg = false ∧ s.dev.trust.fwKey = none) :=
  ⟨⟨{ State.reset with dev := trs (fun t => { t with held := false, bootPkg := true }) State.reset.dev }, [], 0, .inr (by decide +kernel)⟩,
    ⟨{ State.reset with dev := trs (fun t => { t with held := false }) State.reset.dev }, [], 0, by decide +kernel⟩⟩

theorem test_witness_supplyAndStandby1 :
    (∃ (s : State) (vin : BitVec 16) (pin : BitVec 16) (rails : List (BitVec 16)) (cores : List (BitVec 16)), rails.length = 8 ∧ cores.length = 41 ∧
      (∀ t, s.dev.polls.get none 2 = some t → t + 10 * micro1 ≤ s.clock.now)) ∧
    (∃ (s : State) (vin : BitVec 16) (pin : BitVec 16) (rails : List (BitVec 16)) (cores : List (BitVec 16)), rails.length = 8 ∧ cores.length = 41 ∧
      (∀ t, s.dev.polls.get none 2 = some t → t + 10 * micro1 ≤ s.clock.now)) ∧
    (∃ (s : State) (vin : BitVec 16) (pin : BitVec 16) (rails : List (BitVec 16)) (cores : List (BitVec 16)), rails.length = 8 ∧ cores.length = 41 ∧
      (∀ t, s.dev.polls.get none 2 = some t → t + 10 * micro1 ≤ s.clock.now)) ∧
    (∃ (s : State) (p : Fin 8) (w : BitVec 32), Admits s p .GLB_WDOG (setBit w 30 true)) ∧
    (∃ (s : State), s.dev.flag .GLB_WDOG 31 = true ∧ s.dev.trust.kick + s.dev.wdogTimeout ≤ s.clock.now ∧ s.dev.trust.held = false) ∧
    (∃ (s : State), s.dev.flag .GLB_WDOG 31 = true ∧ s.dev.trust.kick + s.dev.wdogTimeout ≤ s.clock.now ∧ s.dev.trust.held = false) ∧
    (∃ (s : State) (p : Fin 8) (w : BitVec 32), Admits s p .GLB_PWR (setBit w 31 true) ∧ standbyRefused s.dev = true ∧ bit w 30 = false) ∧
    (∃ (s : State) (p : Fin 8) (w : BitVec 32), Admits s p .GLB_PWR (setBit w 31 true) ∧ standbyRefused s.dev = false ∧ bit w 30 = false ∧
      s.dev.dramState = 0) ∧
    (∃ (s : State) (high : Nat) (low : Nat), (high < 200 * nano1 ∨ low < 200 * nano1)) ∧
    (∃ (s : State) (high : Nat) (low : Nat), (high < 200 * nano1 ∨ low < 200 * nano1)) ∧
    (∃ (s : State) (high : Nat) (low : Nat), 200 * nano1 ≤ high ∧ 200 * nano1 ≤ low ∧ s.dev.pwrState = 2 ∧ s.dev.dramState = 2) ∧
    (∃ (s : State) (p : Fin 8) (w : BitVec 32), Admits s p .GLB_PWR (setBit (setBit w 31 false) 30 true) ∧ s.dev.pwrState = 2 ∧ s.dev.dramState = 2) :=
  ⟨⟨on id, 12000, 5, List.replicate 8 9000, List.replicate 41 7500, by decide, by decide, none_all (by decide +kernel)⟩,
    ⟨on (fun d => d.set .GLB_VIN 15 0 12000), 8699, 5, List.replicate 8 9000, 3 :: List.replicate 40 7500, by decide, by decide,
      none_all (by decide +kernel)⟩,
    ⟨on id, 0, 0, List.replicate 8 9000, List.replicate 41 0, by decide, by decide, none_all (by decide +kernel)⟩,
    ⟨on id, 0, 5, by unfold Admits; decide +kernel⟩,
    ⟨on (fun d => (trs (fun t => { t with held := false }) d).raise .GLB_WDOG 31 |>.set .GLB_WDOG 15 0 1) milli1, by decide +kernel⟩,
    ⟨on (fun d => (trs (fun t => { t with held := false }) d).raise .GLB_WDOG 31 |>.set .GLB_WDOG 15 0 0) (65536 * milli1), by decide +kernel⟩,
    ⟨on (fun d => d.set .GLB_PWRSTAT 31 30 1), 0, 0, by unfold Admits; decide +kernel⟩,
    ⟨on id, 0, 0, by unfold Admits; decide +kernel⟩,
    ⟨on id, 200 * nano1 - 1, 200 * nano1, .inl (by decide)⟩,
    ⟨on id, 200 * nano1, 200 * nano1 - 1, .inr (by decide)⟩,
    ⟨on (fun d => (d.set .GLB_PWRSTAT 31 30 2).set .DRC_PWR 25 24 2), 200 * nano1, 200 * nano1, by decide +kernel⟩,
    ⟨on (fun d => (d.set .GLB_PWRSTAT 31 30 2).set .DRC_PWR 25 24 2), 0, 0, by unfold Admits; decide +kernel⟩⟩

theorem test_witness_supplyAndStandby2 :
    ∃ (s : State), s.dev.trust.resuming = true ∧ s.dev.dramActive = true ∧ (∀ k, k < 8 → s.dev.flag (.CUF_PLL k) 31 = true) :=
  ⟨on (fun d => ((List.range 8).foldl (fun d k => d.raise (.CUF_PLL k) 31) (trs (fun t => { t with resuming := true }) d)).set .GLB_PWRSTAT 31 30 3),
      by decide +kernel⟩

theorem test_witness_images1 :
    (∃ (s : State) (p : Fin 8) (w : BitVec 32), Admits s p .TRU_IMGCTL (setBit (setBit w 29 false) 31 true) ∧ s.dev.trust.image = none ∧
      bit w 30 = false) ∧
    (∃ (s : State) (p : Fin 8) (w : Word) (x : ImageLoad), Admits s p .TRU_IMGDATA w ∧ s.dev.trust.image = some x ∧ x.checking = false ∧
      (20 ≤ x.data.length + 4 → (x.data ++ toBytes 4 w.toNat).length ≤ imgBody (x.data ++ toBytes 4 w.toNat) + 256)) ∧
    (∃ (s : State) (p : Fin 8) (w : Word) (x : ImageLoad), Admits s p .TRU_IMGDATA w ∧ s.dev.trust.image = some x ∧ x.checking = false ∧
      (20 ≤ x.data.length + 4 → (x.data ++ toBytes 4 w.toNat).length ≤ imgBody (x.data ++ toBytes 4 w.toNat) + 256)) ∧
    (∃ (s : State) (p : Fin 8) (w : Word) (x : ImageLoad), Admits s p .TRU_IMGDATA w ∧ s.dev.trust.image = some x ∧ x.checking = true) ∧
    (∃ (s : State) (p : Fin 8) (w : Word) (x : ImageLoad), Admits s p .TRU_IMGDATA w ∧ s.dev.trust.image = some x ∧ x.checking = false ∧
      20 ≤ x.data.length + 4 ∧ imgBody (x.data ++ toBytes 4 w.toNat) + 256 < x.data.length + 4) ∧
    (∃ (s : State) (p : Fin 8) (w : BitVec 32) (x : ImageLoad), Admits s p .TRU_IMGCTL (setBit (setBit w 29 false) 31 true) ∧
      s.dev.trust.image = some x ∧ x.boot = none ∧ bit w 30 = false) ∧
    (∃ (s : State) (p : Fin 8) (w : BitVec 32) (x : ImageLoad), Admits s p .TRU_IMGCTL (setBit (setBit w 29 false) 30 true) ∧
      s.dev.trust.image = some x ∧ x.boot = none ∧ bit w 31 = false) ∧
    (∃ (s : State) (p : Fin 8) (w : BitVec 32) (x : ImageLoad), Admits s p .TRU_IMGCTL (setBit w 29 true) ∧ s.dev.trust.image = some x ∧
      x.boot = none) ∧
    (∃ (i : Instr) (s : State) (p : Fin 8) (w : Word) (v : State), i ∈ [Instr.imageStart p w, .imageFinish p w, .imageAbort p w] ∧
      bootLoads s.dev = true ∧ exec i s = .next v) ∧
    (∃ (s : State) (x : ImageLoad), s.dev.trust.image = some x ∧ x.checking = true ∧ x.boot = none ∧ imageCheck s.mirror x.kind x.data ≠ 0) ∧
    (∃ (s : State) (x : ImageLoad), s.dev.trust.image = some x ∧ x.checking = true ∧ x.boot = none ∧ x.kind = kFirmware ∧ s.dev.trust.held = false) ∧
    (∃ (s : State) (x : ImageLoad), s.dev.trust.image = some x ∧ x.checking = true ∧ x.boot = none ∧ x.kind = kPackage) :=
  ⟨⟨on id, 0, 2, by unfold Admits; decide +kernel⟩,
    ⟨on (trs fun t => { t with image := some { kind := 2, data := List.replicate 12 0 } }), 0, 5, { kind := 2, data := List.replicate 12 0 },
      by unfold Admits; decide +kernel⟩,
    ⟨on (trs fun t => { t with image := some { kind := 2, data := List.replicate 252 0 } }), 0, 5, { kind := 2, data := List.replicate 252 0 },
      by unfold Admits; decide +kernel⟩,
    ⟨on (trs fun t => { t with image := some { kind := 2, data := [], checking := true } }), 0, 5, { kind := 2, data := [], checking := true },
      by unfold Admits; decide +kernel⟩,
    ⟨on (trs fun t => { t with image := some { kind := 2, data := List.replicate 256 0 } }), 0, 5, { kind := 2, data := List.replicate 256 0 },
      by unfold Admits; decide +kernel⟩,
    ⟨on (trs fun t => { t with image := some { kind := 1, data := [] } }), 0, 5, { kind := 1, data := [] }, by unfold Admits; decide +kernel⟩,
    ⟨on (trs fun t => { t with image := some { kind := 2, data := [] } }), 0, 5, { kind := 2, data := [] }, by unfold Admits; decide +kernel⟩,
    ⟨on (trs fun t => { t with image := some { kind := 2, data := [] } }), 0, 0xC0000005, { kind := 2, data := [] }, by unfold Admits; decide +kernel⟩,
    ⟨.imageStart 0 1, on (trs fun t => { t with image := some { kind := 1, data := [], boot := some true } }), 0, 1,
      nx (exec (.imageStart 0 1) (on (trs fun t => { t with image := some { kind := 1, data := [], boot := some true } }))), by decide +kernel,
      by decide +kernel, rfl⟩,
    ⟨on (trs fun t => { t with image := some { kind := 2, data := [], checking := true } }), { kind := 2, data := [], checking := true },
      by decide +kernel⟩,
    ⟨on (trs fun t => { t with held := false, image := some { kind := 1, data := [], checking := true } }),
      { kind := 1, data := [], checking := true }, by decide +kernel⟩,
    ⟨on (trs fun t => { t with image := some { kind := 2, data := [], checking := true } }), { kind := 2, data := [], checking := true },
      by decide +kernel⟩⟩

theorem test_witness_images2 :
    (∃ (s : State) (x : ImageLoad) (flash : Bool), s.dev.trust.image = some x ∧ x.checking = true ∧ x.boot = some flash) ∧
    (∃ (s : State) (x : ImageLoad) (flash : Bool), s.dev.trust.image = some x ∧ x.checking = true ∧ x.boot = some flash ∧
      imageCheck s.mirror kFirmware x.data ≠ 0) :=
  ⟨⟨on (trs fun t => { t with image := some { kind := 1, data := [], checking := true, boot := some false } }),
      { kind := 1, data := [], checking := true, boot := some false }, false, by decide +kernel⟩,
    ⟨on (trs fun t => { t with image := some { kind := 1, data := [], checking := true, boot := some false } }),
      { kind := 1, data := [], checking := true, boot := some false }, false, by decide +kernel⟩⟩

theorem test_witness_securityVersions :
    (∃ (s : State) (p : Fin 8) (w : Word), Admits s p .TRU_SVN w ∧ s.dev.trust.otp.fwMin ≤ bits w 13 0 ∧ s.dev.trust.otp.pkgMin ≤ bits w 27 14 ∧
      (∀ k, s.dev.trust.fwKey = some k → inSet (bits w 31 28) k = false)) ∧
    (∃ (s : State) (p : Fin 8) (w : Word), Admits s p .TRU_SVN w ∧
      (bits w 13 0 < s.dev.trust.otp.fwMin ∨ bits w 27 14 < s.dev.trust.otp.pkgMin ∨ ∃ k, s.dev.trust.fwKey = some k ∧ inSet (bits w 31 28) k = true)) ∧
    (∃ (s : State) (p : Fin 8) (w : Word), Admits s p .TRU_SVN w ∧
      (bits w 13 0 < s.dev.trust.otp.fwMin ∨ bits w 27 14 < s.dev.trust.otp.pkgMin ∨ ∃ k, s.dev.trust.fwKey = some k ∧ inSet (bits w 31 28) k = true)) ∧
    (∃ (s : State) (p : Fin 8) (w : Word) (back : Nat), Admits s p .TRU_LOGSEL w ∧ s.dev.trust.logPos < 2 ^ 32 ∧ w.toNat ≤ s.dev.trust.logPos ∧
      back = s.dev.trust.logPos - w.toNat) ∧
    (∃ (s : State) (p : Fin 8) (w : Word) (back : Nat), Admits s p .TRU_LOGSEL w ∧ s.dev.trust.logPos < 2 ^ 32 ∧ w.toNat ≤ s.dev.trust.logPos ∧
      back = s.dev.trust.logPos - w.toNat) :=
  ⟨⟨on (trs fun t => { t with fwKey := some 0, otp := { t.otp with fwMin := 5, pkgMin := 6 } }), 0,
      BitVec.ofNat 32 (0xE * 2 ^ 28 + 6 * 2 ^ 14 + 5), by unfold Admits; decide +kernel⟩,
    ⟨on (trs fun t => { t with fwKey := some 0, otp := { t.otp with fwMin := 5, pkgMin := 6 } }), 0,
      BitVec.ofNat 32 (0x1 * 2 ^ 28 + 6 * 2 ^ 14 + 5), by unfold Admits; decide +kernel⟩,
    ⟨on (trs fun t => { t with fwKey := some 0, otp := { t.otp with fwMin := 5, pkgMin := 6 } }), 0, BitVec.ofNat 32 (6 * 2 ^ 14 + 4),
      by unfold Admits; decide +kernel⟩,
    ⟨on (trs fun t => { t with logPos := 1, log := [List.replicate 64 5] }), 0, 0, 1, by unfold Admits; decide +kernel⟩,
    ⟨on (trs fun t => { t with logPos := 1, log := [List.replicate 64 5] }), 0, 1, 0, by unfold Admits; decide +kernel⟩⟩

theorem test_witness_lifeCycleAndQuotes1 :
    (∃ (s : State) (p : Fin 8) (w : BitVec 32), Admits s p .TRU_LCREQ (setBit w 31 true) ∧ lcAllowed s.dev.trust.otp.lc (bits w 2 0) = true ∧
      bits w 2 0 ≠ lcProvisioned ∧ s.dev.trust.held = false) ∧
    (∃ (s : State) (p : Fin 8) (w : BitVec 32), Admits s p .TRU_LCREQ (setBit w 31 true) ∧ lcAllowed s.dev.trust.otp.lc (bits w 2 0) = true ∧
      bits w 2 0 ≠ lcProvisioned ∧ s.dev.trust.held = false) ∧
    (∃ (s : State) (p : Fin 8) (w : BitVec 32), Admits s p .TRU_LCREQ (setBit w 31 true) ∧ lcAllowed s.dev.trust.otp.lc (bits w 2 0) = true ∧
      bits w 2 0 = lcProvisioned ∧ s.dev.trust.otp.abandoned < 2 ∧ s.dev.trust.held = false) ∧
    (∃ (s : State) (p : Fin 8) (w : BitVec 32) (cut : Bool), Admits s p .TRU_LCREQ (setBit w 31 true) ∧
      lcAllowed s.dev.trust.otp.lc (bits w 2 0) = false) ∧
    (∃ (s : State) (p : Fin 8) (w : BitVec 32) (cut : Bool), Admits s p .TRU_LCREQ (setBit w 31 true) ∧
      lcAllowed s.dev.trust.otp.lc (bits w 2 0) = false) ∧
    (∃ (s : State) (p : Fin 8) (w : BitVec 32) (cut : Bool), Admits s p .TRU_LCREQ (setBit w 31 true) ∧
      lcAllowed s.dev.trust.otp.lc (bits w 2 0) = true ∧ bits w 2 0 = lcProvisioned ∧ 2 ≤ s.dev.trust.otp.abandoned) ∧
    (∃ (s : State) (p : Fin 8) (w : BitVec 32), Admits s p .TRU_LCREQ (setBit w 31 true) ∧ lcAllowed s.dev.trust.otp.lc (bits w 2 0) = true ∧
      (bits w 2 0 = lcProvisioned → s.dev.trust.otp.abandoned < 2)) ∧
    (∃ (s : State) (p : Fin 8) (w : BitVec 32), Admits s p .TRU_LCREQ (setBit w 31 true) ∧ lcAllowed s.dev.trust.otp.lc (bits w 2 0) = true ∧
      (bits w 2 0 = lcProvisioned → s.dev.trust.otp.abandoned < 2)) ∧
    (∃ (s : State) (p : Fin 8) (w : BitVec 32), Admits s p .TRU_LCREQ (setBit w 31 true) ∧ lcAllowed s.dev.trust.otp.lc (bits w 2 0) = true ∧
      (bits w 2 0 = lcProvisioned → s.dev.trust.otp.abandoned < 2)) ∧
    (∃ (s : State) (p : Fin 8) (w : BitVec 32), Admits s p (.TRU_QCTL p) (setBit w 31 true) ∧ s.mirror.flag (.TRU_QSTAT p) 31 = false) ∧
    (∃ (s : State) (p : Fin 8) (w : BitVec 32), Admits s p (.TRU_QCTL p) (setBit w 31 true) ∧ s.mirror.flag (.TRU_QSTAT p) 31 = true) ∧
    (∃ (s : State) (p : Nat) (nonce : List Byte) (rest : List SignReq), s.dev.trust.signing = .quote p nonce :: rest ∧ s.dev.trust.otp.key = none) :=
  ⟨⟨on (trs fun t => { t with held := false, otp := { t.otp with lc := 3, key := some 5 } }), 0, 4, by unfold Admits; decide +kernel⟩,
    ⟨on (trs fun t => { t with held := false, otp := { t.otp with lc := 1, key := some 5 } }), 0, 2, by unfold Admits; decide +kernel⟩,
    ⟨on (trs fun t => { t with held := false }), 0, 1, by unfold Admits; decide +kernel⟩,
    ⟨on id, 0, 2, true, by unfold Admits; decide +kernel⟩,
    ⟨on (trs fun t => { t with otp := { t.otp with lc := 4 } }), 0, 4, false, by unfold Admits; decide +kernel⟩,
    ⟨on (trs fun t => { t with otp := { t.otp with lc := 0, abandoned := 2 } }), 0, 1, true, by unfold Admits; decide +kernel⟩,
    ⟨on (trs fun t => { t with otp := { t.otp with lc := 0, abandoned := 1 } }), 0, 1, by unfold Admits; decide +kernel, by decide +kernel⟩,
    ⟨on (trs fun t => { t with otp := { t.otp with lc := 1, key := some 5 } }), 0, 4, by unfold Admits; decide +kernel, by decide +kernel⟩,
    ⟨on (trs fun t => { t with otp := { t.otp with lc := 2, key := some 5 } }), 0, 3, by unfold Admits; decide +kernel, by decide +kernel⟩,
    ⟨on id, 7, 0, by unfold Admits; decide +kernel⟩,
    ⟨on (fun d => d.raise (.TRU_QSTAT 7) 31), 7, 0, by unfold Admits; decide +kernel⟩,
    ⟨on (trs fun t => { t with signing := [.quote 7 []] }), 7, [], [], by decide +kernel⟩⟩

theorem test_witness_lifeCycleAndQuotes2 :
    ∃ (s : State) (p : Nat) (nonce : List Byte) (rest : List SignReq) (k : Nat), s.dev.trust.signing = .quote p nonce :: rest ∧ p < 8 ∧
      s.dev.trust.otp.key = some k :=
  ⟨on (trs fun t => { t with signing := [.quote 7 []], otp := { t.otp with key := some 5 } }), 7, [], [], 5, by decide +kernel⟩

theorem test_witness_testAccessAndMailboxes1 :
    (∃ (s : State) (trst : Option Nat), (∀ n, trst = some n → 20 * nano1 ≤ n)) ∧
    (∃ (s : State) (trst : Option Nat), (∀ n, trst = some n → 20 * nano1 ≤ n)) ∧
    (∃ (s : State) (n : Nat), n < 20 * nano1) ∧
    (∃ (i : Instr) (k : JtagInstr) (s : State) (sample : List Bool) (shifted : List Bool),
      (i, k) ∈ [(Instr.extest sample shifted, JtagInstr.extest), (.extestPulse sample shifted, .extestPulse), (.extestTrain sample shifted, .extestTrain)]) ∧
    (∃ (i : Instr) (k : JtagInstr) (s : State) (sample : List Bool) (shifted : List Bool),
      (i, k) ∈ [(Instr.extest sample shifted, JtagInstr.extest), (.extestPulse sample shifted, .extestPulse), (.extestTrain sample shifted, .extestTrain)]) ∧
    (∃ (i : Instr) (k : JtagInstr) (s : State) (sample : List Bool) (shifted : List Bool),
      (i, k) ∈ [(Instr.extest sample shifted, JtagInstr.extest), (.extestPulse sample shifted, .extestPulse), (.extestTrain sample shifted, .extestTrain)]) ∧
    (∃ (i : Instr) (k : JtagInstr) (s : State) (tdi : Bool), (i, k) ∈ [(Instr.clamp tdi, JtagInstr.clamp), (.highz tdi, .highz)]) ∧
    (∃ (i : Instr) (k : JtagInstr) (s : State) (tdi : Bool), (i, k) ∈ [(Instr.clamp tdi, JtagInstr.clamp), (.highz tdi, .highz)]) ∧
    (∃ (s : State) (p : Fin 8) (w : Word), Admits s p (.MBX_SEL p) w ∧ bits w 7 0 = 0 ∧
      mbxValue s.mirror (bits w 31 24) (bits w 23 16) (bits w 15 8) ≠ none ∧ (s.dev.port p).mbx = none ∧ s.mirror.flag (.MBX_STAT p) 31 = false) ∧
    (∃ (s : State) (p : Fin 8) (w : Word), Admits s p (.MBX_SEL p) w ∧ bits w 7 0 = 0 ∧
      mbxValue s.mirror (bits w 31 24) (bits w 23 16) (bits w 15 8) ≠ none ∧ (s.dev.port p).mbx.isSome = true) ∧
    (∃ (s : State) (p : Fin 8) (w : Word), Admits s p (.MBX_SEL p) w ∧
      (bits w 7 0 ≠ 0 ∨ mbxValue s.mirror (bits w 31 24) (bits w 23 16) (bits w 15 8) = none)) ∧
    (∃ (s : State) (p : Fin 8) (w : Word), Admits s p (.MBX_SEL p) w ∧
      (bits w 7 0 ≠ 0 ∨ mbxValue s.mirror (bits w 31 24) (bits w 23 16) (bits w 15 8) = none)) :=
  ⟨⟨on (fun d => { d with jtag := { d.jtag with instr := .extest } }), some (20 * nano1), fun n h => by cases h; decide +kernel⟩,
    ⟨on (fun d => { d with jtag := { d.jtag with instr := .extest } }), none, fun n h => by cases h⟩,
    ⟨on id, 20 * nano1 - 1, by decide +kernel⟩,
    ⟨.extest [true] [false, true], .extest, on id, [true], [false, true], by decide +kernel⟩,
    ⟨.extestPulse [true] [false, true], .extestPulse, on id, [true], [false, true], by decide +kernel⟩,
    ⟨.extestTrain [] [], .extestTrain, on id, [], [], by decide +kernel⟩,
    ⟨.clamp true, .clamp, on id, true, by decide +kernel⟩,
    ⟨.highz false, .highz, on id, false, by decide +kernel⟩,
    ⟨on id, 7, 0, by unfold Admits; decide +kernel⟩,
    ⟨on (fun d => d.modPort 7 fun x => { x with mbx := some (0, 0, 0) }), 7, 0, by unfold Admits; decide +kernel⟩,
    ⟨on id, 7, 1, by unfold Admits; decide +kernel⟩,
    ⟨on id, 7, 0xFF000000, by unfold Admits; decide +kernel⟩⟩

theorem test_witness_testAccessAndMailboxes2 :
    (∃ (s : State) (p : Fin 8) (t : Nat) (row : Nat) (inst : Nat) (v : Wide), (s.dev.port p).mbx = some (t, row, inst) ∧
      mbxValue s.mirror t row inst = some v ∧ (¬ (t = 7 ∧ row = 12))) ∧
    (∃ (s : State) (p : Fin 8), s.dev.accepts p = true ∧ s.mirror.get (.MBX_STAT p) 2 0 ≠ 0) :=
  ⟨⟨on (fun d => d.modPort 7 fun x => { x with mbx := some (0, 1, 0) }), 7, 0, 1, 0, (w96 0).get (by decide), by decide +kernel⟩,
    ⟨on (fun d => d.raise (.MBX_STAT 7) 31 |>.set (.MBX_STAT 7) 2 0 1), 7, by decide +kernel⟩⟩

theorem test_witness_laneStages1 :
    (∃ (s : State) (l : Fin 28) (step : Fin 32), s.mirror.stage l = sgCdr ∧ (s.mirror.sched.jtagHold = false ∨ s.mirror.looped l = true)) ∧
    (∃ (s : State) (l : Fin 28) (step : Fin 32), (s.mirror.stage l ≠ sgCdr ∨ (s.mirror.sched.jtagHold = true ∧ s.mirror.looped l = false))) ∧
    (∃ (s : State) (l : Fin 28) (hdr : BitVec 16), s.mirror.stage l = sgBlock) ∧
    (∃ (s : State) (l : Fin 28) (hdr : BitVec 16), s.mirror.stage l ≠ sgBlock) ∧
    (∃ (s : State) (l : Fin 28) (b : Block) (apart : Nat) (bip : BitVec 16) (hdr : BitVec 16) (track : Fin 3) (d : Dev), d = sendMarks s.mirror l ∧
      (d.stage l < sgMarker ∨ d.stage l = sgFailed)) ∧
    (∃ (s : State) (l : Fin 28) (b : Block) (apart : Nat) (bip : BitVec 16) (hdr : BitVec 16) (track : Fin 3) (d : Dev), d = sendMarks s.mirror l ∧
      sgMarker ≤ d.stage l ∧ d.stage l ≤ sgUp) ∧
    (∃ (s : State) (l : Fin 28) (b : Block) (apart : Nat) (bip : BitVec 16) (hdr : BitVec 16) (track : Fin 3) (d : Dev), d = sendMarks s.mirror l ∧
      sgMarker ≤ d.stage l ∧ d.stage l ≤ sgUp) ∧
    (∃ (s : State) (l : Fin 28) (b : Block) (apart : Nat) (bip : BitVec 16) (hdr : BitVec 16) (track : Fin 3) (d : Dev), d = sendMarks s.mirror l ∧
      sgMarker ≤ d.stage l ∧ d.stage l ≤ sgUp) ∧
    (∃ (s : State) (l : Fin 28) (b : BitVec 128) (bip : BitVec 16) (hdr : BitVec 16) (track : Fin 3) (n : Nat) (d : Dev), d = sendMarks s.mirror l ∧
      d.stage l = sgMarker ∧ (d.lane l).seq = some n ∧ bits b 119 96 = (n + 1) % 2 ^ 24 ∧ d.looped l = false ∧ 16 ≤ l.val ∧
      card 16 (bip.toNat ^^^ bits b 79 64) ≤ d.get (.LAN_ERRCFG l) 7 0) ∧
    (∃ (s : State) (l : Fin 28) (b : BitVec 128) (bip : BitVec 16) (hdr : BitVec 16) (track : Fin 3) (n : Nat) (d : Dev), d = sendMarks s.mirror l ∧
      d.stage l = sgMarker ∧ (d.lane l).seq = some n ∧ bits b 119 96 = (n + 1) % 2 ^ 24 ∧ d.looped l = false ∧ l.val < 16 ∧
      (d.port (d.lanePort l)).rateNext = none ∧ d.portUp (d.lanePort l) = false ∧
      (∃ m ∈ d.bundle (d.lanePort l), m ≠ l.val ∧ (d.stage m = sgBlock ∨ d.stage m = sgMarker) ∧ d.looped m = false)) ∧
    (∃ (s : State) (l : Fin 28) (b : BitVec 128) (bip : BitVec 16) (hdr : BitVec 16) (track : Fin 3) (n : Nat) (d : Dev), d = sendMarks s.mirror l ∧
      d.stage l = sgMarker ∧ (d.lane l).seq = some n ∧ bits b 119 96 = (n + 1) % 2 ^ 24 ∧ d.looped l = false ∧ l.val < 16 ∧
      (d.port (d.lanePort l)).rateNext = none ∧ d.portUp (d.lanePort l) = false ∧ d.bundle (d.lanePort l) = [l.val]) ∧
    (∃ (s : State) (l : Fin 28) (b : BitVec 128) (bip : BitVec 16) (hdr : BitVec 16) (track : Fin 3) (n : Nat) (d : Dev), d = sendMarks s.mirror l ∧
      d.stage l = sgMarker ∧ (d.lane l).seq = some n ∧ bits b 119 96 = (n + 1) % 2 ^ 24 ∧ d.looped l = false ∧ l.val < 16 ∧
      (d.port (d.lanePort l)).rateNext = none ∧ d.portUp (d.lanePort l) = true ∧ card 16 (bip.toNat ^^^ bits b 79 64) ≤ d.get (.LAN_ERRCFG l) 7 0) :=
  ⟨⟨on (lane 27 1), 27, 31, by decide +kernel⟩,
    ⟨on id, 0, 0, by decide +kernel⟩,
    ⟨on (lane 27 2), 27, 65535, by decide +kernel⟩,
    ⟨on id, 0, 3, by decide +kernel⟩,
    ⟨on id, 0, 0, 5, 0, 0, 0, sendMarks (on id).mirror 0, by decide +kernel⟩,
    ⟨on (lane 27 6), 27, BitVec.ofNat 128 (5*2^96+3*2^88+7*2^80), 16385, 3, 9, 0, sendMarks (on (lane 27 6)).mirror 27, by decide +kernel⟩,
    ⟨on (fun d => up 0 3 ((lane 0 6 d).modLane 0 fun x => { x with seq := some 4 })), 0, BitVec.ofNat 128 (5*2^96+3*2^88+7*2^80), 16385, 65535, 9,
      1, sendMarks (on (fun d => up 0 3 ((lane 0 6 d).modLane 0 fun x => { x with seq := some 4 }))).mirror 0, by decide +kernel⟩,
    ⟨on (fun d => up 0 3 ((lane 0 4 d).modPort 0 fun x => { x with rateNext := some (2, 0) })), 0, BitVec.ofNat 128 (5*2^96+3*2^88+7*2^80), 16386,
      65535, 9, 2, sendMarks (on (fun d => up 0 3 ((lane 0 4 d).modPort 0 fun x => { x with rateNext := some (2, 0) }))).mirror 0, by decide +kernel⟩,
    ⟨on (fun d => (lane 27 3 d).modLane 27 fun x => { x with seq := some 16777215 }), 27, 0, 0, 0, 0, 16777215,
      sendMarks (on (fun d => (lane 27 3 d).modLane 27 fun x => { x with seq := some 16777215 })).mirror 27, by decide +kernel⟩,
    ⟨on (fun d => dn 0 ((lane 1 2 (lane 0 3 d)).modLane 0 fun x => { x with seq := some 16777215 })), 0, 0, 0, 0, 0, 16777215,
      sendMarks (on (fun d => dn 0 ((lane 1 2 (lane 0 3 d)).modLane 0 fun x => { x with seq := some 16777215 }))).mirror 0, by decide +kernel⟩,
    ⟨on (fun d => dn 0 (((lane 0 3 d).wr (.LNK_PMAP 0) 0x33221110).modLane 0 fun x => { x with seq := some 16777215 })), 0, 0, 0, 0, 0, 16777215,
      sendMarks (on (fun d => dn 0 (((lane 0 3 d).wr (.LNK_PMAP 0) 0x33221110).modLane 0 fun x => { x with seq := some 16777215 }))).mirror 0,
      by decide +kernel⟩,
    ⟨on (fun d => up 1 2 ((lane 3 3 d).modLane 3 fun x => { x with seq := some 16777215 })), 3, 0, 0, 0, 0, 16777215,
      sendMarks (on (fun d => up 1 2 ((lane 3 3 d).modLane 3 fun x => { x with seq := some 16777215 }))).mirror 3, by decide +kernel⟩⟩

theorem test_witness_laneStages2 :
    (∃ (s : State) (l : Fin 28) (b : BitVec 128) (bip : BitVec 16) (hdr : BitVec 16) (track : Fin 3) (n : Nat) (d : Dev) (d' : Dev),
      d = sendMarks s.mirror l ∧ d.stage l = sgMarker ∧ (d.lane l).seq = some n ∧ bits b 119 96 = (n + 1) % 2 ^ 24 ∧ d.looped l = false ∧
      l.val < 16 ∧ (d.port (d.lanePort l)).rateNext = none ∧ d.portUp (d.lanePort l) = true ∧
      card 16 (bip.toNat ^^^ bits b 79 64) ≤ d.get (.LAN_ERRCFG l) 7 0 ∧ (∀ m ∈ d.bundle (d.lanePort l), d.marked m = true → d.stage m ≠ sgDeskew) ∧
      (d' = d.modLane l (fun x => { x with seq := some (bits b 119 96), seqT := s.clock.now, missed := 0 }))) ∧
    (∃ (s : State) (l : Fin 24), s.dev.stage l = sgCdr ∧ s.dev.flag (.LAN_CTL l) 20 = true) ∧
    (∃ (s : State) (l : Fin 24), s.dev.stage l = sgCdr ∧ s.dev.flag (.LAN_CTL l) 20 = true) ∧
    (∃ (s : State) (l : Fin 24), (¬ (s.dev.stage l = sgCdr ∧ s.dev.flag (.LAN_CTL l) 20 = true))) ∧
    (∃ (s : State) (p : Fin 8) (b : BitVec 128), s.mirror.portUp p = true ∧ bits b 119 116 < 4 ∧
      bits b 119 116 ≠ s.mirror.get (.LNK_PSTAT p) 15 14 ∧ offered s.mirror p (bits b 119 116) = true) ∧
    (∃ (s : State) (p : Fin 8) (b : Block), s.mirror.portUp p = false) ∧
    (∃ (s : State) (p : Fin 8) (prev : Nat) (due : Nat), (s.dev.port p).rateStep = some (prev, due) ∧ prev < 4) ∧
    (∃ (s : State) (p : Fin 8) (prev : Nat) (due : Nat), (s.dev.port p).rateStep = some (prev, due) ∧ prev < 4) ∧
    (∃ (s : State) (p : Fin 8), (s.dev.port p).rateStep = none) :=
  ⟨⟨on (fun d => up 0 3 ((lane 0 3 d).modLane 0 fun x => { x with seq := some 4 })), 0, BitVec.ofNat 128 (5*2^96), 0, 0, 0, 4,
      sendMarks (on (fun d => up 0 3 ((lane 0 3 d).modLane 0 fun x => { x with seq := some 4 }))).mirror 0,
      (sendMarks (on (fun d => up 0 3 ((lane 0 3 d).modLane 0 fun x => { x with seq := some 4 }))).mirror 0).modLane 0 (fun x => { x with seq := some 5, seqT := 0, missed := 0 }),
      by decide +kernel⟩,
    ⟨on (fun d => ((lane 23 1 d).raise (.LAN_CTL 23) 20).set (.LAN_CTL 23) 27 26 3), 23, by decide +kernel⟩,
    ⟨on (fun d => ((lane 0 1 d).raise (.LAN_CTL 0) 20)) (2 ^ 90), 0, by decide +kernel⟩,
    ⟨on id, 0, by decide +kernel⟩,
    ⟨on (up 7 3), 7, BitVec.ofNat 128 (3 * 2 ^ 116 + 9 * 2 ^ 80), by decide +kernel⟩,
    ⟨on (dn 0), 0, 0, by decide +kernel⟩,
    ⟨on (fun d => d.modPort 7 fun x => { x with rateStep := some (3, 5) }), 7, 3, 5, by decide +kernel⟩,
    ⟨on (fun d => (lane 0 6 d).modPort 0 fun x => { x with rateStep := some (0, 5) }), 0, 0, 5, by decide +kernel⟩,
    ⟨on id, 0, by decide +kernel⟩⟩

theorem test_witness_laneSetsAndWrites1 :
    (∃ (s : State) (p : Fin 8) (b : BitVec 128), s.mirror.portUp p = true ∧ bits b 119 104 ≠ 0) ∧
    (∃ (s : State) (p : Fin 8) (b : BitVec 128), (s.mirror.portUp p = false ∨ bits b 119 104 = 0)) ∧
    (∃ (s : State) (p : Fin 8) (b : BitVec 128) (m : Nat) (d : Dev) (mark : Nat), s.mirror.portUp p = true ∧
      (m = bits b 119 104 &&& s.mirror.positions p (fun l => s.mirror.flag (.LAN_CTL l) 31 && !s.mirror.looped l)) ∧ d = portMarks s.mirror p ∧
      mark = ((d.port p).marks.seq + 3) % 2 ^ 24 ∧ m ≠ 0 ∧ m ≠ d.txTarget p) ∧
    (∃ (s : State) (p : Fin 8) (b : BitVec 128) (m : Nat) (d : Dev) (mark : Nat), s.mirror.portUp p = true ∧
      (m = bits b 119 104 &&& s.mirror.positions p (fun l => s.mirror.flag (.LAN_CTL l) 31 && !s.mirror.looped l)) ∧ d = portMarks s.mirror p ∧
      mark = ((d.port p).marks.seq + 3) % 2 ^ 24 ∧ (m = 0 ∨ m = d.txTarget p)) ∧
    (∃ (s : State) (p : Fin 8) (b : BitVec 128) (m : Nat) (d : Dev) (mark : Nat), s.mirror.portUp p = true ∧
      (m = bits b 119 104 &&& s.mirror.positions p (fun l => s.mirror.flag (.LAN_CTL l) 31 && !s.mirror.looped l)) ∧ d = portMarks s.mirror p ∧
      mark = ((d.port p).marks.seq + 3) % 2 ^ 24 ∧ (m = 0 ∨ m = d.txTarget p)) ∧
    (∃ (s : State) (p : Fin 8) (b : Block), s.mirror.portUp p = false) ∧
    (∃ (s : State) (p : Fin 8) (l : Fin 29) (w : Word), Admits s p (.LAN_CTL l) w ∧ l.val = 28) ∧
    (∃ (s : State) (p : Fin 8) (l : Fin 29) (w : Word), Admits s p (.LAN_CTL l) w ∧ l.val ≠ 28 ∧ bit w 31 = false ∧
      s.mirror.flag (.LAN_CTL l) 31 = true) ∧
    (∃ (s : State) (p : Fin 8) (l : Fin 29) (w : Word), Admits s p (.LAN_CTL l) w ∧ l.val ≠ 28 ∧ bit w 31 = false ∧
      s.mirror.flag (.LAN_CTL l) 31 = true) ∧
    (∃ (s : State) (p : Fin 8) (l : Fin 29) (w : Word), Admits s p (.LAN_CTL l) w ∧ l.val ≠ 28 ∧ bit w 31 = true ∧
      s.mirror.flag (.LAN_CTL l) 31 = false) ∧
    (∃ (s : State) (p : Fin 8) (l : Fin 29) (w : Word), Admits s p (.LAN_CTL l) w ∧ l.val ≠ 28 ∧ bit w 31 = true ∧
      s.mirror.flag (.LAN_CTL l) 31 = false) ∧
    (∃ (s : State) (p : Fin 8) (l : Fin 29) (w : BitVec 32), Admits s p (.LAN_CTL l) (setBit w 21 true) ∧ l.val ≠ 28 ∧ bit w 31 = true ∧
      s.mirror.flag (.LAN_CTL l) 31 = true) :=
  ⟨⟨on (up 7 1), 7, BitVec.ofNat 128 (2 ^ 119), by decide +kernel⟩,
    ⟨on id, 0, 0, by decide +kernel⟩,
    ⟨on (up 0 2), 0, BitVec.ofNat 128 (65535 * 2 ^ 104), 3, portMarks (on (up 0 2)).mirror 0, 3, by decide +kernel⟩,
    ⟨on (fun d => (up 0 2 d).modPort 0 fun x => { x with txSet := 3 }), 0, BitVec.ofNat 128 (65535 * 2 ^ 104), 3,
      portMarks (on (fun d => (up 0 2 d).modPort 0 fun x => { x with txSet := 3 })).mirror 0, 3, by decide +kernel⟩,
    ⟨on (up 0 2), 0, 0, 0, portMarks (on (up 0 2)).mirror 0, 3, by decide +kernel⟩,
    ⟨on (dn 0), 0, 0, by decide +kernel⟩,
    ⟨on id, 0, 28, 0, by unfold Admits; decide +kernel⟩,
    ⟨on (fun d => up 0 2 (lane 0 6 d)), 0, 0, 0, by unfold Admits; decide +kernel⟩,
    ⟨on (lane 27 6), 0, 27, 0, by unfold Admits; decide +kernel⟩,
    ⟨on (fun d => d.clear (.LAN_CTL 0) 31), 0, 0, 0x80000000, by unfold Admits; decide +kernel⟩,
    ⟨on (fun d => (d.clear (.LAN_CTL 27) 31).raise (.RAS_SEAMFENCE 2) 9), 0, 27, 0x80000000, by unfold Admits; decide +kernel⟩,
    ⟨on (lane 5 6), 0, 5, 0x80000000, by unfold Admits; decide +kernel⟩⟩

theorem test_witness_laneSetsAndWrites2 :
    (∃ (s : State) (p : Fin 8) (l : Fin 29) (rate : Fin 4), Admits s p (.LAN_CTL l) (setBits (s.mirror.rd (.LAN_CTL l)) 27 26 rate) ∧ l.val < 24 ∧
      s.mirror.flag (.LAN_CTL l) 31 = true ∧ s.mirror.laneRate l ≠ rate.val) ∧
    (∃ (s : State) (p : Fin 8) (l : Fin 29) (mode : Fin 8), Admits s p (.LAN_CTL l) (setBits (s.mirror.rd (.LAN_CTL l)) 30 28 mode) ∧ l.val ≠ 28 ∧
      s.mirror.flag (.LAN_CTL l) 31 = true ∧ s.mirror.get (.LAN_CTL l) 30 28 ≠ mode.val) ∧
    (∃ (s : State) (p : Fin 8) (i : Fin 2) (w : Word), Admits s p (.LNK_PMAP i) w) :=
  ⟨⟨on (lane 23 6), 0, 23, 3, by unfold Admits; decide +kernel⟩,
    ⟨on (lane 3 6), 0, 3, 1, by unfold Admits; decide +kernel⟩,
    ⟨on (up 0 2), 0, 1, 0xFFFFFFFF, by unfold Admits; decide +kernel⟩⟩

theorem test_witness_negotiationAndReplay1 :
    (∃ (s : State) (p : Fin 8) (b : BitVec 128),
      (s.mirror.portUp p = true ∨ (bits b 119 112 ≠ 1 ∧ bits b 119 112 ≠ 2) ∨ (∀ l ∈ s.mirror.bundle p, s.mirror.stage l ≠ sgNeg))) ∧
    (∃ (s : State) (p : Fin 8) (b : BitVec 128), s.mirror.portUp p = false ∧ (bits b 119 112 = 1 ∨ bits b 119 112 = 2) ∧
      (∃ l ∈ s.mirror.bundle p, s.mirror.stage l = sgNeg) ∧ commonVersion (negBits b) = 0) ∧
    (∃ (s : State) (p : Fin 8) (b : BitVec 128), s.mirror.portUp p = false ∧ bits b 119 112 = 2 ∧
      (∃ l ∈ s.mirror.bundle p, s.mirror.stage l = sgNeg) ∧ commonVersion b ≠ 0 ∧ bit b 106 = false) ∧
    (∃ (s : State) (p : Fin 8) (b : BitVec 128), s.mirror.portUp p = false ∧ bits b 119 112 = 2 ∧
      (∃ l ∈ s.mirror.bundle p, s.mirror.stage l = sgNeg) ∧ commonVersion b ≠ 0 ∧ bit b 106 = true) ∧
    (∃ (s : State) (p : Fin 8) (b : BitVec 128), s.mirror.portUp p = false ∧ bits b 119 112 = 2 ∧
      (∃ l ∈ s.mirror.bundle p, s.mirror.stage l = sgNeg) ∧ commonVersion b ≠ 0 ∧ bit b 106 = true) ∧
    (∃ (s : State) (p : Fin 8) (l : Nat) (ls : List Nat) (due : Nat), s.mirror.negLanes p = l :: ls ∧
      due = (s.dev.port p).negT + 256 * s.mirror.blockTime l) ∧
    (∃ (s : State) (p : Fin 8), s.mirror.negLanes p = []) ∧
    (∃ (s : State) (p : Fin 8) (b : BitVec 128) (pre : List (Nat × Packet)) (k : Packet) (rest : List (Nat × Packet)), s.mirror.portUp p = true ∧
      (s.dev.port p).replay = pre ++ (bits b 119 108, k) :: rest ∧ pre ≠ [] ∧ (∀ r ∈ pre, r.1 ≠ bits b 119 108) ∧
      bits b 119 108 ≠ (s.dev.port p).txSeq) ∧
    (∃ (s : State) (p : Fin 8) (b : BitVec 128), s.mirror.portUp p = true ∧ (s.dev.port p).replay ≠ [] ∧ bits b 119 108 = (s.dev.port p).txSeq) ∧
    (∃ (s : State) (p : Fin 8) (b : Block), s.mirror.portUp p = false) ∧
    (∃ (s : State) (p : Fin 8) (b : BitVec 128) (pre : List (Nat × Packet)) (k : Packet) (rest : List (Nat × Packet)), s.mirror.portUp p = true ∧
      (s.dev.port p).replay = pre ++ (bits b 119 108, k) :: rest ∧ (∀ r ∈ pre, r.1 ≠ bits b 119 108) ∧ bits b 119 108 ≠ (s.dev.port p).txSeq) ∧
    (∃ (s : State) (p : Fin 8), s.mirror.portUp p = true) :=
  ⟨⟨on id, 0, 0, by decide +kernel⟩,
    ⟨on (fun d => dn 0 (lane 0 5 d)), 0, BitVec.ofNat 128 (2 * 2 ^ 112), by decide +kernel⟩,
    ⟨on (fun d => dn 0 (lane 0 5 d)), 0, BitVec.ofNat 128 (2 * 2 ^ 112 + 2 ^ 109), by decide +kernel⟩,
    ⟨on (fun d => dn 0 (lane 0 5 d)), 0, BitVec.ofNat 128 (2 * 2 ^ 112 + 2 ^ 111 + 2 ^ 106 + 77 * 2 ^ 80), by decide +kernel⟩,
    ⟨on (fun d => (dn 0 (lane 0 5 d)).modPort 0 fun x => { x with peerSession := some 77, rxSeq := 9, replay := [(0, { type := 0 }), (1, { type := 1 })], txSeq := 2 }),
      0, BitVec.ofNat 128 (2 * 2 ^ 112 + 2 ^ 111 + 2 ^ 106 + 2 ^ 105 + 77 * 2 ^ 80 + 2 ^ 68), by decide +kernel⟩,
    ⟨on (fun d => (lane 0 5 d).modPort 0 fun x => { x with session := 65535, rxSeq := 4095, failedRates := 5, negRx := true }), 0, 0, [],
      256 * (on (lane 0 5)).mirror.blockTime 0, by decide +kernel⟩,
    ⟨on id, 7, by decide +kernel⟩,
    ⟨on (fun d => (up 7 2 d).modPort 7 fun x => { x with txSeq := 2, replay := [(4095, { type := 0 }), (0, { type := 0 }), (1, { type := 0 })] }),
      7, 0, [(4095, { type := 0 })], { type := 0 }, [(1, { type := 0 })], by decide +kernel⟩,
    ⟨on (fun d => (up 7 2 d).modPort 7 fun x => { x with txSeq := 2, replay := [(0, { type := 0 }), (1, { type := 0 })] }), 7,
      BitVec.ofNat 128 (2 * 2 ^ 108), by decide +kernel⟩,
    ⟨on (dn 0), 0, 0, by decide +kernel⟩,
    ⟨on (fun d => (up 7 2 d).modPort 7 fun x => { x with txSeq := 2, replay := [(0, { type := 0 }), (1, { type := 0 })] }), 7, 0, [], { type := 0 },
      [(1, { type := 0 })], by decide +kernel⟩,
    ⟨on (up 7 2), 7, by decide +kernel⟩⟩

theorem test_witness_negotiationAndReplay2 :
    (∃ (s : State) (p : Fin 8), s.mirror.portUp p = true ∧ (s.dev.port p).nakOut = false) ∧
    (∃ (s : State) (p : Fin 8), (s.dev.port p).nakOut = true) ∧
    (∃ (s : State) (p : Fin 8), s.dev.portUp p = true ∧ (s.dev.port p).replay ≠ []) ∧
    (∃ (s : State) (p : Fin 8), (s.dev.portUp p = false ∨ (s.dev.port p).replay = [])) :=
  ⟨⟨on (up 0 2), 0, by decide +kernel⟩,
    ⟨on (fun d => d.modPort 7 fun x => { x with nakOut := true }), 7, by decide +kernel⟩,
    ⟨on (fun d => (up 7 2 d).modPort 7 fun x => { x with txSeq := 1, replay := [(0, { type := 0 })] }), 7, by decide +kernel⟩,
    ⟨on id, 0, by decide +kernel⟩⟩

theorem test_witness_creditsAndInterrupts1 :
    (∃ (s : State) (p : Fin 8) (b : BitVec 128), s.mirror.portUp p = true ∧ s.mirror.version p ≠ 1 ∧ bits b 119 116 = 3) ∧
    (∃ (s : State) (p : Fin 8) (b : BitVec 128), s.mirror.portUp p = true ∧ s.mirror.version p ≠ 1 ∧ bits b 119 116 = 4) ∧
    (∃ (s : State) (p : Fin 8) (b : Block), (s.mirror.portUp p = false ∨ s.mirror.version p = 1)) ∧
    (∃ (s : State) (p : Fin 8) (b : Block), s.mirror.portUp p = true ∧ s.mirror.version p = 1) ∧
    (∃ (s : State) (p : Fin 8) (b : Block), (s.mirror.portUp p = false ∨ s.mirror.version p ≠ 1)) ∧
    (∃ (s : State) (p : Fin 8), s.mirror.portUp p = true ∧ s.mirror.version p ≠ 1) ∧
    (∃ (s : State) (p : Fin 8), s.mirror.portUp p = true ∧ s.mirror.version p = 1) ∧
    (∃ (s : State) (p : Fin 8), s.mirror.portUp p = false) ∧
    (∃ (s : State) (p : Fin 8), (s.dev.port p).msiDue = true ∧ (∀ t, s.mirror.holdoffEnd p = some t → t ≤ s.clock.now) ∧
      ((s.dev.port p).msiLate = false ∨ irqOr s.mirror p = true)) ∧
    (∃ (s : State) (p : Fin 8), (s.dev.port p).msiDue = true ∧ (∀ t, s.mirror.holdoffEnd p = some t → t ≤ s.clock.now) ∧
      (s.dev.port p).msiLate = true ∧ irqOr s.mirror p = false) ∧
    (∃ (s : State) (p : Fin 8), ((s.dev.port p).msiDue = false ∨ (∃ t, s.mirror.holdoffEnd p = some t ∧ s.clock.now < t))) ∧
    (∃ (s : State) (p : Fin 8), (s.dev.port p).msiDue = true) :=
  ⟨⟨on (up 7 2), 7, BitVec.ofNat 128 (3*2^116+5*2^96+9*2^64), by decide +kernel⟩,
    ⟨on (up 7 2), 7, BitVec.ofNat 128 (4*2^116+5*2^96+9*2^64), by decide +kernel⟩,
    ⟨on (up 7 1), 7, 0, by decide +kernel⟩,
    ⟨on (up 7 1), 7, BitVec.ofNat 128 (4*2^116), by decide +kernel⟩,
    ⟨on (up 7 2), 7, 0, by decide +kernel⟩,
    ⟨on (fun d => (up 0 2 d).raise (.DRC_SRCFG 3) 31), 0, by decide +kernel⟩,
    ⟨on (fun d => (up 0 1 d).modPort 0 fun x => { x with xoffTx := 2, xoffSites := 9 }), 0, by decide +kernel⟩,
    ⟨on (dn 0), 0, by decide +kernel⟩,
    ⟨on (fun d => (up 7 2 d).modPort 7 fun x => { x with msiDue := true }), 7, by decide +kernel, none_all (by decide +kernel), by decide +kernel⟩,
    ⟨on (fun d => (up 7 2 d).modPort 7 fun x => { x with msiDue := true, msiLate := true }), 7, by decide +kernel, none_all (by decide +kernel),
      by decide +kernel⟩,
    ⟨on id, 0, Or.inl (by decide)⟩,
    ⟨on (fun d => ((up 7 2 d).set (.LNK_IRQMOD 7) 31 16 2).modPort 7 fun x => { x with msiDue := true, msiT := some 5 }), 7, by decide +kernel⟩⟩

theorem test_witness_creditsAndInterrupts2 :
    (∃ (s : State) (p : Fin 8), (s.dev.port p).msiDue = false) ∧
    (∃ (s : State) (p : Fin 8) (w : Word), Admits s p (.LNK_IRQSTAT p) w) :=
  ⟨⟨on id, 0, by decide +kernel⟩,
    ⟨on (fun d => d.set (.LNK_IRQSTAT 7) 3 1 7), 7, 4, by unfold Admits; decide +kernel⟩⟩

theorem test_witness_portQueues1 :
    (∃ (s : State) (p : Fin 8) (w : QWord) (ws : List QWord), (s.dev.port p).area = w :: ws ∧ (s.dev.port p).evDiscard = false ∧
      (s.dev.port p).evFlushAt ≠ some s.mirror.raw ∧ (s.dev.port p).chain.length < 32) ∧
    (∃ (s : State) (p : Fin 8) (w : QWord) (ws : List QWord), (s.dev.port p).area = w :: ws ∧ (s.dev.port p).evDiscard = true) ∧
    (∃ (s : State) (p : Fin 8) (w : QWord) (ws : List QWord), (s.dev.port p).area = w :: ws ∧ (s.dev.port p).evDiscard = false ∧
      (s.dev.port p).evFlushAt = some s.mirror.raw) ∧
    (∃ (s : State) (p : Fin 8),
      ((s.dev.port p).area = [] ∨ ((s.dev.port p).evDiscard = false ∧ (s.dev.port p).evFlushAt ≠ some s.mirror.raw ∧ 32 ≤ (s.dev.port p).chain.length))) ∧
    (∃ (s : State) (p : Fin 8),
      ((s.dev.port p).area = [] ∨ ((s.dev.port p).evDiscard = false ∧ (s.dev.port p).evFlushAt ≠ some s.mirror.raw ∧ 32 ≤ (s.dev.port p).chain.length))) ∧
    (∃ (s : State) (p : Fin 8) (w : QWord) (ws : List QWord), s.dev.accepts p = true ∧ (s.dev.port p).chain = w :: ws) ∧
    (∃ (s : State) (p : Fin 8), s.dev.accepts p = true ∧ (s.dev.port p).chain = []) ∧
    (∃ (s : State) (p : Fin 8) (w : BitVec 32), Admits s p (.LNK_QCTL p) (setBit w 31 true)) ∧
    (∃ (s : State) (p : Fin 8) (w : Word), Admits s p (.LNK_CMDQHI p) w ∧ (s.dev.port p).cmd.length < 32 ∧ (s.dev.port p).cmdSkip = false ∧
      (s.dev.port p).cmdFlushAt ≠ some s.mirror.raw) ∧
    (∃ (s : State) (p : Fin 8) (w : Word), Admits s p (.LNK_CMDQHIE p) w ∧ (s.dev.port p).cmd.length < 32 ∧ (s.dev.port p).cmdSkip = false ∧
      (s.dev.port p).cmdFlushAt ≠ some s.mirror.raw) ∧
    (∃ (s : State) (p : Fin 8) (w : Word), 32 ≤ (s.dev.port p).cmd.length ∧ (s.dev.port p).cmdSkip = false ∧ Admits s p (.LNK_CMDQHI p) w) ∧
    (∃ (s : State) (p : Fin 8) (w : Word), 32 ≤ (s.dev.port p).cmd.length ∧ (s.dev.port p).cmdSkip = false ∧ Admits s p (.LNK_CMDQHIE p) w) :=
  ⟨⟨on (fun d => d.modPort 7 fun x => { x with area := [⟨0x20000000000, false⟩, ⟨0, true⟩], chain := List.replicate 31 {} }), 7,
      ⟨0x20000000000, false⟩, [⟨0, true⟩], by decide +kernel⟩,
    ⟨on (fun d => d.modPort 7 fun x => { x with area := [⟨0, true⟩], evDiscard := true }), 7, ⟨0, true⟩, [], by decide +kernel⟩,
    ⟨on (fun d => d.modPort 7 fun x => { x with area := [⟨0x20000000000, false⟩], evFlushAt := some 0 }), 7, ⟨0x20000000000, false⟩, [],
      by decide +kernel⟩,
    ⟨on (fun d => d.modPort 7 fun x => { x with area := [⟨0, true⟩], chain := List.replicate 32 {} }), 7, by decide +kernel⟩,
    ⟨on id, 7, by decide +kernel⟩,
    ⟨on (fun d => d.modPort 7 fun x => { x with chain := [⟨5, true⟩] }), 7, ⟨5, true⟩, [], by decide +kernel⟩,
    ⟨on id, 7, by decide +kernel⟩,
    ⟨on (fun d => d.modPort 7 fun x => { x with chain := [⟨0x20000000000, false⟩, ⟨0, true⟩] }), 7, 0x40000000, by unfold Admits; decide +kernel⟩,
    ⟨on id, 7, 5, by unfold Admits; decide +kernel⟩,
    ⟨on id, 7, 0x100, by unfold Admits; decide +kernel⟩,
    ⟨on (fun d => d.modPort 7 fun x => { x with cmd := List.replicate 32 {} }), 7, 5, by unfold Admits; decide +kernel⟩,
    ⟨on (fun d => d.modPort 7 fun x => { x with cmd := List.replicate 32 {} }), 7, 5, by unfold Admits; decide +kernel⟩⟩

theorem test_witness_portQueues2 :
    (∃ (d : Dev) (p : Fin 8) (w : Word), (d.port p).cmd.length < 32 ∧ (d.port p).cmdSkip = false ∧ (d.port p).cmdFlushAt ≠ some d.raw ∧
      (d.port p).waitWrite = some ((Reg.LNK_CMDQHIE p).addr, w)) ∧
    (∃ (s : State) (p : Fin 8) (w : Word), (s.dev.port p).cmd.length < 32 ∧ (s.dev.port p).cmdFlushAt = some s.mirror.raw ∧
      Admits s p (.LNK_CMDQHI p) w) ∧
    (∃ (s : State) (p : Fin 8) (w : Word), (s.dev.port p).cmdSkip = true ∧ Admits s p (.LNK_CMDQHI p) w) ∧
    (∃ (s : State) (p : Fin 8) (w : Word), (s.dev.port p).cmdSkip = true ∧ Admits s p (.LNK_CMDQHIE p) w) ∧
    (∃ (s : State) (p : Fin 8) (w : BitVec 32), Admits s p (.LNK_QCTL p) (setBit w 30 true)) ∧
    (∃ (s : State) (p : Fin 8) (busy : Bool) (h : Word64) (args : List Word64) (rest : List (List Word64)) (i : Instr) (kind : Nat) (res : Option (List Word64)),
      (s.dev.port p).cmdPkts = (h :: args) :: rest ∧ bits h 47 40 = kind ∧
      (i, kind, res) ∈ [(Instr.echo p busy, 1, some args), (.fwinfo p busy, 2, if args = [] then some (fwInfo s.mirror) else none), (.ptpinfo p busy, 3, if args = [] then some (ptpInfo s.mirror) else none), (.rasread p busy, 4, rasRead s.mirror args), (.logread p busy, 5, logRead s.mirror args)]) ∧
    (∃ (s : State) (p : Fin 8) (busy : Bool) (h : Word64) (args : List Word64) (rest : List (List Word64)) (i : Instr) (kind : Nat) (res : Option (List Word64)),
      (s.dev.port p).cmdPkts = (h :: args) :: rest ∧ bits h 47 40 = kind ∧
      (i, kind, res) ∈ [(Instr.echo p busy, 1, some args), (.fwinfo p busy, 2, if args = [] then some (fwInfo s.mirror) else none), (.ptpinfo p busy, 3, if args = [] then some (ptpInfo s.mirror) else none), (.rasread p busy, 4, rasRead s.mirror args), (.logread p busy, 5, logRead s.mirror args)]) ∧
    (∃ (s : State) (p : Fin 8) (busy : Bool) (h : Word64) (args : List Word64) (rest : List (List Word64)) (i : Instr) (kind : Nat) (res : Option (List Word64)),
      (s.dev.port p).cmdPkts = (h :: args) :: rest ∧ bits h 47 40 = kind ∧
      (i, kind, res) ∈ [(Instr.echo p busy, 1, some args), (.fwinfo p busy, 2, if args = [] then some (fwInfo s.mirror) else none), (.ptpinfo p busy, 3, if args = [] then some (ptpInfo s.mirror) else none), (.rasread p busy, 4, rasRead s.mirror args), (.logread p busy, 5, logRead s.mirror args)]) ∧
    (∃ (s : State) (p : Fin 8), (s.dev.port p).svcWait = []) ∧
    (∃ (s : State) (p : Fin 8) (ws : List Word64) (rest : List (List Word64)), (s.dev.port p).svcWait = ws :: rest ∧
      8 * ws.length ≤ s.mirror.outRoom p) ∧
    (∃ (s : State) (p : Fin 8) (ws : List Word64) (rest : List (List Word64)), (s.dev.port p).svcWait = ws :: rest ∧
      s.mirror.outRoom p < 8 * ws.length) :=
  ⟨⟨(on (fun d => d.modPort 7 fun x => { x with waitWrite := some ((Reg.LNK_CMDQHIE 7).addr, 5) })).dev, 7, 5, by decide +kernel⟩,
    ⟨on (fun d => d.modPort 7 fun x => { x with cmdFlushAt := some 0 }), 7, 5, by unfold Admits; decide +kernel⟩,
    ⟨on (fun d => d.modPort 7 fun x => { x with cmdSkip := true }), 7, 5, by unfold Admits; decide +kernel⟩,
    ⟨on (fun d => d.modPort 7 fun x => { x with cmdSkip := true }), 7, 5, by unfold Admits; decide +kernel⟩,
    ⟨on (fun d => d.modPort 7 fun x => { x with cmd := [{}], cmdTaken := [1, 2] }), 7, 0, by unfold Admits; decide +kernel⟩,
    ⟨on (fun d => d.modPort 7 fun x => { x with cmdPkts := [[0x1010000000005, 9]] }), 7, false, 0x1010000000005, [9], [], .echo 7 false, 1,
      some [9], by decide +kernel⟩,
    ⟨on (fun d => d.modPort 7 fun x => { x with cmdPkts := [[0x30000000005]] }), 7, true, 0x30000000005, [], [], .ptpinfo 7 true, 3,
      some (ptpInfo (on fun d => d.modPort 7 fun x => { x with cmdPkts := [[0x30000000005]] }).mirror), by decide +kernel⟩,
    ⟨on (fun d => d.modPort 7 fun x => { x with cmdPkts := [[0x1040000000005, 0]] }), 7, true, 0x1040000000005, [0], [], .rasread 7 true, 4,
      some [], by decide +kernel⟩,
    ⟨on id, 7, by decide +kernel⟩,
    ⟨on (fun d => d.modPort 7 fun x => { x with svcWait := [[0]] }), 7, [0], [], by decide +kernel⟩,
    ⟨on (fun d => d.modPort 7 fun x => { x with svcWait := [[0]], area := List.replicate 131072 {} }), 7, [0], [], by decide +kernel⟩⟩

theorem test_witness_hostPackets1 :
    (∃ (s : State) (p : Fin 8) (seq : Fin 4096) (k : Packet) (t : Nat) (i : Instr), packetOf t p seq k = some i ∧ k.type = BitVec.ofNat 6 t ∧
      s.mirror.portUp p = false) ∧
    (∃ (s : State) (p : Fin 8) (seq : Fin 4096) (k : Packet) (t : Nat) (i : Instr), packetOf t p seq k = some i ∧ k.type = BitVec.ofNat 6 t ∧
      s.mirror.portUp p = true ∧ seq.val ≠ (s.dev.port p).rxSeq ∧ ((s.dev.port p).rxSeq + 4095 - seq.val) % 4096 < 2048) ∧
    (∃ (s : State) (p : Fin 8) (seq : Fin 4096) (k : Packet) (t : Nat) (i : Instr), packetOf t p seq k = some i ∧ k.type = BitVec.ofNat 6 t ∧
      s.mirror.portUp p = true ∧ seq.val ≠ (s.dev.port p).rxSeq ∧ 2048 ≤ ((s.dev.port p).rxSeq + 4095 - seq.val) % 4096 ∧
      (s.dev.port p).nakOut = false) ∧
    (∃ (s : State) (p : Fin 8) (seq : Fin 4096) (k : Packet) (t : Nat) (i : Instr), packetOf t p seq k = some i ∧ k.type = BitVec.ofNat 6 t ∧
      s.mirror.portUp p = true ∧ seq.val = (s.dev.port p).rxSeq ∧ noRoom s.mirror p k = false ∧
      (((s.dev.schPort p).held.isSome = true ∧ (s.dev.port p).waitWrite = none) ∨ (∃ x, (s.dev.port p).waitWrite = some x ∧ writeWaits s.mirror p x.1 = true))) ∧
    (∃ (s : State) (p : Fin 8) (seq : Fin 4096) (k : Packet), k.type = 1 ∧ Arrives s p seq k ∧ raBad false k = true) ∧
    (∃ (s : State) (p : Fin 8) (seq : Fin 4096) (k : Packet) (status : Nat) (lo : Word) (hi : Word) (d : Dev), k.type = 1 ∧ Arrives s p seq k ∧
      raBad false k = false ∧ readAccess (numbered s p k) p (bits k.addr 25 0) (bits k.addr 27 26) = (status, lo, hi, d)) ∧
    (∃ (s : State) (p : Fin 8) (seq : Fin 4096) (k : Packet), k.type = 2 ∧ Arrives s p seq k ∧ raBad true k = true) ∧
    (∃ (s : State) (p : Fin 8) (seq : Fin 4096) (k : Packet) (status : Nat) (d : Dev), k.type = 2 ∧ Arrives s p seq k ∧ raBad true k = false ∧
      (∀ c ∈ writtenAt k, writeWaits (numbered s p k) p c = false) ∧
      writeAccess (numbered s p k) p (bits k.addr 25 0) (bits k.addr 27 26) k.data (hiHalf k.addr) = (status, d)) ∧
    (∃ (s : State) (p : Fin 8) (seq : Fin 4096) (k : Packet), k.type = 2 ∧ Arrives s p seq k ∧ raBad true k = false ∧
      (∃ c ∈ writtenAt k, writeWaits (numbered s p k) p c = true)) ∧
    (∃ (s : State) (p : Fin 8) (seq : Fin 4096) (k : Packet), k.type = 3 ∧ Arrives s p seq k ∧ (k.blocks ≠ [] ∨ memBad k.addr k.data.toNat = true)) ∧
    (∃ (s : State) (p : Fin 8) (seq : Fin 4096) (k : Packet), k.type = 3 ∧ Arrives s p seq k ∧ k.blocks = [] ∧ memBad k.addr k.data.toNat = false ∧
      s.dev.trust.wiped = true ∧
      (∀ a ∈ linesOf k.addr.toNat (16 * k.data.toNat), (numbered s p k).lineWaits a = false ∧ s.dev.dram.poisoned a = false)) ∧
    (∃ (s : State) (p : Fin 8) (seq : Fin 4096) (k : Packet), k.type = 3 ∧ Arrives s p seq k ∧ k.blocks = [] ∧ memBad k.addr k.data.toNat = false ∧
      s.dev.trust.wiped = true ∧ (∃ a ∈ linesOf k.addr.toNat (16 * k.data.toNat), (numbered s p k).lineWaits a = true)) :=
  ⟨⟨on (dn 0), 0, 0, { type := 1 }, 1, .regRd 0 0 { type := 1 }, by decide +kernel⟩,
    ⟨on (up 7 2), 7, 4095, { type := 7 }, 7, .qrd 7 4095 { type := 7 }, by decide +kernel⟩,
    ⟨on (up 7 2), 7, 1, { type := 6 }, 6, .dbell 7 1 { type := 6 }, by decide +kernel⟩,
    ⟨on (fun d => (up 7 2 d).modSchPort 7 fun x => { x with held := some (0, 0, []) }), 7, 0, { type := 2 }, 2, .regWr 7 0 { type := 2 },
      by decide +kernel⟩,
    ⟨on (up 7 2), 7, 0, { type := 1, addr := 0x80000000 }, by unfold Arrives; decide +kernel⟩,
    ⟨on (up 7 2), 7, 0, { type := 1 }, 0, 0x0A1A9128, 0, numbered (on (up 7 2)) 7 { type := 1 }, by unfold Arrives; decide +kernel⟩,
    ⟨on (up 7 2), 7, 0, { type := 2, addr := 0x80000000 }, by unfold Arrives; decide +kernel⟩,
    ⟨on (up 7 2), 7, 0, { type := 2, data := 1, addr := 0x1 }, 1,
      (numbered (on (up 7 2)) 7 { type := 2, data := 1, addr := 0x1 }).raise (.LNK_PERR 7) 29, by unfold Arrives; decide +kernel⟩,
    ⟨on (fun d => (up 7 2 d).modPort 7 fun x => { x with cmd := List.replicate 32 {} }), 7, 0,
      { type := 2, addr := BitVec.ofNat 64 (Reg.LNK_CMDQHIE 7).addr }, by unfold Arrives; decide +kernel⟩,
    ⟨on (up 7 2), 7, 0, { type := 3 }, by unfold Arrives; decide +kernel⟩,
    ⟨on (fun d => (up 7 2 d).modTrust fun t => { t with wiped := true }), 7, 0, { type := 3, data := 2, addr := 0x40000000 },
      by unfold Arrives; decide +kernel⟩,
    ⟨on (fun d => ((up 7 2 d).modTrust fun t => { t with wiped := true }).set .DRC_PWR 25 24 2), 7, 0, { type := 3, data := 2, addr := 0x40000000 },
      by unfold Arrives; decide +kernel⟩⟩

theorem test_witness_hostPackets2 :
    (∃ (s : State) (p : Fin 8) (seq : Fin 4096) (k : Packet), k.type = 3 ∧ Arrives s p seq k ∧ k.blocks = [] ∧ memBad k.addr k.data.toNat = false ∧
      s.dev.trust.wiped = true ∧ (∃ a ∈ linesOf k.addr.toNat (16 * k.data.toNat), (numbered s p k).lineWaits a = true)) ∧
    (∃ (s : State) (p : Fin 8) (seq : Fin 4096) (k : Packet), k.type = 4 ∧ Arrives s p seq k ∧ memBad k.addr k.blocks.length = true) ∧
    (∃ (s : State) (p : Fin 8) (seq : Fin 4096) (k : Packet), k.type = 4 ∧ Arrives s p seq k ∧ memBad k.addr k.blocks.length = false ∧
      s.dev.trust.wiped = true ∧ s.mirror.hostReaches = false) ∧
    (∃ (s : State) (p : Fin 8) (seq : Fin 4096) (k : Packet), k.type = 4 ∧ Arrives s p seq k ∧ memBad k.addr k.blocks.length = false ∧
      s.dev.trust.wiped = true ∧ s.mirror.hostReaches = true ∧ memOwned s.mirror p k.addr.toNat = false) ∧
    (∃ (s : State) (p : Fin 8) (seq : Fin 4096) (k : Packet) (d : Dev), k.type = 4 ∧ Arrives s p seq k ∧ memBad k.addr k.blocks.length = false ∧
      s.dev.trust.wiped = true ∧ s.mirror.hostReaches = true ∧ memOwned s.mirror p k.addr.toNat = true ∧
      writeFits (numbered s p k) clsHost k.addr.toNat (blockBytes k.blocks) = true ∧
      writeLines (portServed (numbered s p k) p) clsHost k.addr.toNat (blockBytes k.blocks) = (true, d)) ∧
    (∃ (s : State) (p : Fin 8) (seq : Fin 4096) (k : Packet), k.type = 4 ∧ Arrives s p seq k ∧ memBad k.addr k.blocks.length = false ∧
      s.dev.trust.wiped = true ∧ s.mirror.hostReaches = true ∧ memOwned s.mirror p k.addr.toNat = true ∧
      writeFits (numbered s p k) clsHost k.addr.toNat (blockBytes k.blocks) = false) ∧
    (∃ (s : State) (p : Fin 8) (seq : Fin 4096) (k : Packet), k.type = 5 ∧ Arrives s p seq k ∧
      (k.blocks.length < 4 ∨ 1024 < k.blocks.length ∨ k.blocks.length % 4 ≠ 0)) ∧
    (∃ (s : State) (p : Fin 8) (seq : Fin 4096) (k : Packet), k.type = 5 ∧ Arrives s p seq k ∧ 4 ≤ k.blocks.length ∧ k.blocks.length ≤ 1024 ∧
      k.blocks.length % 4 = 0 ∧
      (p.val ≠ s.dev.siteOwner (bits k.addr 3 0) ∨ ((s.dev.site (bits k.addr 3 0)).resetting = false ∧ s.mirror.ringOn (bits k.addr 3 0) = false))) ∧
    (∃ (s : State) (p : Fin 8) (seq : Fin 4096) (k : Packet), k.type = 5 ∧ Arrives s p seq k ∧ 4 ≤ k.blocks.length ∧ k.blocks.length ≤ 1024 ∧
      k.blocks.length % 4 = 0 ∧ p.val = s.dev.siteOwner (bits k.addr 3 0) ∧ (s.dev.site (bits k.addr 3 0)).resetting = true) ∧
    (∃ (s : State) (p : Fin 8) (seq : Fin 4096) (k : Packet), k.type = 5 ∧ Arrives s p seq k ∧ 4 ≤ k.blocks.length ∧ k.blocks.length ≤ 1024 ∧
      k.blocks.length % 4 = 0 ∧ p.val = s.dev.siteOwner (bits k.addr 3 0) ∧ (s.dev.site (bits k.addr 3 0)).resetting = false ∧
      s.mirror.ringOn (bits k.addr 3 0) = true ∧ s.mirror.hostReaches = true ∧ streamFits (numbered s p k) (bits k.addr 3 0) k.blocks.length = true) ∧
    (∃ (s : State) (p : Fin 8) (seq : Fin 4096) (k : Packet), k.type = 5 ∧ Arrives s p seq k ∧ 4 ≤ k.blocks.length ∧ k.blocks.length ≤ 1024 ∧
      k.blocks.length % 4 = 0 ∧ p.val = s.dev.siteOwner (bits k.addr 3 0) ∧ (s.dev.site (bits k.addr 3 0)).resetting = false ∧
      s.mirror.ringOn (bits k.addr 3 0) = true ∧ s.mirror.hostReaches = true ∧ streamFits (numbered s p k) (bits k.addr 3 0) k.blocks.length = false) ∧
    (∃ (s : State) (p : Fin 8) (seq : Fin 4096) (k : Packet), k.type = 6 ∧ Arrives s p seq k ∧ k.blocks = [] ∧ bits k.addr 3 0 = 0) :=
  ⟨⟨on (fun d => ((up 7 2 d).modTrust fun t => { t with wiped := true }).putWq 0 { draining := true }), 7, 0,
      { type := 3, data := 2, addr := 0x40000000 }, by unfold Arrives; decide +kernel⟩,
    ⟨on (up 7 2), 7, 0, { type := 4 }, by unfold Arrives; decide +kernel⟩,
    ⟨on (fun d => ((up 7 2 d).modTrust fun t => { t with wiped := true }).set .DRC_PWR 25 24 2), 7, 0,
      { type := 4, addr := 0x40000000, blocks := [7, 7, 7, 7] }, by unfold Arrives; decide +kernel⟩,
    ⟨on (fun d => (up 7 2 d).modTrust fun t => { t with wiped := true }), 7, 0, { type := 4, addr := 0x40000000, blocks := [7, 7, 7, 7] },
      by unfold Arrives; decide +kernel⟩,
    ⟨on (fun d => (((up 0 2 d).modTrust fun t => { t with wiped := true }).modDram fun m => { m with bolts := ⟨[(512, { alloc := true })]⟩ })), 0,
      0, { type := 4, addr := 0x40000000, blocks := [7, 7, 7, 7] },
      (writeLines (portServed (numbered (on (fun d => (((up 0 2 d).modTrust fun t => { t with wiped := true }).modDram fun m => { m with bolts := ⟨[(512, { alloc := true })]⟩ }))) 0 { type := 4, addr := 0x40000000, blocks := [7, 7, 7, 7] }) 0) clsHost 0x40000000 (blockBytes [7, 7, 7, 7])).2,
      by unfold Arrives; decide +kernel⟩,
    ⟨on (fun d => (((up 0 2 d).modTrust fun t => { t with wiped := true }).modDram fun m => { m with bolts := ⟨[(512, { alloc := true })]⟩ }).putWq 0 { lines := List.replicate 64 ⟨clsHost, 0⟩ }),
      0, 0, { type := 4, addr := 0x40000000, blocks := [7, 7, 7, 7] }, by unfold Arrives; decide +kernel⟩,
    ⟨on (up 7 2), 7, 0, { type := 5 }, by unfold Arrives; decide +kernel⟩,
    ⟨on (up 7 2), 7, 0, { type := 5, blocks := [1, 2, 3, 4] }, by unfold Arrives; decide +kernel⟩,
    ⟨on (fun d => ((up 0 2 d).raise (.DRC_SRCFG 0) 31).modSite 0 fun x => { x with resetting := true }), 0, 0,
      { type := 5, blocks := [1, 2, 3, 4] }, by unfold Arrives; decide +kernel⟩,
    ⟨on (fun d => ((up 0 2 d).raise (.DRC_SRCFG 0) 31)), 0, 0, { type := 5, blocks := [1, 2, 3, 4] }, by unfold Arrives; decide +kernel⟩,
    ⟨on (fun d => ((up 0 2 d).raise (.DRC_SRCFG 0) 31).putWq 0 { lines := List.replicate 64 ⟨clsHost, 0⟩ }), 0, 0,
      { type := 5, blocks := [1, 2, 3, 4] }, by unfold Arrives; decide +kernel⟩,
    ⟨on (up 7 2), 7, 0, { type := 6 }, by unfold Arrives; decide +kernel⟩⟩

theorem test_witness_hostPackets3 :
    (∃ (s : State) (p : Fin 8) (seq : Fin 4096) (k : Packet), k.type = 6 ∧ Arrives s p seq k ∧ (k.blocks ≠ [] ∨ bits k.addr 3 0 ≠ 0)) ∧
    (∃ (s : State) (p : Fin 8) (seq : Fin 4096) (k : Packet), k.type = 7 ∧ Arrives s p seq k ∧ k.blocks ≠ []) ∧
    (∃ (s : State) (p : Fin 8) (seq : Fin 4096) (k : Packet), k.type = 7 ∧ Arrives s p seq k ∧ k.blocks = [] ∧ (s.dev.port p).chain = []) ∧
    (∃ (s : State) (p : Fin 8) (seq : Fin 4096) (k : Packet) (n : Nat) (ws : List QWord), k.type = 7 ∧ Arrives s p seq k ∧ k.blocks = [] ∧
      (s.dev.port p).chain ≠ [] ∧ n = min (bits k.addr 4 0 + 1) (s.dev.port p).chain.length ∧ ws = (s.dev.port p).chain.take n) :=
  ⟨⟨on (up 7 2), 7, 0, { type := 6, addr := 15 }, by unfold Arrives; decide +kernel⟩,
    ⟨on (up 7 2), 7, 0, { type := 7, blocks := [0] }, by unfold Arrives; decide +kernel⟩,
    ⟨on (up 7 2), 7, 0, { type := 7 }, by unfold Arrives; decide +kernel⟩,
    ⟨on (fun d => (up 7 2 d).modPort 7 fun x => { x with chain := [⟨5, true⟩, ⟨6, false⟩] }), 7, 0, { type := 7, addr := 31 }, 2,
      [⟨5, true⟩, ⟨6, false⟩], by unfold Arrives; decide +kernel⟩⟩

theorem test_witness_calibration1 :
    (∃ (s : State) (p : Fin 8) (w : BitVec 32), Admits s p .CAL_CMD (setBit (setBit w 29 false) 31 true) ∧ s.dev.cal.op.isSome = true) ∧
    (∃ (s : State) (p : Fin 8) (w : BitVec 32), Admits s p .CAL_CMD (setBit (setBit w 29 false) 31 true) ∧ s.dev.cal.op = none ∧
      (bits w 23 20 = 0 ∨ 5 < bits w 23 20)) ∧
    (∃ (s : State) (p : Fin 8) (w : BitVec 32), Admits s p .CAL_CMD (setBit (setBit w 29 false) 31 true) ∧ s.dev.cal.op = none ∧
      (bits w 23 20 = 0 ∨ 5 < bits w 23 20)) ∧
    (∃ (s : State) (p : Fin 8) (w : BitVec 32), Admits s p .CAL_CMD (setBit (setBit w 29 false) 31 true) ∧ s.dev.cal.op = none ∧ 1 ≤ bits w 23 20 ∧
      bits w 23 20 ≤ 5) ∧
    (∃ (s : State) (p : Fin 8) (w : BitVec 32), Admits s p .CAL_CMD (setBit (setBit w 29 false) 31 true) ∧ s.dev.cal.op = none ∧ 1 ≤ bits w 23 20 ∧
      bits w 23 20 ≤ 5) ∧
    (∃ (s : State) (p : Fin 8) (w : BitVec 32), Admits s p .CAL_CMD (setBit (setBit (setBit w 29 false) 31 false) 30 true) ∧
      s.dev.cal.op.isSome = true) ∧
    (∃ (s : State) (p : Fin 8) (w : BitVec 32), Admits s p .CAL_CMD (setBit (setBit (setBit w 29 false) 31 false) 30 true) ∧ s.dev.cal.op = none ∧
      1 ≤ bits w 23 20 ∧ bits w 23 20 ≤ 5) ∧
    (∃ (s : State) (o : CalOp), operation s o ∧ o.run = true ∧ o.passes = false ∧ calIdle s.mirror o = true) ∧
    (∃ (s : State), (∀ o, operation s o → o.run = false ∨ o.passes = true ∨ calIdle s.mirror o = false)) ∧
    (∃ (s : State), (∀ o, operation s o → o.run = false ∨ o.passes = true ∨ calIdle s.mirror o = false)) ∧
    (∃ (s : State) (pass : List PassItem), (∀ o, operation s o → o.run = false ∨ o.passes = false ∨ o.snap ≠ none)) ∧
    (∃ (s : State) (pass : List PassItem) (o : CalOp), operation s o ∧ o.run = true ∧ o.passes = true ∧ o.snap = none ∧
      runVerdict s.mirror o (measured s o pass) = none) :=
  ⟨⟨on (calS op0), 0, 0, by unfold Admits; decide +kernel⟩,
    ⟨on id, 0, 0, by unfold Admits; decide +kernel⟩,
    ⟨on id, 0, 0x00600000, by unfold Admits; decide +kernel⟩,
    ⟨on id, 0, 0x00100001, by unfold Admits; decide +kernel⟩,
    ⟨on (fun d => D (sited d) 0 dsc), 0, 0x00500000, by unfold Admits; decide +kernel⟩,
    ⟨on (calS op0), 0, 0, by unfold Admits; decide +kernel⟩,
    ⟨on id, 0, 0x00300001, by unfold Admits; decide +kernel⟩,
    ⟨on (calS { op0 with passes := false }), { op0 with passes := false }, rfl, by decide +kernel⟩,
    ⟨on id, by intro o h; exact nomatch (show (none : Option CalOp) = some o from h)⟩,
    ⟨on (calS op0), by intro o h; obtain rfl := Option.some.inj (show some op0 = some o from h); decide +kernel⟩,
    ⟨on (calS { op0 with run := false }), [],
      by intro o h; obtain rfl := Option.some.inj (show some { op0 with run := false } = some o from h); decide +kernel⟩,
    ⟨on (calS op0), [some [(128000, 0), (0, 0)]], op0, rfl, by decide +kernel⟩⟩

theorem test_witness_calibration2 :
    (∃ (s : State) (pass : List PassItem) (o : CalOp), operation s o ∧ o.run = true ∧ o.passes = true ∧ o.snap = none ∧
      runVerdict s.mirror o (measured s o pass) = none) ∧
    (∃ (s : State) (pass : List PassItem) (o : CalOp) (code : Nat) (item : Option Nat) (num : Nat) (den : Nat), operation s o ∧ o.run = true ∧
      o.passes = true ∧ o.snap = none ∧ runVerdict s.mirror o (measured s o pass) = some (code, item, num, den) ∧ code < 16) ∧
    (∃ (s : State) (pass : List PassItem) (o : CalOp) (code : Nat) (item : Option Nat) (num : Nat) (den : Nat), operation s o ∧ o.run = true ∧
      o.passes = true ∧ o.snap = none ∧ runVerdict s.mirror o (measured s o pass) = some (code, item, num, den) ∧ code < 16) ∧
    (∃ (s : State) (pass : List PassItem) (o : CalOp), operation s o ∧ o.run = true ∧ o.passes = true ∧ o.snap = none ∧ o.limit = true) ∧
    (∃ (s : State) (pass : List PassItem) (o : CalOp), operation s o ∧ o.run = true ∧ o.passes = true ∧ o.snap = none ∧ o.limit = false ∧
      o.qty = 3 ∧ inSet o.target 0 = true) ∧
    (∃ (s : State) (pass : List PassItem) (o : CalOp), operation s o ∧ o.run = true ∧ o.passes = true ∧ o.snap = none ∧ o.limit = false ∧
      o.qty = 5 ∧ (s.dev.cal.samples.length < 256)) ∧
    (∃ (s : State) (pass : List PassItem) (o : CalOp) (x : CalItem) (l : List (Int × Int)) (v : CalVal) (a : Int) (b : Int) (us : List (Prod CalVal (Int × Int))) (ws : List (Prod CalVal (Int × Int))),
      operation s o ∧ o.run = true ∧ o.passes = true ∧ o.snap = none ∧ o.limit = false ∧ o.qty ≠ 5 ∧ FirstItem o pass x l ∧
      x.vals.zip l = us ++ (v, a, b) :: ws ∧ (∀ u ∈ us, (u.2.1 - u.2.2).natAbs ≤ u.1.tol) ∧ v.tol < (a - b).natAbs) ∧
    (∃ (s : State) (pass : List PassItem) (o : CalOp) (x : CalItem) (l : List (Int × Int)) (v : CalVal) (a : Int) (b : Int) (us : List (Prod CalVal (Int × Int))) (ws : List (Prod CalVal (Int × Int))),
      operation s o ∧ o.run = true ∧ o.passes = true ∧ o.snap = none ∧ o.limit = false ∧ o.qty ≠ 5 ∧ FirstItem o pass x l ∧
      x.vals.zip l = us ++ (v, a, b) :: ws ∧ (∀ u ∈ x.vals.zip l, (u.2.1 - u.2.2).natAbs ≤ u.1.tol) ∧
      (∀ u ∈ us, u.1.lo ≤ meanOf u.1 u.2.1 u.2.2 ∧ meanOf u.1 u.2.1 u.2.2 ≤ u.1.hi) ∧ (meanOf v a b < v.lo ∨ v.hi < meanOf v a b)) ∧
    (∃ (s : State) (pass : List PassItem) (o : CalOp) (l : List (Int × Int)), operation s o ∧ o.run = true ∧ o.passes = true ∧ o.snap = none ∧
      o.limit = false ∧ o.qty = 5 ∧ spanShort s.dev.cal = false ∧ l.length = 4 ∧ 5 * 2 ^ 54 * 128 ^ 3 < worstDiff s.dev.cal l * 10 ^ 8) ∧
    (∃ (s : State) (pass : List PassItem) (o : CalOp) (l : List (Int × Int)), operation s o ∧ o.run = true ∧ o.passes = true ∧ o.snap = none ∧
      o.limit = false ∧ o.qty = 5 ∧ spanShort s.dev.cal = false ∧ l.length = 4 ∧ worstDiff s.dev.cal l * 10 ^ 8 ≤ 5 * 2 ^ 54 * 128 ^ 3 ∧
      (∃ u ∈ l, (u.1 + u.2 + 1024) / 2048 < -(2 ^ 31) ∨ 2 ^ 31 ≤ (u.1 + u.2 + 1024) / 2048)) ∧
    (∃ (s : State) (o : CalOp) (p : Fin 8) (r : Reg) (w : Word), operation s o ∧ o.run = true ∧ o.passes = true ∧ o.snap = none ∧ 1 ≤ o.qty ∧
      shadowQty r = o.qty ∧ Reg.ofAddr r.addr = some r ∧ canonAddr r.addr = some r.addr ∧ Admits s p r w) ∧
    (∃ (s : State) (o : CalOp) (p : Fin 8) (r : Reg) (w : Word), operation s o ∧ o.run = true ∧ o.passes = true ∧ o.snap = none ∧ 1 ≤ o.qty ∧
      shadowQty r = o.qty ∧ Reg.ofAddr r.addr = some r ∧ canonAddr r.addr = some r.addr ∧ Admits s p r w) :=
  ⟨⟨xtalS, [some [(0, 0), (1000, 1000), (2000, 2000), (3000, 3000)]], xtalOp, rfl, by decide +kernel⟩,
    ⟨on (calS op0), [none], op0, 3, some 0, 0, 2 ^ 23, rfl, by decide +kernel⟩,
    ⟨on (calS op0), [some [(0, 0), (2 ^ 50, 0)]], op0, 1, some 0, 2 ^ 50 * 10, 2 ^ 23, rfl, by decide +kernel⟩,
    ⟨on (calS { op0 with limit := true }), [], { op0 with limit := true }, rfl, by decide +kernel⟩,
    ⟨on (calS op0), ([] : List PassItem), op0, rfl, by decide +kernel⟩,
    ⟨on (calS { op0 with qty := 5 }), [], { op0 with qty := 5 }, rfl, by decide +kernel⟩,
    ⟨on (calS op0), [some [(0, 0), (2 ^ 50, 0)]], op0, laneItem 0 (2 ^ 22), [(0, 0), (2 ^ 50, 0)], delayVal (.CAL_LRX 0 0) (.CAL_LRX 1 0) (2 ^ 22),
      2 ^ 50, 0, [(delayVal (.CAL_LTX 0 0) (.CAL_LTX 1 0) (2 ^ 22), 0, 0)], [], rfl, rfl, rfl, rfl, rfl, by decide,
      ⟨[], [], [], [], rfl, rfl, rfl, nofun, by decide⟩, rfl, by decide +kernel⟩,
    ⟨on (calS op0), [some [(2 ^ 60, 2 ^ 60), (0, 0)]], op0, laneItem 0 (2 ^ 22), [(2 ^ 60, 2 ^ 60), (0, 0)],
      delayVal (.CAL_LTX 0 0) (.CAL_LTX 1 0) (2 ^ 22), 2 ^ 60, 2 ^ 60, [], [(delayVal (.CAL_LRX 0 0) (.CAL_LRX 1 0) (2 ^ 22), 0, 0)], rfl, rfl, rfl,
      rfl, rfl, by decide, ⟨[], [], [], [], rfl, rfl, rfl, nofun, by decide⟩, rfl, by decide +kernel⟩,
    ⟨xtalS, ([] : List PassItem), xtalOp, [(2 ^ 60, 0), (0, 0), (0, 0), (0, 0)], rfl, by decide +kernel⟩,
    ⟨xtalS, ([] : List PassItem), xtalOp, [(2 ^ 60, 2 ^ 60), (0, 0), (0, 0), (0, 0)], rfl, by decide +kernel⟩,
    ⟨on (calS op0), op0, 0, .CAL_LTX 0 0, 5, rfl,
      and3 (by decide +kernel) (and3 (by decide +kernel) ⟨by decide +kernel, by unfold Admits; decide +kernel⟩)⟩,
    ⟨on (calS { op0 with qty := 1 }), { op0 with qty := 1 }, 0, .CAL_DRV 0 127, 5, rfl,
      and3 (by decide +kernel) (and3 (by decide +kernel) ⟨by decide +kernel, by unfold Admits; decide +kernel⟩)⟩⟩

theorem test_witness_calibration3 :
    (∃ (s : State), (∀ o, operation s o → o.snap = none)) ∧
    (∃ (s : State) (o : CalOp) (regs : List (Nat × Word)) (lin : List (Nat × Nat)), operation s o ∧ o.snap = some (regs, lin) ∧
      (o.qty = 1 ∨ o.qty = 2 ∨ o.qty = 4) ∧ applyPoint s.mirror o = false) ∧
    (∃ (s : State) (o : CalOp) (regs : List (Nat × Word)) (lin : List (Nat × Nat)), operation s o ∧ o.snap = some (regs, lin) ∧ 1 ≤ o.qty ∧
      o.qty ≤ 5 ∧ applyPoint s.mirror o = true ∧ (∀ aw ∈ regs, Reg.ofAddr aw.1 ≠ some (.CAL_QSTAT (o.qty - 1)))) ∧
    (∃ (s : State) (o : CalOp) (regs : List (Nat × Word)) (lin : List (Nat × Nat)), operation s o ∧ o.snap = some (regs, lin) ∧ 1 ≤ o.qty ∧
      o.qty ≤ 5 ∧ applyPoint s.mirror o = true ∧ (∀ aw ∈ regs, Reg.ofAddr aw.1 ≠ some (.CAL_QSTAT (o.qty - 1)))) ∧
    (∃ (s : State) (o : CalOp) (d : Dev) (host : Bool), operation s o ∧ 1 ≤ o.qty ∧ o.qty ≤ 5 ∧ applyPoint s.mirror o = true ∧
      o.snap = some (calSnapshot d o.qty o.target host)) ∧
    (∃ (s : State) (o : CalOp) (d : Dev) (host : Bool), operation s o ∧ 1 ≤ o.qty ∧ o.qty ≤ 5 ∧ applyPoint s.mirror o = true ∧
      o.snap = some (calSnapshot d o.qty o.target host)) ∧
    (∃ (s : State) (o : CalOp) (d : Dev) (host : Bool), operation s o ∧ 1 ≤ o.qty ∧ o.qty ≤ 5 ∧ applyPoint s.mirror o = true ∧
      o.snap = some (calSnapshot d o.qty o.target host)) :=
  ⟨⟨on (calS op0), by intro o h; obtain rfl := Option.some.inj (show some op0 = some o from h); decide +kernel⟩,
    ⟨dis 4 bst dsc (calS { op0 with qty := 1, snap := some ([], []) }), { op0 with qty := 1, snap := some ([], []) }, [], [], rfl, by decide +kernel⟩,
    ⟨on (calS { op0 with snap := some ([], []) }), { op0 with snap := some ([], []) }, [], [], rfl, by decide +kernel⟩,
    ⟨on (calS { op0 with run := false, qty := 4, snap := some ([], []) }), { op0 with run := false, qty := 4, snap := some ([], []) }, [], [], rfl,
      by decide +kernel⟩,
    ⟨on (calS { op0 with snap := some (calSnapshot (ready.wr (.CAL_LTX 0 0) 77) 3 1 false) }),
      { op0 with snap := some (calSnapshot (ready.wr (.CAL_LTX 0 0) 77) 3 1 false) }, ready.wr (.CAL_LTX 0 0) 77, false, rfl, by decide +kernel⟩,
    ⟨on (calS { op0 with qty := 1, run := false, snap := some (calSnapshot (ready.wr (.CAL_DRV 0 3) 77) 1 1 true) }),
      { op0 with qty := 1, run := false, snap := some (calSnapshot (ready.wr (.CAL_DRV 0 3) 77) 1 1 true) }, ready.wr (.CAL_DRV 0 3) 77, true, rfl,
      by decide +kernel⟩,
    ⟨on (calS { op0 with qty := 5, snap := some (calSnapshot (ready.wr (.CAL_XC 0 3) 77) 5 1 true) }),
      { op0 with qty := 5, snap := some (calSnapshot (ready.wr (.CAL_XC 0 3) 77) 5 1 true) }, ready.wr (.CAL_XC 0 3) 77, true, rfl, by decide +kernel⟩⟩

theorem test_witness_calibrationDiscard :
    (∃ (s : State) (p : Fin 8) (w : BitVec 32), Admits s p .CAL_CMD (setBit w 29 true) ∧ s.dev.cal.op = none) ∧
    (∃ (s : State) (p : Fin 8) (w : BitVec 32) (o : CalOp), Admits s p .CAL_CMD (setBit w 29 true) ∧ operation s o) ∧
    (∃ (s : State) (p : Fin 8) (w : BitVec 32) (o : CalOp), Admits s p .CAL_CMD (setBit w 29 true) ∧ operation s o) :=
  ⟨⟨on id, 0, 0, by unfold Admits; decide +kernel⟩,
    ⟨on (calS op0), 0, 0, op0, by unfold Admits; decide +kernel, rfl⟩,
    ⟨on (calS { op0 with snap := some ([], []) }), 0, 0, { op0 with snap := some ([], []) }, by unfold Admits; decide +kernel, rfl⟩⟩

theorem test_witness_registerWrites1 :
    (∃ (s : State) (c : Instr) (p : Nat) (r : Reg) (w : Word), portWrite s.mirror c = some (p, r, w) ∧ s.dev.accepts p = false) ∧
    (∃ (s : State) (c : Instr) (p : Nat) (r : Reg) (w : Word), portWrite s.mirror c = some (p, r, w) ∧ s.dev.accepts p = false) ∧
    (∃ (s : State) (c : Instr) (p : Nat) (r : Reg) (w : Word), portWrite s.mirror c = some (p, r, w) ∧ s.dev.accepts p = false) ∧
    (∃ (s : State) (c : Instr) (p : Nat) (r : Reg) (w : Word), portWrite s.mirror c = some (p, r, w) ∧ s.dev.ready = false ∧
      earlyBlock r.addr = false) ∧
    (∃ (s : State) (c : Instr) (p : Nat) (r : Reg) (w : Word), portWrite s.mirror c = some (p, r, w) ∧ s.dev.accepts p = true ∧
      (s.dev.ready = true ∨ earlyBlock r.addr = true) ∧ s.mirror.mayWrite p r w = false) ∧
    (∃ (s : State) (p : Fin 8) (a : BitVec 26) (w : Word), s.dev.accepts p = true ∧ canonAddr a.toNat = none) ∧
    (∃ (s : State) (p : Fin 8) (a : BitVec 26) (w : Word) (c : Nat), s.dev.accepts p = true ∧ canonAddr a.toNat = some c ∧ a.toNat % 4 ≠ 0) ∧
    (∃ (s : State) (p : Fin 8) (a : BitVec 26) (w : Word) (c : Nat) (r : Reg), s.dev.accepts p = true ∧ canonAddr a.toNat = some c ∧
      a.toNat % 4 = 0 ∧ c < 0x1000000 ∧ Reg.ofAddr c = some r ∧ Admits s p r w) ∧
    (∃ (s : State) (p : Fin 8) (a : BitVec 26) (w : Word) (c : Nat) (r : Reg), s.dev.accepts p = true ∧ canonAddr a.toNat = some c ∧
      a.toNat % 4 = 0 ∧ c < 0x1000000 ∧ Reg.ofAddr c = some r ∧ (s.dev.ready = true ∨ earlyBlock r.addr = true) ∧ s.mirror.mayWrite p r w = false) ∧
    (∃ (s : State) (p : Fin 8) (w : Word), Admits s p .RAS_ALERTEN w) ∧
    (∃ (s : State) (p : Fin 8) (w : Word), s.dev.accepts p = true) ∧
    (∃ (s : State) (p : Fin 8) (x : RcReg) (r : Reg) (rc : Word), s.dev.accepts p = true ∧
      (r, rc) ∈ (match x with | .trap e => [(Reg.ENG_TRAP e, (0xFFFF : Word))] | .cserr e => [(.ENG_CSERR e, 0xFF00000)] | .collcnt c => [(.CUF_COLLCNT c, 0xFFFFFFFF)] | .lanErr l => [(.LAN_ERR l, 0xFFFFFFFF)]) ∧
      s.mirror.readCut r.addr = true) :=
  ⟨⟨on (fun d => d.modSchPort 7 fun x => { x with held := some (0, 0, []) }), .quoteGo 7 0, 7, .TRU_QCTL 7, 0x80000000, by decide +kernel⟩,
    ⟨on (dn 7), .quoteGo 7 0, 7, .TRU_QCTL 7, 0x80000000, by decide +kernel⟩,
    ⟨on (fun d => d.modPort 7 fun x => { x with waitWrite := some (0, 0) }), .quoteGo 7 0, 7, .TRU_QCTL 7, 0x80000000, by decide +kernel⟩,
    ⟨State.reset, .alloc 0 5, 0, .DRC_BCMD, 0x80000005, by decide +kernel⟩,
    ⟨on id, .cold 7 0, 7, .GLB_RST, 0x80000000, by decide +kernel⟩,
    ⟨on id, 0, 0x3FFFFFF, 5, by decide +kernel⟩,
    ⟨on id, 0, 2, 5, 2, by decide +kernel⟩,
    ⟨on id, 0, 0, 5, 0, .GLB_ID, by unfold Admits; decide +kernel⟩,
    ⟨on id, 7, BitVec.ofNat 26 (Reg.addr .GLB_RST), 5, (Reg.addr .GLB_RST), .GLB_RST, by decide +kernel⟩,
    ⟨on id, 0, 0xFFFFFFFF, by unfold Admits; decide +kernel⟩,
    ⟨on (fun d => (d.raise (.LNK_PERR 7) 31).raise (.LNK_PERR 7) 28), 7, 0x1FFFFFFF, by decide +kernel⟩,
    ⟨on (fun d => d.raise (.RAS_SEAMFENCE 3) 1), 0, .collcnt 127, .CUF_COLLCNT 127, 0xFFFFFFFF, by decide +kernel⟩⟩

theorem test_witness_registerWrites2 :
    (∃ (s : State) (p : Fin 8) (x : RcReg) (r : Reg) (rc : Word), s.dev.accepts p = true ∧
      (r, rc) ∈ (match x with | .trap e => [(Reg.ENG_TRAP e, (0xFFFF : Word))] | .cserr e => [(.ENG_CSERR e, 0xFF00000)] | .collcnt c => [(.CUF_COLLCNT c, 0xFFFFFFFF)] | .lanErr l => [(.LAN_ERR l, 0xFFFFFFFF)]) ∧
      s.mirror.readCut r.addr = true) ∧
    (∃ (s : State) (p : Fin 8) (x : RcReg) (r : Reg) (rc : Word), s.dev.accepts p = true ∧
      (r, rc) ∈ (match x with | .trap e => [(Reg.ENG_TRAP e, (0xFFFF : Word))] | .cserr e => [(.ENG_CSERR e, 0xFF00000)] | .collcnt c => [(.CUF_COLLCNT c, 0xFFFFFFFF)] | .lanErr l => [(.LAN_ERR l, 0xFFFFFFFF)]) ∧
      s.mirror.owns p r = true ∧ s.mirror.readCut r.addr = false) ∧
    (∃ (s : State) (p : Fin 8) (x : RcReg) (r : Reg) (rc : Word), s.dev.accepts p = true ∧
      (r, rc) ∈ (match x with | .trap e => [(Reg.ENG_TRAP e, (0xFFFF : Word))] | .cserr e => [(.ENG_CSERR e, 0xFF00000)] | .collcnt c => [(.CUF_COLLCNT c, 0xFFFFFFFF)] | .lanErr l => [(.LAN_ERR l, 0xFFFFFFFF)]) ∧
      s.mirror.owns p r = true ∧ s.mirror.readCut r.addr = false) ∧
    (∃ (s : State) (p : Fin 8) (x : RcReg) (r : Reg) (rc : Word), s.dev.accepts p = true ∧
      (r, rc) ∈ (match x with | .trap e => [(Reg.ENG_TRAP e, (0xFFFF : Word))] | .cserr e => [(.ENG_CSERR e, 0xFF00000)] | .collcnt c => [(.CUF_COLLCNT c, 0xFFFFFFFF)] | .lanErr l => [(.LAN_ERR l, 0xFFFFFFFF)]) ∧
      s.mirror.owns p r = false) ∧
    (∃ (s : State) (p : Fin 8) (i : Fin 3) (w : Word) (r : Reg),
      ((i.val = 0 ∧ r = .GLB_ACQSITE 0) ∨ (i.val = 1 ∧ r = .GLB_ACQSITE 1) ∨ (i.val = 2 ∧ r = .GLB_SRCSITE)) ∧ Admits s p r w ∧ s.mirror.locked = true) ∧
    (∃ (s : State) (p : Fin 8) (i : Fin 3) (w : Word) (r : Reg),
      ((i.val = 0 ∧ r = .GLB_ACQSITE 0) ∨ (i.val = 1 ∧ r = .GLB_ACQSITE 1) ∨ (i.val = 2 ∧ r = .GLB_SRCSITE)) ∧ Admits s p r w ∧
      s.mirror.locked = false) ∧
    (∃ (s : State) (p : Fin 8) (i : Fin 3) (w : Word) (r : Reg),
      ((i.val = 0 ∧ r = .GLB_ACQSITE 0) ∨ (i.val = 1 ∧ r = .GLB_ACQSITE 1) ∨ (i.val = 2 ∧ r = .GLB_SRCSITE)) ∧ Admits s p r w ∧
      s.mirror.locked = false) :=
  ⟨⟨on (fun d => d.raise (.RAS_SEAMFENCE 2) 18), 7, .collcnt 0, .CUF_COLLCNT 0, 0xFFFFFFFF, by decide +kernel⟩,
    ⟨on (fun d => d.wr (.LAN_ERR 28) 77), 0, .lanErr 28, .LAN_ERR 28, 0xFFFFFFFF, by decide +kernel⟩,
    ⟨on (fun d => d.wr (.ENG_TRAP 15) 0x00FF0007), 0, .trap 15, .ENG_TRAP 15, 0xFFFF, by decide +kernel⟩,
    ⟨on (fun d => d.wr (.LAN_ERR 28) 77), 7, .lanErr 28, .LAN_ERR 28, 0xFFFFFFFF, by decide +kernel⟩,
    ⟨on (fun d => d.raise .SCH_PLOCK 0), 0, 2, 5, .GLB_SRCSITE, by unfold Admits; decide +kernel⟩,
    ⟨on (fun d => d.set (.ACQ_STAT 15) 31 29 1), 0, 1, 0xFFFFFFFF, .GLB_ACQSITE 1, by unfold Admits; decide +kernel⟩,
    ⟨on id, 0, 2, 0x76543210, .GLB_SRCSITE, by unfold Admits; decide +kernel⟩⟩

theorem test_witness_readSideEffects :
    (∃ (d : Dev) (p : Nat) (r : Reg), d.owns p r = false) ∧
    (∃ (d : Dev) (p : Nat) (r : Reg), (∀ q, r ≠ .LNK_EVQLO q)) ∧
    (∃ (d : Dev) (p : Nat) (r : Reg), (∀ q, r ≠ .LNK_EVQLO q) ∧ (∀ q w, r ≠ .MBX_DATA q w) ∧ d.owns p r = true ∧ r.row.rc = 0) ∧
    (∃ (d : Dev) (p : Nat) (r : Reg), (∀ q, r ≠ .LNK_EVQLO q) ∧ (∀ q w, r ≠ .MBX_DATA q w) ∧ d.owns p r = true ∧ r.row.rc ≠ 0) ∧
    (∃ (d : Dev) (p : Nat) (r : Reg) (w : QWord) (ws : List QWord), r = .LNK_EVQLO p ∧ (d.port p).chain = w :: ws) ∧
    (∃ (d : Dev) (p : Nat) (r : Reg) (w : QWord) (ws : List QWord) (q : Nat), r = .LNK_EVQLO p ∧ (d.port p).chain = w :: ws ∧ q ≠ p) ∧
    (∃ (d : Dev) (p : Nat) (r : Reg) (w : Nat), r = .MBX_DATA p w) ∧
    (∃ (d : Dev) (p : Nat) (r : Reg) (w : Nat), r = .MBX_DATA p w) :=
  ⟨⟨ready, 7, .GLB_RST, by decide +kernel⟩,
    ⟨ready, 7, .GLB_ID, by intro q; exact nofun⟩,
    ⟨ready, 0, .GLB_ID, by refine ⟨fun q => nofun, fun q w => nofun, ?_⟩; decide +kernel⟩,
    ⟨ready.wr (.LAN_ERR 28) 77, 0, .LAN_ERR 28, by refine ⟨fun q => nofun, fun q w => nofun, ?_⟩; decide +kernel⟩,
    ⟨ready.modPort 7 fun x => { x with chain := [{ data := 5 }] }, 7, .LNK_EVQLO 7, { data := 5 }, [], by decide +kernel⟩,
    ⟨ready.modPort 7 fun x => { x with chain := [{ data := 5 }] }, 7, .LNK_EVQLO 7, { data := 5 }, [], 6, by decide +kernel⟩,
    ⟨ready.set (.MBX_STAT 7) 2 0 1, 7, .MBX_DATA 7 0, 0, by decide +kernel⟩,
    ⟨ready.set (.MBX_STAT 7) 2 0 2, 7, .MBX_DATA 7 0, 0, by decide +kernel⟩⟩

end Sys2Proof.Tests
end

section
/-! O9: TSET, CAPON and CAPOFF (02_asell_programs.md R45, R63, R64). First how an instruction that executes comes to its routine, which serves
every opcode, then what the shared routine of the instructions that change site state gives. -/
namespace Sys2Proof.Claims
open Sys2Proof.Machine

/-! ### From the command to the routine -/

theorem opcodeAbsent_of_row {d : Dev} {e op : Nat} {row : OpRow} (hrow : opRow op = some row) (hpresent : d.present e op = true) :
    opcodeAbsent d e op = false := by
  simp [opcodeAbsent, hrow, hpresent]

/-- Every check of `runOpcode` passes for an instruction that executes, and what its routine gives is stored. -/
theorem runOpcode_of_executes {s : State} {e : Fin 16} {op : Nat} {b : Burst} {h : Word64} (hx : Executes s e op b h)
    (run : Dev → Burst → Word64 → Nat → Except Stop Burst) :
    runOpcode s.mirror e op run = finishInstr s.mirror e b h (run s.mirror b h (b.pc + 1)) := by
  obtain ⟨⟨hready, hfetch, hop, hpresent, hform, row, hrow, hfield⟩, hsame⟩ := hx
  have habsent := opcodeAbsent_of_row hrow hpresent
  have hdirect : ¬(runsLining s.mirror e op = true ∧ (!b.redirected) = true) := by
    rcases hform with hhorizontal | hredirected
    · simp [hhorizontal]
    · simp [hredirected]
  simp only [runOpcode, hready, hfetch, hop, habsent, hrow, hfield, hsame, if_neg hdirect, ne_eq, not_true_eq_false, Bool.false_eq_true, if_false]

/-- A command that runs an opcode leaves the burst which the opcode's routine gives. -/
theorem leaves_of_routine {i : Instr} {s : State} {e : Fin 16} {op : Nat} {b b' : Burst} {h : Word64}
    {run : Dev → Burst → Word64 → Nat → Except Stop Burst} (hexec : exec i s = act s fun d => runOpcode d e op run)
    (hx : Executes s e op b h) (hrun : run s.mirror b h (b.pc + 1) = .ok b') : Leaves i s e b h b' := by
  intro hlive
  rw [hexec, act_eq s _ hlive, runOpcode_of_executes hx, hrun]

/-! ### Instructions that change site state -/

/-- R36: the vector an instruction carries is emitted when the set it uses is valid. -/
theorem emitOwn_of_valid {d : Dev} {b : Burst} {h : Word64} {v : Option (BitVec 512)}
    (hset : v = none ∨ d.tsValid b.site (headerTs b h) = true) : emitOwn d b h v = .ok (withOwn b h v) := by
  cases v with
  | none => rfl
  | some v =>
    have hvalid := hset.resolve_left nofun
    simp [emitOwn, emitChecked, withOwn, hvalid]

/-- R45: the change comes first; the vector carried is emitted from the changed burst, with the set which that burst gives it. -/
theorem rState_of_valid {d : Dev} {b : Burst} {h : Word64} {pc next : Nat} {v : Option (BitVec 512)} {f : Burst → Burst}
    (hread : readOne d b h pc = .ok (v, next)) (hset : v = none ∨ d.tsValid (f b).site (headerTs (f b) h) = true) :
    rState d b h pc f = .ok { withOwn (f b) h v with pc := next } := by
  simp only [rState, hread, bind, Except.bind, emitOwn_of_valid hset]
  rfl

theorem headerTs_withDts (b : Burst) (h : Word64) (t : Nat) : headerTs { b with dts := t } h = if hTsv h then hTs h else t := rfl

/-- R63: the set that must be valid for TSET's own vector is the new default, unless the header names one. -/
theorem tset_leaves {s : State} {e : Fin 16} {b : Burst} {h : Word64} {v : Option (BitVec 512)} {next : Nat} (hx : Executes s e 0x0C b h)
    (hread : readOne s.mirror b h (b.pc + 1) = .ok (v, next))
    (hset : v = none ∨ s.mirror.tsValid b.site (if hTsv h then hTs h else hImm h % 64) = true) :
    Leaves (.tset e) s e b h { withOwn { b with dts := hImm h % 64 } h v with pc := next } := by
  rw [← headerTs_withDts b] at hset
  exact leaves_of_routine (run := rTset) rfl hx (rState_of_valid hread hset)

/-- R64: the record mode of IMM[1:0] comes into force with the capture state, before the vector carried. -/
theorem capon_leaves {s : State} {e : Fin 16} {b : Burst} {h : Word64} {v : Option (BitVec 512)} {next : Nat} (hx : Executes s e 0x0D b h)
    (hown : Carries s b h v next) :
    Leaves (.capon e) s e b h { withOwn { b with capOn := true, capMode := hImm h % 4 } h v with pc := next } := by
  obtain ⟨hread, hset⟩ := hown
  exact leaves_of_routine (run := rCapon) rfl hx (rState_of_valid hread hset)

/-- R64: CAPOFF changes the capture state alone, so the record mode stays for the next CAPON to replace. -/
theorem capoff_leaves {s : State} {e : Fin 16} {b : Burst} {h : Word64} {v : Option (BitVec 512)} {next : Nat} (hx : Executes s e 0x0E b h)
    (hown : Carries s b h v next) : Leaves (.capoff e) s e b h { withOwn { b with capOn := false } h v with pc := next } := by
  obtain ⟨hread, hset⟩ := hown
  exact leaves_of_routine (run := rCapoff) rfl hx (rState_of_valid hread hset)

/-- Settles O9: each of the three is the shared routine of R45 with its own change of the burst. -/
theorem setAndCaptureInstructions : Obligations.SetAndCaptureInstructions := by
  unfold Obligations.SetAndCaptureInstructions
  refine ⟨?tset, ?capon, ?capoff⟩
  case tset => exact fun _ _ _ _ _ _ hx hread hset => tset_leaves hx hread hset
  case capon => exact fun _ _ _ _ _ _ hx hown => capon_leaves hx hown
  case capoff => exact fun _ _ _ _ _ _ hx hown => capoff_leaves hx hown

end Sys2Proof.Claims
end

section
/-! Register fields read after a field was replaced: the same field, another field of the register, another register. -/
namespace Sys2Proof.Machine

variable (d : Dev) (r : Reg) (hi lo v : Nat)

theorem Dev.rd_set_ne {q : Reg} (h : q.addr ≠ r.addr) : (d.set r hi lo v).rd q = d.rd q := Dev.rd_wr_ne d h _

@[simp] theorem Dev.get_set_same (h : lo ≤ hi) (hn : hi < 32) : (d.set r hi lo v).get r hi lo = v % 2 ^ (hi + 1 - lo) := by
  rw [Dev.get, Dev.set, Dev.rd_wr_same, bits_setBits_same _ _ _ _ h hn]

/-- A field of the register that does not meet the replaced one reads as before. -/
@[simp] theorem Dev.get_set_disjoint {hi' lo' : Nat} (h : lo ≤ hi) (hn : hi < 32) (hd : hi' < lo ∨ hi < lo') :
    (d.set r hi lo v).get r hi' lo' = d.get r hi' lo' := by
  rw [Dev.get, Dev.set, Dev.rd_wr_same, bits_setBits_ne _ _ _ _ h hn hd, Dev.get]

@[simp] theorem Dev.modSite_get (k : Nat) (f : Site → Site) : (d.modSite k f).get r hi lo = d.get r hi lo := rfl

@[simp] theorem Dev.set_site (k : Nat) : (d.set r hi lo v).site k = d.site k := by
  rw [Dev.site, Dev.set_sites, Dev.site]

end Sys2Proof.Machine
end

section
/-! O27: a commit whose validation fails (04_timing_sets_and_edges.md R131). First the device that such a validation leaves, then what it shows in
CUF_TSSTAT and what it leaves alone. -/
namespace Sys2Proof.Claims
open Sys2Proof.Machine

/-! ### The rejection -/

/-- R131: the device after a commit of site `s` is rejected for `f`: the report stands, the commit is over, REJECTED is 1, APPLIED and PENDING are 0. -/
def rejectCommit (d : Dev) (s : Nat) (f : SetFault) : Dev :=
  (((tsReport d s f).modSite s fun y => { y with commit := none }).outcome (.CUF_TSSTAT s) 29 30).clear (.CUF_TSSTAT s) 31

theorem validationEnd_of_fault {d : Dev} {s : Nat} {x : Commit} {f : SetFault} (hcommit : (d.site s).commit = some x)
    (hwaits : x.applyAt = none) (hfault : validate (d.site s).decl.paired x.period x.chans = some f) :
    validationEnd d s = rejectCommit d s f := by
  simp [validationEnd, rejectCommit, hcommit, hwaits, hfault]

section
variable (d : Dev) (s : Nat) (f : SetFault)

/-- The rejection as the fields of CUF_TSSTAT it replaces, around the end of the commit. -/
theorem rejectCommit_eq_sets :
    rejectCommit d s f =
      (((((((d.set (.CUF_TSSTAT s) 15 8 f.chan).set (.CUF_TSSTAT s) 7 4 f.edge).set (.CUF_TSSTAT s) 3 0 f.code).modSite s
        fun y => { y with commit := none }).set (.CUF_TSSTAT s) 29 29 1).set (.CUF_TSSTAT s) 30 30 0).set (.CUF_TSSTAT s) 31 31 0) := by
  rw [rejectCommit, tsReport, Dev.outcome, Dev.clear, Dev.clear, Dev.raise]

/-! ### What CUF_TSSTAT shows, and the end of the commit -/

theorem rejectCommit_set : (rejectCommit d s f).get (.CUF_TSSTAT s) 27 22 = d.get (.CUF_TSSTAT s) 27 22 := by
  simp [rejectCommit_eq_sets]

theorem rejectCommit_code (h : f.code < 16) : (rejectCommit d s f).get (.CUF_TSSTAT s) 3 0 = f.code := by
  simp [rejectCommit_eq_sets, Nat.mod_eq_of_lt h]

theorem rejectCommit_channel (h : f.chan < 256) : (rejectCommit d s f).get (.CUF_TSSTAT s) 15 8 = f.chan := by
  simp [rejectCommit_eq_sets, Nat.mod_eq_of_lt h]

theorem rejectCommit_edge (h : f.edge < 16) : (rejectCommit d s f).get (.CUF_TSSTAT s) 7 4 = f.edge := by
  simp [rejectCommit_eq_sets, Nat.mod_eq_of_lt h]

theorem rejectCommit_rejected : (rejectCommit d s f).flag (.CUF_TSSTAT s) 29 = true := by
  simp [Dev.flag, rejectCommit_eq_sets]

theorem rejectCommit_not_pending : (rejectCommit d s f).flag (.CUF_TSSTAT s) 31 = false := by
  simp [Dev.flag, rejectCommit_eq_sets]

theorem rejectCommit_ends_commit : ((rejectCommit d s f).site s).commit = none := by
  simp [rejectCommit_eq_sets]

/-! ### What the rejection leaves alone -/

/-- What no write of CUF_TSSTAT and no change of a site moves, the rejection does not move. -/
theorem rejectCommit_keeps {α : Type} (g : Dev → α) (hset : ∀ d hi lo v, g (d.set (.CUF_TSSTAT s) hi lo v) = g d)
    (hsite : ∀ d k h, g (d.modSite k h) = g d) : g (rejectCommit d s f) = g d := by
  rw [rejectCommit_eq_sets, hset, hset, hset, hsite, hset, hset, hset]

theorem rejectCommit_periods : (rejectCommit d s f).periods = d.periods :=
  rejectCommit_keeps d s f Dev.periods (fun d => d.set_periods _) Dev.modSite_periods

theorem rejectCommit_chanSets : (rejectCommit d s f).chanSets = d.chanSets :=
  rejectCommit_keeps d s f Dev.chanSets (fun d => d.set_chanSets _) Dev.modSite_chanSets

theorem rejectCommit_dram : (rejectCommit d s f).dram = d.dram :=
  rejectCommit_keeps d s f Dev.dram (fun d => d.set_dram _) Dev.modSite_dram

theorem rejectCommit_rd_ne {q : Reg} (h : q.addr ≠ (Reg.CUF_TSSTAT s).addr) : (rejectCommit d s f).rd q = d.rd q :=
  rejectCommit_keeps d s f (·.rd q) (fun d _ _ _ => d.rd_set_ne _ _ _ _ h) fun d k h => d.modSite_rd k h q

end

/-- The status and the valid words of all sites never share an address: every site has a block of 0x2000 bytes, and they are different words of it. -/
theorem tsValid_addr_ne_tsStat {i : Nat} (hi : i < 2) (j s : Nat) : (Reg.CUF_TSVALID j i).addr ≠ (Reg.CUF_TSSTAT s).addr := by
  simp only [Reg.addr]
  omega

theorem rejectCommit_tsValid (d : Dev) (s : Nat) (f : SetFault) (j : Nat) {k : Nat} (hk : k < 64) :
    (rejectCommit d s f).tsValid j k = d.tsValid j k := by
  have haddr := tsValid_addr_ne_tsStat (i := k / 32) (by omega) j s
  rw [Dev.tsValid, Dev.flag, Dev.get, rejectCommit_rd_ne d s f haddr, Dev.tsValid, Dev.flag, Dev.get]

/-- Settles O27: the validation ends in the rejection of the commit, whose report has room for each part of the fault. -/
theorem rejectedTimingSet : Obligations.RejectedTimingSet := by
  unfold Obligations.RejectedTimingSet
  intro s site x f hcommit hwaits hset hfault hcode hchan hedge hlive
  have hend : validationEnd s.mirror site = rejectCommit s.mirror site f := validationEnd_of_fault hcommit hwaits hfault
  refine ⟨{ s with dev := rejectCommit s.mirror site f }, ?runs, (rejectCommit_set _ _ _).trans hset, rejectCommit_code _ _ _ hcode,
    rejectCommit_channel _ _ _ hchan, rejectCommit_edge _ _ _ hedge, rejectCommit_rejected _ _ _, rejectCommit_not_pending _ _ _,
    rejectCommit_ends_commit _ _ _, rejectCommit_periods _ _ _, rejectCommit_chanSets _ _ _,
    fun j _ _ hk => rejectCommit_tsValid _ _ _ j hk, rejectCommit_dram _ _ _, rfl⟩
  case runs =>
    rw [← hend]
    exact act_eq s (fun d => validationEnd d site) hlive

end Sys2Proof.Claims
end

section
/-! O60: a port's read of a register (12_register_interface.md R417). First what a read of each kind of register is, then the two effects that a
register of its own kind has: the event word taken (R400) and the update of the interrupt request that follows it (R406). -/
namespace Sys2Proof.Machine

variable (d : Dev) (p : Nat)

/-! ### The kinds of registers -/

@[simp] theorem Dev.onlyIf_true (f : Dev → Dev) : d.onlyIf true f = f d := rfl
@[simp] theorem Dev.onlyIf_false (f : Dev → Dev) : d.onlyIf false f = d := rfl

theorem readReg_eventWord_own : readReg d p (.LNK_EVQLO p) = readEvq d p := if_pos rfl

theorem readReg_eventWord_other {q : Nat} (h : p ≠ q) : readReg d p (.LNK_EVQLO q) = (d.shown p (.LNK_EVQLO q), d) := if_neg h

theorem readReg_mailboxWord (q w : Nat) :
    readReg d p (.MBX_DATA q w) =
      (d.shown p (.MBX_DATA q w), d.onlyIf (p = q && d.get (.MBX_STAT q) 2 0 = w + 1) fun d => d.clear (.MBX_STAT q) 31) := rfl

/-- A register that is neither the event word nor a mailbox word has no side effect but that of its RC fields. -/
theorem readReg_plain {r : Reg} (hevent : ∀ q, r ≠ .LNK_EVQLO q) (hmailbox : ∀ q w, r ≠ .MBX_DATA q w) :
    readReg d p r = (d.shown p r, d.onlyIf (r.row.rc ≠ 0 && d.owns p r) fun d => d.clearRc r) := by
  unfold readReg
  split
  · next q => exact absurd rfl (hevent q)
  · next q w => exact absurd rfl (hmailbox q w)
  · rfl

theorem Dev.owns_eventWord (q : Nat) : d.owns p (.LNK_EVQLO q) = decide (p = q) := rfl
theorem Dev.owns_mailboxWord (q w : Nat) : d.owns p (.MBX_DATA q w) = decide (p = q) := rfl

/-! ### The interrupt request -/

/-- R406: all that an update of the interrupt request changes of its port is whether an MSI is due, whether it is late, and the OR it follows. -/
theorem irqUpdate_port_same :
    ∃ due late causes, (irqUpdate d p).port p = { d.port p with msiDue := due, msiLate := late, msiOr := causes } := by
  rw [irqUpdate, Dev.modPort_same]
  cases irqOr d p && !(d.port p).msiOr
  · exact ⟨_, _, _, rfl⟩
  · rw [Dev.onlyIf_true, msiRaise, Dev.modPort_same]
    split
    · exact ⟨_, _, _, rfl⟩
    · exact ⟨_, _, _, rfl⟩

@[simp] theorem irqUpdate_chain : ((irqUpdate d p).port p).chain = (d.port p).chain := by
  obtain ⟨_, _, _, hport⟩ := irqUpdate_port_same d p
  rw [hport]

@[simp] theorem irqUpdate_held : ((irqUpdate d p).port p).held = (d.port p).held := by
  obtain ⟨_, _, _, hport⟩ := irqUpdate_port_same d p
  rw [hport]

theorem irqUpdate_port_ne {q : Nat} (h : q ≠ p) : (irqUpdate d p).port q = d.port q := by
  rw [irqUpdate, Dev.modPort_ne _ h]
  exact Dev.onlyIf_keeps (·.port q) _ (Dev.modPort_ne _ h _)

@[simp] theorem irqUpdate_regs : (irqUpdate d p).regs = d.regs :=
  Dev.onlyIf_keeps Dev.regs _ rfl

/-! ### The event word -/

theorem takeWord_cons {x : Port} {w : QWord} {ws : List QWord} (h : x.chain = w :: ws) :
    takeWord x = { x with chain := ws, held := w, evOut := kindAfter x.evOut w } := by
  rw [takeWord, h]

/-- R400: where the chain has a word, the read returns the low half of the word it takes. -/
theorem readEvq_cons {w : QWord} {ws : List QWord} (h : (d.port p).chain = w :: ws) :
    readEvq d p = (w.data.setWidth 32, irqUpdate (d.modPort p takeWord) p) := by
  simp [readEvq, h, takeWord_cons h]

end Sys2Proof.Machine

namespace Sys2Proof.Claims
open Sys2Proof.Machine

section
variable (d : Dev) (p : Nat)

theorem readReg_not_owner {r : Reg} (h : d.owns p r = false) : readReg d p r = (d.shown p r, d) := by
  by_cases hevent : ∃ q, r = .LNK_EVQLO q
  · obtain ⟨q, rfl⟩ := hevent
    rw [Dev.owns_eventWord, decide_eq_false_iff_not] at h
    exact readReg_eventWord_other d p h
  by_cases hmailbox : ∃ q w, r = .MBX_DATA q w
  · obtain ⟨q, w, rfl⟩ := hmailbox
    rw [Dev.owns_mailboxWord] at h
    rw [readReg_mailboxWord, h, Bool.false_and, Dev.onlyIf_false]
  · push Not at hevent hmailbox
    rw [readReg_plain d p hevent hmailbox, h, Bool.and_false, Dev.onlyIf_false]

theorem readReg_value {r : Reg} (hevent : ∀ q, r ≠ .LNK_EVQLO q) : (readReg d p r).1 = d.shown p r := by
  by_cases hmailbox : ∃ q w, r = .MBX_DATA q w
  · obtain ⟨q, w, rfl⟩ := hmailbox
    rfl
  · push Not at hmailbox
    rw [readReg_plain d p hevent hmailbox]

theorem readReg_owner_clears_rc {r : Reg} (hevent : ∀ q, r ≠ .LNK_EVQLO q) (hmailbox : ∀ q w, r ≠ .MBX_DATA q w) (howns : d.owns p r = true) :
    (r.row.rc = 0 → (readReg d p r).2 = d) ∧
      (r.row.rc ≠ 0 → (readReg d p r).2 = d.wr r (d.rd r &&& ~~~(BitVec.ofNat 32 r.row.rc))) := by
  rw [readReg_plain d p hevent hmailbox, howns]
  constructor
  · intro hnone
    simp [hnone]
  · intro hsome
    simp [hsome, Dev.clearRc]

theorem readReg_takes_eventWord {w : QWord} {ws : List QWord} (h : (d.port p).chain = w :: ws) :
    readReg d p (.LNK_EVQLO p) = (w.data.setWidth 32, irqUpdate (d.modPort p takeWord) p) := by
  rw [readReg_eventWord_own, readEvq_cons d p h]

theorem readReg_clears_valid (w : Nat) :
    (readReg d p (.MBX_DATA p w)).2 = if d.get (.MBX_STAT p) 2 0 = w + 1 then d.clear (.MBX_STAT p) 31 else d := by
  simp [readReg_mailboxWord, Dev.onlyIf]

end

/-- Settles O60: a read is that of an event word, of a mailbox word, or of a register whose RC fields are its only side effect, and each asks
whether the reader owns the register. -/
theorem readSideEffects : Obligations.ReadSideEffects := by
  unfold Obligations.ReadSideEffects
  intro d p r
  refine ⟨readReg_not_owner d p, readReg_value d p, readReg_owner_clears_rc d p, ?eventWord, ?mailboxWord⟩
  case eventWord =>
    rintro w ws rfl hchain
    rw [readReg_takes_eventWord d p hchain]
    refine ⟨rfl, ?chain, ?held, ?regs, ?others⟩
    case chain => simp [takeWord_cons hchain]
    case held => simp [takeWord_cons hchain]
    case regs => simp
    case others =>
      intro q hq
      rw [irqUpdate_port_ne _ _ hq, Dev.modPort_ne _ hq]
  case mailboxWord =>
    rintro w rfl
    exact readReg_clears_valid d p w

end Sys2Proof.Claims
end

section
/-! The register file under the shared operations: a report writes RAS_STAT alone (15_dependability.md R476, R479, R481), a ledger entry GLB_LGSTAT
beside the reports of its DRAM write (07_capture_and_acquisition.md R272, R273), and a lane that climbs from CDR its LAN_STAT (R386). -/
namespace Sys2Proof.Machine

@[simp] theorem Dev.modCal_get (d : Dev) (f : Cal → Cal) (r : Reg) (hi lo : Nat) : (d.modCal f).get r hi lo = d.get r hi lo := rfl

/-- Of two registers with an entry at their addresses, neither has the other's address. -/
theorem Reg.addr_ne_of_ofAddr {q r : Reg} (hq : Reg.ofAddr q.addr = some q) (hr : Reg.ofAddr r.addr = some r) (h : q ≠ r) : q.addr ≠ r.addr := by
  intro haddr
  rw [haddr, hr] at hq
  exact h (Option.some.inj hq).symm

theorem Dev.each_keeps_of_mem {α β : Type} (g : Dev → β) {f : Dev → α → Dev} :
    ∀ (l : List α) (d : Dev), (∀ x ∈ l, ∀ d, g (f d x) = g d) → g (d.each l f) = g d
  | [], _, _ => rfl
  | x :: xs, d, h =>
    (Dev.each_keeps_of_mem g xs (f d x) fun y hy => h y (List.mem_cons_of_mem _ hy)).trans (h x List.mem_cons_self d)

/-! ### Reports -/

section
variable {q : Reg} (h : q.addr ≠ Reg.RAS_STAT.addr)
include h

theorem fatalHold_rd (d : Dev) : (fatalHold d).rd q = d.rd q := by
  unfold fatalHold
  dsimp only
  split
  · rfl
  · exact Dev.rd_set_ne _ _ _ _ _ h

omit h in
theorem rasEngine_rd (d : Dev) (r : RasRec) : (rasEngine d r).rd q = d.rd q := by
  obtain ⟨ras, hras⟩ := rasEngine_touches d r
  rw [hras]
  rfl

theorem rasAppend_rd (d : Dev) (r : RasRec) : (rasAppend d r).rd q = d.rd q :=
  Dev.onlyIf_keeps (·.rd q) _ (Dev.rd_set_ne _ _ _ _ _ h)

theorem rasReport_rd (d : Dev) (src sev isl addr sites : Nat) (e p : Option Nat) : (rasReport d src sev isl addr sites e p).rd q = d.rd q := by
  unfold rasReport
  refine (Dev.onlyIf_keeps (·.rd q) _ (fatalHold_rd h _)).trans ?_
  rw [rasEngine_rd, Dev.raise, Dev.rd_set_ne _ _ _ _ _ h, Dev.modRas_rd]
  split
  · rfl
  · exact rasAppend_rd h d _

/-! ### Writes of the device -/

theorem writeLine_rd (d : Dev) (cls a : Nat) (bs : List Byte) : (writeLine d cls a bs).2.rd q = d.rd q := by
  unfold writeLine
  split
  · rfl
  · split
    · exact rasReport_rd h _ _ _ _ _ _ _ _
    · rfl

theorem writeLines_rd (d : Dev) (cls a : Nat) (bs : List Byte) : (writeLines d cls a bs).2.rd q = d.rd q := by
  have go : ∀ (l : List (Nat × List Byte)) (r : Bool × Dev),
      (l.foldl (fun r x => let w := writeLine r.2 cls x.1 x.2; (r.1 && w.1, w.2)) r).2.rd q = r.2.rd q := by
    intro l
    induction l with
    | nil => exact fun r => rfl
    | cons x xs ih => exact fun r => (ih _).trans (writeLine_rd h r.2 cls x.1 x.2)
  exact go _ _

theorem devTry_rd (d : Dev) (cls a : Nat) (bs : List Byte) : (devTry d cls a bs).rd q = d.rd q := by
  unfold devTry devLand
  dsimp only
  split
  · split
    · exact writeLines_rd h d cls a bs
    · exact (rasReport_rd h _ _ _ _ _ _ _ _).trans (writeLines_rd h d cls a bs)
  · rfl

theorem heldWrites_rd (d : Dev) : (heldWrites d).rd q = d.rd q := by
  refine Dev.each_keeps (·.rd q) (fun x held => ?_) _ d.dram.held
  cases held with
  | write cls a bs => exact devTry_rd h x cls a bs
  | port p => rfl

theorem devWrite_rd (d : Dev) (cls a : Nat) (bs : List Byte) : (devWrite d cls a bs).rd q = d.rd q :=
  (devTry_rd h _ cls a bs).trans (Dev.onlyIf_keeps (·.rd q) _ (heldWrites_rd h d))

/-! ### Ledger entries -/

theorem ledgerGap_rd (d : Dev) : (ledgerGap d).rd q = d.rd q := by
  unfold ledgerGap
  split
  · exact devWrite_rd h d _ _ _
  · rfl

theorem ledger_rd (hstat : q.addr ≠ Reg.GLB_LGSTAT.addr) (d : Dev) (kind uclass site unit time aux w2 w3 : Nat) :
    (ledger d kind uclass site unit time aux w2 w3).rd q = d.rd q := by
  unfold ledger ledgerPut ledgerPutTv
  dsimp only
  split
  · exact ledgerGap_rd h d
  · split
    · exact (devWrite_rd h _ _ _ _).trans (ledgerGap_rd h d)
    · exact (Dev.rd_set_ne _ _ _ _ _ hstat).trans (ledgerGap_rd h d)

end

/-! ### Lanes that climb from CDR -/

section
variable {α : Type} (g : Dev → α) (hlane : ∀ d l f, g (d.modLane l f) = g d)
include hlane

theorem noLocks_keeps {l : Nat} (hset : ∀ d hi lo v, g (d.set (.LAN_STAT l) hi lo v) = g d) (d : Dev) : g (noLocks d l) = g d := by
  unfold noLocks
  refine (Dev.onlyIf_keeps g _ (hset _ _ _ _)).trans ?_
  rw [hlane, hset]

/-- What no write of the lane's LAN_STAT and no change of a lane moves, its climb does not move. -/
theorem toCdr_keeps {l : Nat} (hset : ∀ d hi lo v, g (d.set (.LAN_STAT l) hi lo v) = g d) (d : Dev) : g (toCdr d l) = g d := by
  unfold toCdr
  rw [hlane, noLocks_keeps g hlane hset, Dev.setStage, hset]

end

theorem mem_members {n m k : Nat} (h : k ∈ members n m) : k < n := List.mem_range.mp (List.mem_filter.mp h).1

theorem calLanes_lt {qty t l : Nat} (h : l ∈ calLanes qty t) : l < 28 := by
  unfold calLanes at h
  split at h
  · obtain ⟨k, hk, rfl⟩ := List.mem_map.mp h
    have := mem_members hk
    omega
  · split at h
    · obtain ⟨k, hk, rfl⟩ := List.mem_map.mp h
      have := mem_members hk
      omega
    · exact absurd h List.not_mem_nil

/-- R436: what no write of a lane's LAN_STAT and no change of a lane moves, the lanes of a run that climb again do not move. -/
theorem calRelane_keeps {α : Type} (g : Dev → α) (hlane : ∀ d l f, g (d.modLane l f) = g d)
    (hset : ∀ l, l < 28 → ∀ d hi lo v, g (d.set (.LAN_STAT l) hi lo v) = g d) (d : Dev) (o : CalOp) : g (calRelane d o) = g d := by
  refine Dev.each_keeps_of_mem g _ d fun l hl d => ?_
  split
  · rfl
  · exact toCdr_keeps g hlane (hset l (calLanes_lt hl)) d

end Sys2Proof.Machine
end

section
/-! O58: DISCARD (13_calibration.md R439). First what the end of an operation and the rejection of a run leave, then which of the two a write of
CAL_CMD with DISCARD comes to. -/
namespace Sys2Proof.Claims
open Sys2Proof.Machine

/-! ### Registers of active values -/

theorem activeCal_addr_ne {r q : Reg} (hactive : activeCal r = true) (hr : Reg.ofAddr r.addr = some r) (hq : Reg.ofAddr q.addr = some q)
    (hother : activeCal q = false) : r.addr ≠ q.addr := by
  refine Reg.addr_ne_of_ofAddr hr hq ?_
  rintro rfl
  rw [hactive] at hother
  contradiction

theorem ofAddr_laneStat : ∀ l, l < 28 → Reg.ofAddr (Reg.LAN_STAT l).addr = some (.LAN_STAT l) := by
  decide

theorem calStat_addr_ne_laneStat {l : Nat} (hl : l < 28) : Reg.CAL_STAT.addr ≠ (Reg.LAN_STAT l).addr :=
  Reg.addr_ne_of_ofAddr rfl (ofAddr_laneStat l hl) nofun

/-! ### The end of an operation -/

section
variable (d : Dev) (o : CalOp)

theorem calRelane_rd_ne {q : Reg} (hlane : ∀ l, l < 28 → q.addr ≠ (Reg.LAN_STAT l).addr) : (calRelane d o).rd q = d.rd q :=
  calRelane_keeps (·.rd q) (fun d l f => d.modLane_rd l f q) (fun l hl d _ _ _ => d.rd_set_ne _ _ _ _ (hlane l hl)) d o

theorem calRelane_cal : (calRelane d o).cal = d.cal :=
  calRelane_keeps Dev.cal Dev.modLane_cal (fun _ _ d => d.set_cal _) d o

theorem calRelane_sched : (calRelane d o).sched = d.sched :=
  calRelane_keeps Dev.sched Dev.modLane_sched (fun _ _ d => d.set_sched _) d o

/-- The current operation taken out, with the state that CAL_STAT shows of it. -/
def clearOperation (d : Dev) : Dev := (d.set .CAL_STAT 31 30 0).modCal fun c => { c with op := none }

theorem calOver_eq : calOver d o = (clearOperation d).onlyIf (o.run && o.passes && o.snap.isNone) fun d => calRelane d o := rfl

theorem calOver_rd {q : Reg} (hlane : ∀ l, l < 28 → q.addr ≠ (Reg.LAN_STAT l).addr) : (calOver d o).rd q = (clearOperation d).rd q := by
  rw [calOver_eq]
  exact Dev.onlyIf_keeps (·.rd q) _ (calRelane_rd_ne (clearOperation d) o hlane)

theorem calOver_rd_ne {q : Reg} (hstat : q.addr ≠ Reg.CAL_STAT.addr) (hlane : ∀ l, l < 28 → q.addr ≠ (Reg.LAN_STAT l).addr) :
    (calOver d o).rd q = d.rd q := by
  rw [calOver_rd d o hlane, clearOperation, Dev.modCal_rd, Dev.rd_set_ne _ _ _ _ _ hstat]

theorem calOver_not_busy : (calOver d o).get .CAL_STAT 31 30 = 0 := by
  rw [Dev.get, calOver_rd d o fun _ => calStat_addr_ne_laneStat, ← Dev.get, clearOperation, Dev.modCal_get,
    Dev.get_set_same _ _ _ _ _ (by decide) (by decide), Nat.zero_mod]

theorem calOver_cal : (calOver d o).cal = { d.cal with op := none } := by
  rw [calOver_eq, Dev.onlyIf_keeps Dev.cal _ (calRelane_cal _ o), clearOperation, Dev.modCal_cal, Dev.set_cal]

theorem calOver_sched : (calOver d o).sched = d.sched := by
  rw [calOver_eq, Dev.onlyIf_keeps Dev.sched _ (calRelane_sched _ o), clearOperation, Dev.modCal_sched, Dev.set_sched]

end

/-! ### The rejection of a run -/

/-- The device after a rejection before its ledger entry: the operation is over and counted, and CAL_STAT shows why. -/
def rejectShown (d : Dev) (o : CalOp) (code item diff : Nat) : Dev :=
  ((((((calOver d o).modCal fun c => { c with rejects := c.rejects.put 0 o.qty ((c.rejects.get 0 o.qty + 1) % 2 ^ 64) }).set .CAL_STAT 19 16 code).set
    .CAL_STAT 15 8 item).set .CAL_STAT 7 0 (min 255 diff)).set .CAL_STAT 28 28 1).set .CAL_STAT 29 29 0

section
variable (d : Dev) (o : CalOp) (code item diff : Nat)

theorem calReject_eq_ledger : calReject d o code item diff = calLedger (rejectShown d o code item diff) o 3 code item := rfl

theorem calReject_rd {q : Reg} (hras : q.addr ≠ Reg.RAS_STAT.addr) (hledger : q.addr ≠ Reg.GLB_LGSTAT.addr) :
    (calReject d o code item diff).rd q = (rejectShown d o code item diff).rd q :=
  ledger_rd hras hledger _ _ _ _ _ _ _ _ _

theorem calReject_status (hi lo : Nat) :
    (calReject d o code item diff).get .CAL_STAT hi lo = (rejectShown d o code item diff).get .CAL_STAT hi lo := by
  rw [Dev.get, calReject_rd d o code item diff (by decide) (by decide), Dev.get]

theorem calReject_rd_ne {q : Reg} (hstat : q.addr ≠ Reg.CAL_STAT.addr) (hlane : ∀ l, l < 28 → q.addr ≠ (Reg.LAN_STAT l).addr)
    (hras : q.addr ≠ Reg.RAS_STAT.addr) (hledger : q.addr ≠ Reg.GLB_LGSTAT.addr) : (calReject d o code item diff).rd q = d.rd q := by
  rw [calReject_rd d o code item diff hras hledger, rejectShown]
  simp only [Dev.rd_set_ne _ _ _ _ _ hstat, Dev.modCal_rd, calOver_rd_ne d o hstat hlane]

theorem calReject_not_busy : (calReject d o code item diff).get .CAL_STAT 31 30 = 0 := by
  simp [calReject_status, rejectShown, calOver_not_busy]

theorem calReject_rejected : (calReject d o code item diff).flag .CAL_STAT 28 = true := by
  simp [Dev.flag, calReject_status, rejectShown]

theorem calReject_code (hcode : code < 16) : (calReject d o code item diff).get .CAL_STAT 19 16 = code := by
  simp [calReject_status, rejectShown, Nat.mod_eq_of_lt hcode]

theorem calReject_cal :
    (calReject d o code item diff).cal =
      { d.cal with op := none, rejects := d.cal.rejects.put 0 o.qty ((d.cal.rejects.get 0 o.qty + 1) % 2 ^ 64) } := by
  simp [calReject_eq_ledger, calLedger, rejectShown, calOver_cal]

theorem calReject_sched : (calReject d o code item diff).sched = d.sched := by
  rw [calReject_eq_ledger, calLedger, ledger_sched, rejectShown]
  rw [Dev.set_sched, Dev.set_sched, Dev.set_sched, Dev.set_sched, Dev.set_sched, Dev.modCal_sched, calOver_sched]

end

/-! ### DISCARD -/

/-- R438, R439: no operation is left in `u`, and but for what its end reports nothing that an operation works on differs from `d`. -/
structure OperationOver (d u : Dev) : Prop where
  op : u.cal.op = none
  not_busy : u.get .CAL_STAT 31 30 = 0
  active : ∀ r, activeCal r = true → Reg.ofAddr r.addr = some r → u.rd r = d.rd r
  linActive : u.cal.linActive = d.cal.linActive
  sched : u.sched = d.sched

theorem calOver_operationOver (d : Dev) (o : CalOp) : OperationOver d (calOver d o) where
  op := by rw [calOver_cal]
  not_busy := calOver_not_busy d o
  active r hactive hr :=
    calOver_rd_ne d o (activeCal_addr_ne hactive hr rfl rfl) fun l hl => activeCal_addr_ne hactive hr (ofAddr_laneStat l hl) rfl
  linActive := by rw [calOver_cal]
  sched := calOver_sched d o

theorem calReject_operationOver (d : Dev) (o : CalOp) (code item diff : Nat) : OperationOver d (calReject d o code item diff) where
  op := by rw [calReject_cal]
  not_busy := calReject_not_busy d o code item diff
  active r hactive hr :=
    calReject_rd_ne d o code item diff (activeCal_addr_ne hactive hr rfl rfl)
      (fun l hl => activeCal_addr_ne hactive hr (ofAddr_laneStat l hl) rfl) (activeCal_addr_ne hactive hr rfl rfl)
      (activeCal_addr_ne hactive hr rfl rfl)
  linActive := by rw [calReject_cal]
  sched := calReject_sched d o code item diff

/-- R438, R478: without a calibration operation only a cuff that has lost PLL lock holds a site. -/
theorem siteHeld_of_no_operation {d : Dev} (hop : d.cal.op = none) (hlock : ∀ c, c < 8 → inSet d.sched.pllLost c = false) (k : Nat) :
    d.siteHeld k = false := by
  simp only [Dev.siteHeld, hop, Option.any_none, Bool.false_or, List.any_eq_false, List.mem_range]
  intro c hc
  simp [hlock c hc]

theorem calDiscard_idle {d : Dev} (hop : d.cal.op = none) : calDiscard d = d := by
  rw [calDiscard, hop]

theorem calDiscard_run {d : Dev} {o : CalOp} (hop : d.cal.op = some o) (hrun : o.run = true) (hsnap : o.snap = none) :
    calDiscard d = calReject d o rjDiscarded 0 0 := by
  simp [calDiscard, hop, hrun, hsnap]

theorem calDiscard_commit {d : Dev} {o : CalOp} (hop : d.cal.op = some o) (hcommit : o.run = false ∨ o.snap ≠ none) :
    calDiscard d = calOver d o := by
  rcases hcommit with hrun | hsnap
  · simp [calDiscard, hop, hrun]
  · simp [calDiscard, hop, hsnap]

theorem calDiscard_operationOver {d : Dev} {o : CalOp} (hop : d.cal.op = some o) : OperationOver d (calDiscard d) := by
  by_cases hmeasures : o.run = true ∧ o.snap = none
  · obtain ⟨hrun, hsnap⟩ := hmeasures
    rw [calDiscard_run hop hrun hsnap]
    exact calReject_operationOver d o _ _ _
  · rw [calDiscard_commit hop (by simpa [imp_iff_not_or] using hmeasures)]
    exact calOver_operationOver d o

/-- A write of CAL_CMD with DISCARD that passes the access checks is stored, whatever RUN and COMMIT are, and the current operation ends. -/
theorem exec_calDiscard {s : State} {p : Fin 8} {w : Word} (hadmits : Admits s p .CAL_CMD (setBit w 29 true)) :
    Becomes (.calDiscard p w) s (calDiscard (s.mirror.store .CAL_CMD (setBit w 29 true))) := by
  obtain ⟨haccepts, hready, hmay, hcut⟩ := hadmits
  intro hlive
  have hwrite : regCommand s.mirror p .CAL_CMD (setBit w 29 true) calWrite = calDiscard (s.mirror.store .CAL_CMD (setBit w 29 true)) := by
    rw [regCommand_admits s.mirror _ _ _ _ haccepts hready hmay, hcut, if_neg Bool.false_ne_true, calWrite,
      if_pos (bit_setBit_same w 29 true (by decide))]
  rw [← hwrite]
  exact act_eq s (fun d => regCommand d p .CAL_CMD (setBit w 29 true) calWrite) hlive

/-- Settles O58: the write is stored and then either rejects the run or drops the commit; both end the operation and leave the active values. -/
theorem calibrationDiscard : Obligations.CalibrationDiscard := by
  unfold Obligations.CalibrationDiscard
  intro s p w hadmits
  have hexec := exec_calDiscard hadmits
  set d := s.mirror.store .CAL_CMD (setBit w 29 true) with hd
  have hcal : d.cal = s.dev.cal := by simp [hd]
  have hsched : d.sched = s.dev.sched := by simp [hd]
  refine ⟨fun hnone => ?idle, fun o ho hlive => ?operation⟩
  case idle => rwa [calDiscard_idle (hcal ▸ hnone)] at hexec
  case operation =>
    have hop : d.cal.op = some o := hcal ▸ ho
    obtain ⟨hnone, hbusy, hactive, hlin, hkept⟩ := calDiscard_operationOver hop
    refine ⟨_, hexec hlive, hnone, hbusy, ?active, hlin.trans (hcal ▸ rfl), ?released, ?run, ?commit, rfl⟩
    case active =>
      intro r hr haddr
      rw [hactive r hr haddr]
      exact Dev.rd_wr_ne _ (activeCal_addr_ne hr haddr rfl rfl) _
    case released =>
      intro k hlock
      exact siteHeld_of_no_operation hnone (by rwa [hkept, hsched]) k
    case run =>
      intro hrun hsnap
      rw [calDiscard_run hop hrun hsnap]
      refine ⟨calReject_rejected _ _ _ _ _, calReject_code _ _ _ _ _ (by decide), ?_⟩
      rw [calReject_cal, hcal, Tbl.get_put_same]
    case commit =>
      intro hcommit
      rw [calDiscard_commit hop hcommit, calOver_cal, hcal]

end Sys2Proof.Claims
end

section
/-! Register words through a write of a whole word and through writes of one register after another, and a port's write that passes the access
checks of Table 12.2. -/
namespace Sys2Proof.Machine

/-- R8: a register whose bits are all RW takes the word written, whatever it held. -/
theorem Dev.store_of_rw {r : Reg} (hrw : r.row.rw = 0xFFFFFFFF) (hw1c : r.row.w1c = 0) (d : Dev) (w : Word) : d.store r w = d.wr r w := by
  have hword : plainWrite r.row (d.rd r) w 0 = w := by
    have hall : BitVec.ofNat 32 (0xFFFFFFFF - (0xFFFFFFFF &&& 0)) = BitVec.allOnes 32 := by decide
    rw [plainWrite, hrw, hw1c, hall]
    simp only [BitVec.not_allOnes, BitVec.and_zero, BitVec.zero_or, BitVec.and_allOnes, BitVec.not_zero]
  rw [Dev.store, hword]

section
variable {r : Nat → Reg} (v : Nat → Word) {l : List Nat}

/-- Writes of registers leave every register that is none of them. -/
theorem Dev.rd_each_wr_ne {q : Reg} (hq : ∀ j, q.addr ≠ (r j).addr) (d : Dev) : (d.each l fun d j => d.wr (r j) (v j)).rd q = d.rd q :=
  Dev.each_keeps (·.rd q) (fun d j => d.rd_wr_ne (hq j) (v j)) d l

/-- Of writes of registers with addresses of their own, each stands when all are done. -/
theorem Dev.rd_each_wr_same (hinj : ∀ i j, (r i).addr = (r j).addr → i = j) {i : Nat} (hi : i ∈ l) (d : Dev) :
    (d.each l fun d j => d.wr (r j) (v j)).rd (r i) = v i := by
  induction l generalizing d with
  | nil => contradiction
  | cons x xs ih =>
    by_cases hlater : i ∈ xs
    · exact ih hlater (d.wr (r x) (v x))
    · obtain rfl : i = x := (List.mem_cons.mp hi).resolve_right hlater
      have hother : ∀ j ∈ xs, ∀ d : Dev, (d.wr (r j) (v j)).rd (r i) = d.rd (r i) := fun j hj d =>
        d.rd_wr_ne (fun haddr => hlater (hinj i j haddr ▸ hj)) (v j)
      calc ((d.wr (r i) (v i)).each xs fun d j => d.wr (r j) (v j)).rd (r i)
        _ = (d.wr (r i) (v i)).rd (r i) := Dev.each_keeps_of_mem (·.rd (r i)) xs _ hother
        _ = v i := d.rd_wr_same (r i) (v i)

end

end Sys2Proof.Machine
end

section
/-! O48: security versions and the measurement log (14_power_reset_and_trust.md R469, R471). First when a write of TRU_SVN is refused, then which
entry a selection names and what the device shows of it. -/
namespace Sys2Proof.Claims
open Sys2Proof.Machine

/-- Table 12.2: a command that is a port's write of one register has the write's effect when it passes the access checks. -/
theorem becomes_of_admits {i : Instr} {s : State} {p : Fin 8} {r : Reg} {w : Word} {f : Dev → Word → Dev}
    (hexec : exec i s = act s fun d => regCommand d p r w f) (hadmits : Admits s p r w) : Becomes i s (f s.mirror w) := by
  obtain ⟨haccepts, hready, hmay, hcut⟩ := hadmits
  intro hlive
  rw [hexec, act_eq s _ hlive, regCommand_admits s.mirror _ _ _ _ haccepts hready hmay, hcut, if_neg Bool.false_ne_true]

/-! ### Security versions -/

/-- R469: the write would lower a minimum, or revoke the key of the running firmware. -/
def SvnRefused (d : Dev) (w : Word) : Prop :=
  bits w 13 0 < d.trust.otp.fwMin ∨ bits w 27 14 < d.trust.otp.pkgMin ∨ ∃ k, d.trust.fwKey = some k ∧ inSet (bits w 31 28) k = true

theorem svnWrite_of_refused {d : Dev} {w : Word} (h : SvnRefused d w) : svnWrite d w = d.raise .TRU_IMGSTAT 28 :=
  if_pos (by simpa only [SvnRefused, Option.any_eq_true] using h)

theorem svnWrite_of_not_refused {d : Dev} {w : Word} (h : ¬SvnRefused d w) :
    svnWrite d w = d.modTrust fun t => { t with otp := { t.otp with
      fwMin := bits w 13 0, pkgMin := bits w 27 14, revoked := t.otp.revoked ||| bits w 31 28 } } :=
  if_neg (by simpa only [SvnRefused, Option.any_eq_true] using h)

/-! ### The entry that a selection names -/

/-- While the log position has not passed its low word, the distance to a position behind it is the plain difference. -/
theorem logBack_eq {pos sel : Nat} (hpos : pos < 2 ^ 32) (hsel : sel ≤ pos) : (pos % 2 ^ 32 + 2 ^ 32 - sel) % 2 ^ 32 = pos - sel := by
  omega

section
variable {d : Dev} {back : Nat} (hpos : d.trust.logPos < 2 ^ 32) (hsel : (d.rd .TRU_LOGSEL).toNat ≤ d.trust.logPos)
  (hback : back = d.trust.logPos - (d.rd .TRU_LOGSEL).toNat)
include hpos hsel hback

theorem logShown_eq : logShown d = if 1 ≤ back ∧ back ≤ d.trust.log.length then d.trust.log[d.trust.log.length - back]? else none := by
  rw [logShown, logBack_eq hpos hsel, ← hback]

/-- R471: no entry is shown of a position that is not yet written or is older than the held entries. -/
theorem logShown_of_gone (hgone : back = 0 ∨ d.trust.log.length < back) : logShown d = none := by
  rw [logShown_eq hpos hsel hback, if_neg (by omega)]

theorem logShown_of_held (hwritten : back ≠ 0) (hheld : back ≤ d.trust.log.length) :
    logShown d = d.trust.log[d.trust.log.length - back]? := by
  rw [logShown_eq hpos hsel hback, if_pos ⟨Nat.one_le_iff_ne_zero.mpr hwritten, hheld⟩]

end

/-! ### What the device shows of it -/

/-- R471: LOG_GONE and the data words for the entry that is shown, or for none. -/
def showEntry (d : Dev) (e : Option (List Byte)) : Dev :=
  (d.set .TRU_STAT 27 27 e.isNone.toNat).each (List.range 16) fun d i => d.wr (.TRU_LOGDATA i) (BitVec.ofNat 32 (fieldAt (e.getD []) (4 * i) 4))

theorem logselWrite_eq (d : Dev) (w : Word) : logselWrite d w = showEntry (d.wr .TRU_LOGSEL w) (logShown (d.wr .TRU_LOGSEL w)) := by
  rw [← Dev.store_of_rw rfl rfl]
  rfl

theorem logData_addr_inj (i j : Nat) (h : (Reg.TRU_LOGDATA i).addr = (Reg.TRU_LOGDATA j).addr) : i = j := by
  simp only [Reg.addr] at h
  omega

theorem logSel_addr_ne_logData (j : Nat) : Reg.TRU_LOGSEL.addr ≠ (Reg.TRU_LOGDATA j).addr := by
  simp only [Reg.addr]
  omega

theorem trustStat_addr_ne_logData (j : Nat) : Reg.TRU_STAT.addr ≠ (Reg.TRU_LOGDATA j).addr := by
  simp only [Reg.addr]
  omega

section
variable (d : Dev) (e : Option (List Byte))

theorem showEntry_trust : (showEntry d e).trust = d.trust := by
  rw [showEntry, Dev.each_keeps Dev.trust (fun d i => d.wr_trust (.TRU_LOGDATA i) _), Dev.set_trust]

theorem showEntry_dram : (showEntry d e).dram = d.dram := by
  rw [showEntry, Dev.each_keeps Dev.dram (fun d i => d.wr_dram (.TRU_LOGDATA i) _), Dev.set_dram]

theorem showEntry_logSel : (showEntry d e).rd .TRU_LOGSEL = d.rd .TRU_LOGSEL := by
  rw [showEntry, Dev.rd_each_wr_ne _ logSel_addr_ne_logData, Dev.rd_set_ne _ _ _ _ _ (by decide)]

theorem showEntry_logGone : (showEntry d e).flag .TRU_STAT 27 = e.isNone := by
  rw [Dev.flag, Dev.get, showEntry, Dev.rd_each_wr_ne _ trustStat_addr_ne_logData, ← Dev.get, Dev.get_set_same _ _ _ _ _ (by decide) (by decide)]
  cases e <;> rfl

theorem showEntry_logData {i : Nat} (hi : i < 16) :
    (showEntry d e).rd (.TRU_LOGDATA i) = BitVec.ofNat 32 (fieldAt (e.getD []) (4 * i) 4) :=
  Dev.rd_each_wr_same (fun i => BitVec.ofNat 32 (fieldAt (e.getD []) (4 * i) 4)) logData_addr_inj (List.mem_range.mpr hi) _

end

/-- No byte of an entry that is not held is shown. -/
theorem fieldAt_nil (o k : Nat) : fieldAt [] o k = 0 := by
  simp [fieldAt, ofBytes]

/-- Settles O48: a write of TRU_SVN is refused or taken whole, and one of TRU_LOGSEL shows what the log holds at the position it names. -/
theorem securityVersions : Obligations.SecurityVersions := by
  unfold Obligations.SecurityVersions
  refine ⟨?raised, ?refused, ?selected⟩
  case raised =>
    intro s p w hadmits hfw hpkg hkey
    have hallowed : ¬SvnRefused s.mirror w := by
      rintro (hlower | hlower | ⟨k, hk, hrevoked⟩)
      · exact absurd hfw (Nat.not_le.mpr hlower)
      · exact absurd hpkg (Nat.not_le.mpr hlower)
      · exact absurd hrevoked (by simp [hkey k hk])
    rw [← svnWrite_of_not_refused hallowed]
    exact becomes_of_admits rfl hadmits
  case refused =>
    intro s p w hadmits hrefused
    rw [← svnWrite_of_refused (d := s.mirror) hrefused]
    exact becomes_of_admits rfl hadmits
  case selected =>
    intro s p w back hadmits hpos hsel hback hlive
    have hexec : exec (.logSelect p w) s = _ := becomes_of_admits (f := logselWrite) rfl hadmits hlive
    rw [logselWrite_eq] at hexec
    have hrd : (s.mirror.wr .TRU_LOGSEL w).rd .TRU_LOGSEL = w := Dev.rd_wr_same _ _ _
    set d := s.mirror.wr .TRU_LOGSEL w
    have htrust : d.trust = s.dev.trust := rfl
    rw [← htrust] at hpos hsel hback ⊢
    rw [← hrd] at hsel hback
    refine ⟨_, hexec, (showEntry_logSel _ _).trans hrd, showEntry_trust _ _, showEntry_dram _ _, rfl, ?gone, ?held⟩
    case gone =>
      intro hgone
      rw [logShown_of_gone hpos hsel hback hgone]
      refine ⟨showEntry_logGone d none, fun i hi => ?_⟩
      rw [showEntry_logData d none hi, Option.getD_none, fieldAt_nil, BitVec.ofNat_eq_ofNat]
    case held =>
      intro b hwritten hheld hentry
      rw [logShown_of_held hpos hsel hback hwritten hheld, hentry]
      exact ⟨showEntry_logGone d (some b), fun i hi => showEntry_logData d (some b) hi⟩

end Sys2Proof.Claims
end
